-- ==== Sys2Proof/Word.lean ====
section
/-! DEFINITION. The word types and plain data that name parts of the machine: the types that the
operands of an instruction and the messages of the host and of other packages are made of. -/

namespace Sys2Proof

abbrev Byte := BitVec 8
/-- A lane word: v registers, tile elements, atoms (R49, R114). -/
abbrev Lane := BitVec 32
/-- A scalar word (R87). -/
abbrev Word := BitVec 64

/-- A finite table: pairs of a key and a value, keys strictly rising, no value equal to the
table's default. -/
abbrev Tbl (α : Type) := List (Nat × α)

/-- A capability: 128 bits and the hidden tag kept beside them (R56). -/
structure Cap where
  tag : Bool
  bits : BitVec 128
  deriving DecidableEq, Repr

/-- The record the host writes to the partition controller for one context (R327). -/
structure CtxRec where
  asid : BitVec 14
  root : BitVec 56
  capRoot : Cap
  hostRoot : Option Cap
  peerRoot : Option Cap
  cores : BitVec 256
  save : Cap
  faultQ : Cap
  wdog : BitVec 16
  flags : BitVec 8
  deriving DecidableEq, Repr

/-- A message of a collective: what one rank sends to one other (R390). `vals` are the values d
of its elements as f32 encodings (R391); `src` is the sending package. -/
structure Contrib where
  src : Nat
  op : Nat
  wire : Nat
  lc : Nat
  t : Nat
  n : Nat
  nrank : Nat
  corr : BitVec 24
  rank : Nat
  target : BitVec 64
  vals : List (BitVec 32)
  deriving DecidableEq, Repr

/-- The registers READ and WRITE of a debug session name (R378). -/
inductive RegName where
  | g (n : Nat)
  | s (n : Nat)
  | c (n : Nat)
  | v (n lane : Nat)
  | t (n lane : Nat)
  | q (n : Nat)
  | e (n : Nat)
  | z (tile lane elem : Nat)
  | k (n : Nat)
  | creg (n : Nat)
  | pc
  deriving DecidableEq, Repr

/-- What a stored thing can do of itself (R177, R190, R340, R341, R345). -/
inductive StorageErr where
  /-- one symbol of a 256-bit word of global memory goes bad: physical word number, symbol -/
  | arrayCorrectable (word symbol : Nat)
  /-- more than one symbol of a 256-bit word goes bad: physical word number, symbol -/
  | arrayUncorrectable (word symbol : Nat)
  /-- an uncorrectable error is found in a cell line: line number of the plane -/
  | cellLine (line : Nat)
  /-- one bad bit of a register word, corrected and logged -/
  | registerCorrected (sid : Nat)
  /-- an uncorrectable error in a v or t word of a scribe -/
  | vWord (sid reg lane : Nat)
  /-- an uncorrectable error in a scalar word of a scribe: g by number, stack entry e at 8 + e -/
  | scalarWord (sid key : Nat)
  /-- an uncorrectable error in a capability register of a scribe -/
  | capWord (sid reg : Nat)
  /-- an uncorrectable error in a tile of a scribe, in one lane -/
  | tile (sid z lane : Nat)
  /-- a register word that an island in retention keeps -/
  | keptRegister (isl word : Nat)
  /-- a register of a scribe takes another value that its check bits do not show -/
  | silent (sid : Nat) (r : RegName) (v : BitVec 128)
  /-- a lane group of a vertical channel fails the given number of sends; 4 or more: for good -/
  | laneGroup (die channel group sends : Nat)
  deriving DecidableEq, Repr

/-- A request of another package to this package's exported window (R384). -/
inductive PeerReq where
  | load (addr width : Nat)
  /-- the tag of a capability stored with share-out, and whether the word carries poison -/
  | store (addr width value : Nat) (tag poison : Bool)
  /-- an atomic by its code (R102), with the operand and the new value of a CAS -/
  | atomic (code addr width x y : Nat)
  /-- a reduce-on-store by its code (R281) -/
  | reduce (red addr width value : Nat)
  deriving DecidableEq, Repr

/-- What the host does through the memory windows of its links (R368, R369). -/
inductive HostAccess where
  /-- reads of a context's global memory, and writes of a value -/
  | read
  | write (value : Nat)
  /-- the mailbox command that opens a context to BAR2 -/
  | openContext
  /-- a read of a queue's registers (Table 24-1) -/
  | queueRegs
  /-- a write of a queue's CTRL that asks for nothing: 0 or 3 -/
  | controlIgnored
  deriving DecidableEq, Repr

/-- What the host reads through the mailbox (R371). -/
inductive MailRead where
  /-- an error-log ring and its loss count (R342) -/
  | errorLog (log : Nat)
  /-- the part's health record -/
  | health
  /-- the inlet and outlet temperature and flow of the cold plate -/
  | coldPlate
  deriving DecidableEq, Repr

/-- What happens to a flit on a port (R382). -/
inductive FlitEvent where
  | sent (port : Nat)
  /-- the oldest flit of the retry buffer arrives -/
  | acked (port : Nat)
  /-- the CRC of flit `k` of the retry buffer fails -/
  | failed (port k : Nat)
  deriving DecidableEq, Repr

/-- A stacked layer of a die, and how far below 85 °C its sensor reads, in tenths of a degree (R343). -/
structure LayerReading where
  layer : Nat
  margin : BitVec 16
  deriving DecidableEq, Repr

/-- A walk: the core of the access that missed (64·die + core, or 256 and above for an access of no scribe), its virtual bit address, and
which entry a full TLB loses. -/
structure WalkReq where
  core : Nat
  addr : Nat
  out : Nat
  deriving DecidableEq, Repr

/-- A saved team to bring back, the ASID under which, and a new c14 for scribes whose spill area the system has enlarged (R179,
R334). -/
structure Restore where
  team : Nat
  asid : Nat
  spills : List (Nat × BitVec 128)
  deriving DecidableEq, Repr

end Sys2Proof
end

