-- ==== Sys2Proof/Syntax.lean ====
section
/-! DEFINITION. The instruction type: one constructor for each row of spec/opcode_table.json.
The first part are the words of major 0x01 to 0x33 (Tables 04-8 and 27-1), each with the fields
of its format (Table 04-3), in the order the table lists them. The second part are the steps of
the engines, the dispatcher, the host and the controllers, which have no encoding: their arguments
name the agent that steps or carry what comes from outside. -/

namespace Sys2Proof

inductive Instr where
  /-- R89: Adds two scalar registers modulo 2^64. -/
  | add (d : BitVec 5) (a : BitVec 5) (b : BitVec 5)
  /-- R89: Subtracts sb from sa modulo 2^64. -/
  | sub (d : BitVec 5) (a : BitVec 5) (b : BitVec 5)
  /-- R89: Bitwise AND of two scalars. -/
  | and (d : BitVec 5) (a : BitVec 5) (b : BitVec 5)
  /-- R89: Bitwise OR of two scalars. -/
  | or (d : BitVec 5) (a : BitVec 5) (b : BitVec 5)
  /-- R89: Bitwise XOR of two scalars. -/
  | xor (d : BitVec 5) (a : BitVec 5) (b : BitVec 5)
  /-- R89: sa AND NOT sb. -/
  | andn (d : BitVec 5) (a : BitVec 5) (b : BitVec 5)
  /-- R89: Left shift by sb mod 64. -/
  | shl (d : BitVec 5) (a : BitVec 5) (b : BitVec 5)
  /-- R89: Logical right shift by sb mod 64. -/
  | shr (d : BitVec 5) (a : BitVec 5) (b : BitVec 5)
  /-- R89: Arithmetic right shift by sb mod 64. -/
  | sar (d : BitVec 5) (a : BitVec 5) (b : BitVec 5)
  /-- R89: Signed scalar minimum. -/
  | minI (d : BitVec 5) (a : BitVec 5) (b : BitVec 5)
  /-- R89: Signed scalar maximum. -/
  | maxI (d : BitVec 5) (a : BitVec 5) (b : BitVec 5)
  /-- R89: Unsigned scalar minimum. -/
  | minB (d : BitVec 5) (a : BitVec 5) (b : BitVec 5)
  /-- R89: Unsigned scalar maximum. -/
  | maxB (d : BitVec 5) (a : BitVec 5) (b : BitVec 5)
  /-- R89: Sets 1 when sa < sb signed. -/
  | slt (d : BitVec 5) (a : BitVec 5) (b : BitVec 5)
  /-- R89: Sets 1 when sa < sb unsigned. -/
  | sltb (d : BitVec 5) (a : BitVec 5) (b : BitVec 5)
  /-- R89: Sets 1 when sa = sb. -/
  | seq (d : BitVec 5) (a : BitVec 5) (b : BitVec 5)
  /-- R89: Sets 1 when sa differs from sb. -/
  | sne (d : BitVec 5) (a : BitVec 5) (b : BitVec 5)
  /-- R89: Selects sa if the old sd is non-zero, else sb. -/
  | sel (d : BitVec 5) (a : BitVec 5) (b : BitVec 5)
  /-- R89: Counts leading zero bits of sa. -/
  | clz (d : BitVec 5) (a : BitVec 5)
  /-- R89: Counts trailing zero bits of sa. -/
  | ctz (d : BitVec 5) (a : BitVec 5)
  /-- R89: Counts one bits of sa. -/
  | popc (d : BitVec 5) (a : BitVec 5)
  /-- R90: Adds a sign-extended immediate. -/
  | addi (d : BitVec 5) (a : BitVec 5) (i : BitVec 14)
  /-- R90: Sets 1 when sa is below the signed immediate. -/
  | slti (d : BitVec 5) (a : BitVec 5) (i : BitVec 14)
  /-- R90: Loads a sign-extended immediate. -/
  | li (d : BitVec 5) (i : BitVec 14)
  /-- R90: Replaces the high 32 bits of sa with the immediate. -/
  | lih (d : BitVec 5) (a : BitVec 5) (i : BitVec 14)
  /-- R90: AND with a sign-extended immediate. -/
  | andi (d : BitVec 5) (a : BitVec 5) (i : BitVec 14)
  /-- R90: OR with a sign-extended immediate. -/
  | ori (d : BitVec 5) (a : BitVec 5) (i : BitVec 14)
  /-- R90: XOR with a sign-extended immediate. -/
  | xori (d : BitVec 5) (a : BitVec 5) (i : BitVec 14)
  /-- R91: Left shift by an immediate. -/
  | shli (d : BitVec 5) (a : BitVec 5) (n : BitVec 6)
  /-- R91: Logical right shift by an immediate. -/
  | shri (d : BitVec 5) (a : BitVec 5) (n : BitVec 6)
  /-- R91: Arithmetic right shift by an immediate. -/
  | sari (d : BitVec 5) (a : BitVec 5) (n : BitVec 6)
  /-- R91: Extracts a bit field, zero-extended. -/
  | bfx (d : BitVec 5) (a : BitVec 5) (l : BitVec 6) (p : BitVec 6)
  /-- R91: Extracts a bit field, sign-extended. -/
  | bfxI (d : BitVec 5) (a : BitVec 5) (l : BitVec 6) (p : BitVec 6)
  /-- R91: Inserts the low bits of sa into a field of sd. -/
  | bfi (d : BitVec 5) (a : BitVec 5) (l : BitVec 6) (p : BitVec 6)
  /-- R91: Sign-extends sa from bit n - 1. -/
  | sext (d : BitVec 5) (a : BitVec 5) (n : BitVec 6)
  /-- R91: Zero-extends sa from n bits. -/
  | zext (d : BitVec 5) (a : BitVec 5) (n : BitVec 6)
  /-- R92: Low 64 bits of the product. -/
  | mul (d : BitVec 5) (a : BitVec 5) (b : BitVec 5)
  /-- R92: High 64 bits of the signed product. -/
  | mulhI (d : BitVec 5) (a : BitVec 5) (b : BitVec 5)
  /-- R92: High 64 bits of the unsigned product. -/
  | mulhB (d : BitVec 5) (a : BitVec 5) (b : BitVec 5)
  /-- R92: Signed quotient truncated toward zero, defined for zero divisors. -/
  | divI (d : BitVec 5) (a : BitVec 5) (b : BitVec 5)
  /-- R92: Unsigned quotient. -/
  | divB (d : BitVec 5) (a : BitVec 5) (b : BitVec 5)
  /-- R92: Signed remainder with the sign of the dividend. -/
  | remI (d : BitVec 5) (a : BitVec 5) (b : BitVec 5)
  /-- R92: Unsigned remainder. -/
  | remB (d : BitVec 5) (a : BitVec 5) (b : BitVec 5)
  /-- R93: Copies a scalar, sharing a wet tag. -/
  | mov (d : BitVec 5) (a : BitVec 5)
  /-- R95: Branches when sa = sb. -/
  | beq (a : BitVec 5) (b : BitVec 5) (o : BitVec 12)
  /-- R95: Branches when sa differs from sb. -/
  | bne (a : BitVec 5) (b : BitVec 5) (o : BitVec 12)
  /-- R95: Branches when sa < sb signed. -/
  | blt (a : BitVec 5) (b : BitVec 5) (o : BitVec 12)
  /-- R95: Branches when sa >= sb signed. -/
  | bge (a : BitVec 5) (b : BitVec 5) (o : BitVec 12)
  /-- R95: Branches when sa < sb unsigned. -/
  | bltb (a : BitVec 5) (b : BitVec 5) (o : BitVec 12)
  /-- R95: Branches when sa >= sb unsigned. -/
  | bgeb (a : BitVec 5) (b : BitVec 5) (o : BitVec 12)
  /-- R95: Branches when sa is zero. -/
  | bz (a : BitVec 5) (o : BitVec 12)
  /-- R95: Branches when sa is non-zero. -/
  | bnz (a : BitVec 5) (o : BitVec 12)
  /-- R95: Branches always. -/
  | jmp (o : BitVec 12)
  /-- R96: Branches when q holds in every non-hole lane, raising UNIFORM when mixed. -/
  | bru (q : BitVec 3) (o : BitVec 12)
  /-- R96: Branches when q holds in some non-hole lane. -/
  | bany (q : BitVec 3) (o : BitVec 12)
  /-- R96: Branches when q holds in every non-hole lane. -/
  | ball (q : BitVec 3) (o : BitVec 12)
  /-- R96: Branches when q holds in no non-hole lane. -/
  | bnone (q : BitVec 3) (o : BitVec 12)
  /-- R97: Calls a PC-relative target, raising the window depth and spilling if needed. -/
  | call (o : BitVec 12)
  /-- R97: Calls the target held in sa. -/
  | callr (a : BitVec 5)
  /-- R97: Jumps to the target in sa without changing depth. -/
  | jr (a : BitVec 5)
  /-- R97: Returns to s8, filling the window if needed and lowering the depth. -/
  | ret
  /-- R99: Scalar load through a capability, zero-extended, possibly completing wet. -/
  | ldB (d : BitVec 5) (c : BitVec 4) (x : BitVec 5) (w : BitVec 4) (o : BitVec 2) (s : BitVec 3)
  /-- R99: Scalar load through a capability, sign-extended. -/
  | ldI (d : BitVec 5) (c : BitVec 4) (x : BitVec 5) (w : BitVec 4) (o : BitVec 2) (s : BitVec 3)
  /-- R99: Loads a 128-bit capability with its tag per R64. -/
  | ldc (d : BitVec 4) (c : BitVec 4) (x : BitVec 5) (o : BitVec 2) (s : BitVec 3)
  /-- R100: Scalar store of the low w bits through a capability. -/
  | st (t : BitVec 5) (c : BitVec 4) (x : BitVec 5) (w : BitVec 4) (o : BitVec 2) (s : BitVec 3)
  /-- R100: Stores a capability with its tag. -/
  | stc (t : BitVec 4) (c : BitVec 4) (x : BitVec 5) (o : BitVec 2) (s : BitVec 3)
  /-- R102: Atomic add at the home returning the old value. -/
  | amoAdd (d : BitVec 5) (c : BitVec 4) (x : BitVec 5) (w : BitVec 4) (o : BitVec 2) (s : BitVec 3)
  /-- R102: Atomic signed minimum. -/
  | amoMin (d : BitVec 5) (c : BitVec 4) (x : BitVec 5) (w : BitVec 4) (o : BitVec 2) (s : BitVec 3)
  /-- R102: Atomic signed maximum. -/
  | amoMax (d : BitVec 5) (c : BitVec 4) (x : BitVec 5) (w : BitVec 4) (o : BitVec 2) (s : BitVec 3)
  /-- R102: Atomic AND. -/
  | amoAnd (d : BitVec 5) (c : BitVec 4) (x : BitVec 5) (w : BitVec 4) (o : BitVec 2) (s : BitVec 3)
  /-- R102: Atomic OR. -/
  | amoOr (d : BitVec 5) (c : BitVec 4) (x : BitVec 5) (w : BitVec 4) (o : BitVec 2) (s : BitVec 3)
  /-- R102: Atomic XOR. -/
  | amoXor (d : BitVec 5) (c : BitVec 4) (x : BitVec 5) (w : BitVec 4) (o : BitVec 2) (s : BitVec 3)
  /-- R102: Atomic swap. -/
  | amoSwap (d : BitVec 5) (c : BitVec 4) (x : BitVec 5) (w : BitVec 4) (o : BitVec 2) (s : BitVec 3)
  /-- R102: Atomic compare-and-swap with the new value in the next register. -/
  | amoCas (d : BitVec 5) (c : BitVec 4) (x : BitVec 5) (w : BitVec 4) (o : BitVec 2) (s : BitVec 3)
  /-- R102: Atomic add on a narrow field within one atom. -/
  | amoBfadd (d : BitVec 5) (c : BitVec 4) (x : BitVec 5) (w : BitVec 4) (o : BitVec 2) (s : BitVec 3)
  /-- R102: Atomic set of a narrow field within one atom. -/
  | amoBfset (d : BitVec 5) (c : BitVec 4) (x : BitVec 5) (w : BitVec 4) (o : BitVec 2) (s : BitVec 3)
  /-- R105: Reads a capability's decoded base. -/
  | cgetb (d : BitVec 5) (a : BitVec 4)
  /-- R105: Reads a capability's length. -/
  | cgetl (d : BitVec 5) (a : BitVec 4)
  /-- R105: Reads a capability's permissions. -/
  | cgetp (d : BitVec 5) (a : BitVec 4)
  /-- R105: Reads a capability's space. -/
  | cgets (d : BitVec 5) (a : BitVec 4)
  /-- R105: Reads a capability's tag. -/
  | cgett (d : BitVec 5) (a : BitVec 4)
  /-- R106: Narrows bounds to sb bits from the cursor, trapping on widening. -/
  | csetb (d : BitVec 4) (a : BitVec 4) (b : BitVec 5)
  /-- R105: Masks a capability's permissions. -/
  | candp (d : BitVec 4) (a : BitVec 4) (b : BitVec 5)
  /-- R105: Copies a capability with its tag. -/
  | cmov (d : BitVec 4) (a : BitVec 4)
  /-- R105: Sets a capability's cursor, the tag following R59. -/
  | ccur (d : BitVec 4) (a : BitVec 4) (b : BitVec 5)
  /-- R108: Advances a cursor by sb elements. -/
  | padd (d : BitVec 4) (a : BitVec 4) (b : BitVec 5) (w : BitVec 4)
  /-- R108: Moves a cursor back by sb elements. -/
  | psub (d : BitVec 4) (a : BitVec 4) (b : BitVec 5) (w : BitVec 4)
  /-- R108: Element difference of two cursors. -/
  | pdiff (d : BitVec 5) (a : BitVec 4) (b : BitVec 4) (w : BitVec 4)
  /-- R108: Rounds a cursor down or up to an element width. -/
  | palign (d : BitVec 4) (a : BitVec 4) (u : BitVec 1) (w : BitVec 4)
  /-- R108: Cursor as a byte address, trapping when unaligned. -/
  | pbyte (d : BitVec 5) (a : BitVec 4)
  /-- R108: Sets the cursor from a byte address. -/
  | pbit (d : BitVec 4) (a : BitVec 4) (b : BitVec 5)
  /-- R108: Tests without trapping whether an element lies in bounds. -/
  | pinb (d : BitVec 5) (a : BitVec 4) (b : BitVec 5) (w : BitVec 4)
  /-- R110: Reads a control register. -/
  | getc (r : BitVec 10) (d : BitVec 5)
  /-- R110: Writes a control register under its field rules. -/
  | setc (r : BitVec 10) (s : BitVec 5)
  /-- R35: Writes SEED and reseeds every non-hole lane's stochastic state. -/
  | setcRngs (s : BitVec 5)
  /-- R172: Enters the handler with SOFTWARE. -/
  | trap (n : BitVec 10)
  /-- R170: Checks the resume point and leaves the handler. -/
  | tret
  /-- R171: Re-issues a faulted wet access, then returns as TRET. -/
  | tretReplay
  /-- R112: Orders the scribe's accesses at a scope without accessing memory. -/
  | fence (s : BitVec 3) (o : BitVec 2)
  /-- R113: Defers the scribe in its slot's choice until it next issues. -/
  | yield
  /-- R23: Waits for loops and wet tags, then ends the scribe. -/
  | exit
  /-- R172: Enters the handler with BREAKPOINT, or stops for the host under break capture. -/
  | brk (n : BitVec 10)
  /-- R113: Counts one progress event for the watchdog. -/
  | beat
  /-- R113: No effect. -/
  | nop
  /-- R113: Reads an argument register, zero- or sign-extended. -/
  | ldk (n : BitVec 6) (d : BitVec 5) (i : BitVec 1)
  /-- R82: The word XIM: widens the next word's immediate, offset or shape. -/
  | xim (p : BitVec 26)
  /-- R163: Parks until a register is dry in every lane. -/
  | dry (r : BitVec 6) (k : BitVec 1)
  /-- R163: Reports without waiting which lanes of a register are wet. -/
  | wetq (d : BitVec 5) (r : BitVec 6) (k : BitVec 1)
  /-- R163: Parks until no register of the scribe is pending. -/
  | dryAll
  /-- R119: 32-bit lane add. -/
  | vadd (g : BitVec 4) (d : BitVec 6) (a : BitVec 6) (b : BitVec 6)
  /-- R119: 32-bit lane subtract. -/
  | vsub (g : BitVec 4) (d : BitVec 6) (a : BitVec 6) (b : BitVec 6)
  /-- R119: Lane AND. -/
  | vand (g : BitVec 4) (d : BitVec 6) (a : BitVec 6) (b : BitVec 6)
  /-- R119: Lane OR. -/
  | vor (g : BitVec 4) (d : BitVec 6) (a : BitVec 6) (b : BitVec 6)
  /-- R119: Lane XOR. -/
  | vxor (g : BitVec 4) (d : BitVec 6) (a : BitVec 6) (b : BitVec 6)
  /-- R119: Lane AND NOT. -/
  | vandn (g : BitVec 4) (d : BitVec 6) (a : BitVec 6) (b : BitVec 6)
  /-- R119: Lane NOT. -/
  | vnot (g : BitVec 4) (d : BitVec 6) (a : BitVec 6)
  /-- R119: Lane signed absolute value. -/
  | vabs (g : BitVec 4) (d : BitVec 6) (a : BitVec 6)
  /-- R119: Lane negation. -/
  | vneg (g : BitVec 4) (d : BitVec 6) (a : BitVec 6)
  /-- R119: Lane signed minimum. -/
  | vminI (g : BitVec 4) (d : BitVec 6) (a : BitVec 6) (b : BitVec 6)
  /-- R119: Lane unsigned minimum. -/
  | vminB (g : BitVec 4) (d : BitVec 6) (a : BitVec 6) (b : BitVec 6)
  /-- R119: Lane signed maximum. -/
  | vmaxI (g : BitVec 4) (d : BitVec 6) (a : BitVec 6) (b : BitVec 6)
  /-- R119: Lane unsigned maximum. -/
  | vmaxB (g : BitVec 4) (d : BitVec 6) (a : BitVec 6) (b : BitVec 6)
  /-- R119: Lane signed saturating add. -/
  | vaddsatI (g : BitVec 4) (d : BitVec 6) (a : BitVec 6) (b : BitVec 6)
  /-- R119: Lane unsigned saturating add. -/
  | vaddsatB (g : BitVec 4) (d : BitVec 6) (a : BitVec 6) (b : BitVec 6)
  /-- R119: Lane signed saturating subtract. -/
  | vsubsatI (g : BitVec 4) (d : BitVec 6) (a : BitVec 6) (b : BitVec 6)
  /-- R119: Lane unsigned saturating subtract. -/
  | vsubsatB (g : BitVec 4) (d : BitVec 6) (a : BitVec 6) (b : BitVec 6)
  /-- R120: Lane add of an immediate. -/
  | vaddi (g : BitVec 4) (d : BitVec 6) (a : BitVec 6) (i : BitVec 8)
  /-- R120: Lane AND with an immediate. -/
  | vandi (g : BitVec 4) (d : BitVec 6) (a : BitVec 6) (i : BitVec 8)
  /-- R120: Lane OR with an immediate. -/
  | vori (g : BitVec 4) (d : BitVec 6) (a : BitVec 6) (i : BitVec 8)
  /-- R120: Lane left shift by an immediate. -/
  | vshli (g : BitVec 4) (d : BitVec 6) (a : BitVec 6) (n : BitVec 5)
  /-- R121: Low 32 bits of the lane product. -/
  | vmul (g : BitVec 4) (d : BitVec 6) (a : BitVec 6) (b : BitVec 6)
  /-- R121: High 32 bits of the signed lane product. -/
  | vmulhI (g : BitVec 4) (d : BitVec 6) (a : BitVec 6) (b : BitVec 6)
  /-- R121: High 32 bits of the unsigned lane product. -/
  | vmulhB (g : BitVec 4) (d : BitVec 6) (a : BitVec 6) (b : BitVec 6)
  /-- R121: Lane multiply-add into vd. -/
  | vmad (g : BitVec 4) (d : BitVec 6) (a : BitVec 6) (b : BitVec 6)
  /-- R122: Lane left shift. -/
  | vshl (g : BitVec 4) (d : BitVec 6) (a : BitVec 6) (b : BitVec 6)
  /-- R122: Lane logical right shift. -/
  | vshr (g : BitVec 4) (d : BitVec 6) (a : BitVec 6) (b : BitVec 6)
  /-- R122: Lane arithmetic right shift. -/
  | vsar (g : BitVec 4) (d : BitVec 6) (a : BitVec 6) (b : BitVec 6)
  /-- R122: Lane leading-zero count. -/
  | vclz (g : BitVec 4) (d : BitVec 6) (a : BitVec 6)
  /-- R122: Lane population count. -/
  | vpopc (g : BitVec 4) (d : BitVec 6) (a : BitVec 6)
  /-- R122: Lane bit-field extract, zero-extended. -/
  | vbfx (g : BitVec 4) (d : BitVec 6) (a : BitVec 6) (b : BitVec 6)
  /-- R122: Lane bit-field extract, sign-extended. -/
  | vbfxI (g : BitVec 4) (d : BitVec 6) (a : BitVec 6) (b : BitVec 6)
  /-- R122: Lane bit-field insert. -/
  | vbfi (g : BitVec 4) (d : BitVec 6) (a : BitVec 6) (b : BitVec 6)
  /-- R123: f32 lane add. -/
  | fadd (g : BitVec 4) (d : BitVec 6) (a : BitVec 6) (b : BitVec 6)
  /-- R123: f32 lane subtract. -/
  | fsub (g : BitVec 4) (d : BitVec 6) (a : BitVec 6) (b : BitVec 6)
  /-- R123: f32 lane multiply. -/
  | fmul (g : BitVec 4) (d : BitVec 6) (a : BitVec 6) (b : BitVec 6)
  /-- R27: f32 lane minimum. -/
  | fmin (g : BitVec 4) (d : BitVec 6) (a : BitVec 6) (b : BitVec 6)
  /-- R27: f32 lane maximum. -/
  | fmax (g : BitVec 4) (d : BitVec 6) (a : BitVec 6) (b : BitVec 6)
  /-- R123: f32 lane absolute value. -/
  | fabs (g : BitVec 4) (d : BitVec 6) (a : BitVec 6)
  /-- R123: f32 lane negation. -/
  | fneg (g : BitVec 4) (d : BitVec 6) (a : BitVec 6)
  /-- R124: Rounds f32 to an integral value in a chosen mode. -/
  | frnd (g : BitVec 4) (d : BitVec 6) (a : BitVec 6) (m : BitVec 3)
  /-- R124: Writes the f32 class mask. -/
  | fclass (g : BitVec 4) (d : BitVec 6) (a : BitVec 6)
  /-- R125: Packed 16-bit add on both halves. -/
  | faddPacked (g : BitVec 4) (d : BitVec 6) (a : BitVec 6) (b : BitVec 6) (p : BitVec 1)
  /-- R125: Packed 16-bit subtract. -/
  | fsubPacked (g : BitVec 4) (d : BitVec 6) (a : BitVec 6) (b : BitVec 6) (p : BitVec 1)
  /-- R125: Packed 16-bit multiply. -/
  | fmulPacked (g : BitVec 4) (d : BitVec 6) (a : BitVec 6) (b : BitVec 6) (p : BitVec 1)
  /-- R125: Packed 16-bit minimum. -/
  | fminPacked (g : BitVec 4) (d : BitVec 6) (a : BitVec 6) (b : BitVec 6) (p : BitVec 1)
  /-- R125: Packed 16-bit maximum. -/
  | fmaxPacked (g : BitVec 4) (d : BitVec 6) (a : BitVec 6) (b : BitVec 6) (p : BitVec 1)
  /-- R125: Packed 16-bit absolute value. -/
  | fabsPacked (g : BitVec 4) (d : BitVec 6) (a : BitVec 6) (p : BitVec 1)
  /-- R125: Packed 16-bit negation. -/
  | fnegPacked (g : BitVec 4) (d : BitVec 6) (a : BitVec 6) (p : BitVec 1)
  /-- R125: Packed 16-bit class masks. -/
  | fclassPacked (g : BitVec 4) (d : BitVec 6) (a : BitVec 6) (p : BitVec 1)
  /-- R125: Packed 16-bit round to integral. -/
  | frndPacked (g : BitVec 4) (d : BitVec 6) (a : BitVec 6) (m : BitVec 3) (p : BitVec 1)
  /-- R126: Two-term 16-bit dot product accumulated into f32 with one rounding. -/
  | fdot2 (g : BitVec 4) (d : BitVec 6) (a : BitVec 6) (b : BitVec 6) (p : BitVec 1)
  /-- R127: Fused multiply-add into vd. -/
  | fma (g : BitVec 4) (d : BitVec 6) (a : BitVec 6) (b : BitVec 6) (f : BitVec 2)
  /-- R127: Fused multiply-subtract of vd. -/
  | fms (g : BitVec 4) (d : BitVec 6) (a : BitVec 6) (b : BitVec 6) (f : BitVec 2)
  /-- R127: vd minus the product, fused. -/
  | fnma (g : BitVec 4) (d : BitVec 6) (a : BitVec 6) (b : BitVec 6) (f : BitVec 2)
  /-- R128: Integer lane compare writing a predicate. -/
  | vcmp (g : BitVec 4) (q : BitVec 3) (a : BitVec 6) (b : BitVec 6) (c : BitVec 4)
  /-- R128: f32 lane compare writing a predicate. -/
  | vcmpF (g : BitVec 4) (q : BitVec 3) (a : BitVec 6) (b : BitVec 6) (c : BitVec 4)
  /-- R128: Sets the predicate where either operand is NaN. -/
  | fcmpu (g : BitVec 4) (q : BitVec 3) (a : BitVec 6) (b : BitVec 6)
  /-- R130: Selects va or vb by guard in every non-hole lane. -/
  | vsel (g : BitVec 4) (d : BitVec 6) (a : BitVec 6) (b : BitVec 6)
  /-- R129: Copies a v register, sharing a wet tag. -/
  | vmov (g : BitVec 4) (d : BitVec 6) (a : BitVec 6)
  /-- R129: Loads a sign-extended 12-bit immediate into lanes. -/
  | vmovi (g : BitVec 4) (d : BitVec 6) (i : BitVec 12)
  /-- R129: Broadcasts a scalar's low 32 bits into lanes. -/
  | vfromg (g : BitVec 4) (d : BitVec 6) (s : BitVec 5)
  /-- R131: Writes the lane's number, coordinate or segment position. -/
  | vlane (g : BitVec 4) (d : BitVec 6) (s : BitVec 6)
  /-- R129: Predicate AND. -/
  | pand (g : BitVec 4) (d : BitVec 3) (a : BitVec 3) (b : BitVec 3)
  /-- R129: Predicate OR. -/
  | por (g : BitVec 4) (d : BitVec 3) (a : BitVec 3) (b : BitVec 3)
  /-- R129: Predicate XOR. -/
  | pxor (g : BitVec 4) (d : BitVec 3) (a : BitVec 3) (b : BitVec 3)
  /-- R129: Predicate NOT. -/
  | pnot (g : BitVec 4) (d : BitVec 3) (a : BitVec 3)
  /-- R129: Predicate copy. -/
  | pmov (g : BitVec 4) (d : BitVec 3) (a : BitVec 3)
  /-- R133: Converts f32 to lane format X. -/
  | cvtF32ToX (g : BitVec 4) (d : BitVec 6) (a : BitVec 6) (x : BitVec 4) (r : BitVec 2)
  /-- R133: Converts i32 to lane format X. -/
  | cvtI32ToX (g : BitVec 4) (d : BitVec 6) (a : BitVec 6) (x : BitVec 4) (r : BitVec 2)
  /-- R133: Converts lane format X to f32. -/
  | cvtXToF32 (g : BitVec 4) (d : BitVec 6) (a : BitVec 6) (x : BitVec 4) (r : BitVec 2)
  /-- R133: Converts lane format X to i32. -/
  | cvtXToI32 (g : BitVec 4) (d : BitVec 6) (a : BitVec 6) (x : BitVec 4) (r : BitVec 2)
  /-- R134: Widens one 16-bit half to f32 exactly. -/
  | vunpack (g : BitVec 4) (d : BitVec 6) (a : BitVec 6) (f : BitVec 1) (h : BitVec 1)
  /-- R135: Quantises f32 lanes into scaled narrow or e4m3 blocks. -/
  | vquant (g : BitVec 4) (d : BitVec 6) (a : BitVec 6) (r : BitVec 2) (t : BitVec 2) (l : BitVec 2) (f : BitVec 2)
  /-- R136: Returns the exact f32 value of a scaled code. -/
  | vdequant (g : BitVec 4) (d : BitVec 6) (a : BitVec 6) (f : BitVec 2)
  /-- R134: Rounds two f32 values into f16x2. -/
  | vpackF16 (g : BitVec 4) (d : BitVec 6) (a : BitVec 6) (b : BitVec 6)
  /-- R134: Rounds two f32 values into bf16x2. -/
  | vpackBf16 (g : BitVec 4) (d : BitVec 6) (a : BitVec 6) (b : BitVec 6)
  /-- R137: Correctly rounded reciprocal. -/
  | frcp (g : BitVec 4) (d : BitVec 6) (a : BitVec 6)
  /-- R137: Correctly rounded reciprocal square root. -/
  | frsqrt (g : BitVec 4) (d : BitVec 6) (a : BitVec 6)
  /-- R137: Correctly rounded square root. -/
  | fsqrt (g : BitVec 4) (d : BitVec 6) (a : BitVec 6)
  /-- R137: Correctly rounded 2^x. -/
  | fexp2 (g : BitVec 4) (d : BitVec 6) (a : BitVec 6)
  /-- R137: Correctly rounded log2 x. -/
  | flog2 (g : BitVec 4) (d : BitVec 6) (a : BitVec 6)
  /-- R137: Correctly rounded sin(pi x). -/
  | fsin (g : BitVec 4) (d : BitVec 6) (a : BitVec 6)
  /-- R137: Correctly rounded cos(pi x). -/
  | fcos (g : BitVec 4) (d : BitVec 6) (a : BitVec 6)
  /-- R137: Correctly rounded tanh x. -/
  | ftanh (g : BitVec 4) (d : BitVec 6) (a : BitVec 6)
  /-- R140: Reads each lane's value from a segment position named in vb. -/
  | vperm (g : BitVec 4) (d : BitVec 6) (a : BitVec 6) (b : BitVec 6)
  /-- R140: VPERM that records misses in q7. -/
  | vpermM (g : BitVec 4) (d : BitVec 6) (a : BitVec 6) (b : BitVec 6)
  /-- R141: Shuffles along x within segments. -/
  | vshufx (g : BitVec 4) (d : BitVec 6) (a : BitVec 6) (m : BitVec 2) (k : BitVec 4)
  /-- R141: Shuffles along y within segments. -/
  | vshufy (g : BitVec 4) (d : BitVec 6) (a : BitVec 6) (m : BitVec 2) (k : BitVec 4)
  /-- R142: Broadcasts one segment position. -/
  | vbcast (g : BitVec 4) (d : BitVec 6) (a : BitVec 6) (p : BitVec 6)
  /-- R143: Tree reduction over each segment. -/
  | vred (g : BitVec 4) (d : BitVec 6) (a : BitVec 6) (o : BitVec 4)
  /-- R143: Inclusive scan over each segment. -/
  | vscan (g : BitVec 4) (d : BitVec 6) (a : BitVec 6) (o : BitVec 4)
  /-- R144: Finds the leader position and count of each lane's pattern. -/
  | vmatch (g : BitVec 4) (d : BitVec 6) (a : BitVec 6)
  /-- R145: Moves a uniform lane value to a scalar, else UNIFORM. -/
  | vpick (g : BitVec 4) (d : BitVec 5) (a : BitVec 6)
  /-- R145: Writes the mask of active lanes where a predicate holds. -/
  | vvote (g : BitVec 4) (d : BitVec 5) (q : BitVec 3)
  /-- R199: Reach load from a cell up to two positions away. -/
  | ldw (g : BitVec 4) (d : BitVec 6) (a : BitVec 6) (x : BitVec 3) (y : BitVec 3) (w : BitVec 4)
  /-- R199: Reach store to a cell up to two positions away. -/
  | stw (g : BitVec 4) (s : BitVec 6) (a : BitVec 6) (x : BitVec 3) (y : BitVec 3) (w : BitVec 4)
  /-- R200: Own-cell element load, zero-extended. -/
  | ldeB (g : BitVec 4) (d : BitVec 6) (a : BitVec 6) (w : BitVec 4)
  /-- R200: Own-cell element load, sign-extended. -/
  | ldeI (g : BitVec 4) (d : BitVec 6) (a : BitVec 6) (w : BitVec 4)
  /-- R200: Own-cell element store. -/
  | ste (g : BitVec 4) (s : BitVec 6) (a : BitVec 6) (w : BitVec 4)
  /-- R201: Atomic add on the own cell. -/
  | vamoAdd (g : BitVec 4) (d : BitVec 6) (a : BitVec 6) (w : BitVec 4)
  /-- R201: Atomic signed minimum on the own cell. -/
  | vamoMinI (g : BitVec 4) (d : BitVec 6) (a : BitVec 6) (w : BitVec 4)
  /-- R201: Atomic signed maximum on the own cell. -/
  | vamoMaxI (g : BitVec 4) (d : BitVec 6) (a : BitVec 6) (w : BitVec 4)
  /-- R201: Atomic AND on the own cell. -/
  | vamoAnd (g : BitVec 4) (d : BitVec 6) (a : BitVec 6) (w : BitVec 4)
  /-- R201: Atomic OR on the own cell. -/
  | vamoOr (g : BitVec 4) (d : BitVec 6) (a : BitVec 6) (w : BitVec 4)
  /-- R201: Atomic XOR on the own cell. -/
  | vamoXor (g : BitVec 4) (d : BitVec 6) (a : BitVec 6) (w : BitVec 4)
  /-- R201: Atomic swap on the own cell. -/
  | vamoSwap (g : BitVec 4) (d : BitVec 6) (a : BitVec 6) (w : BitVec 4)
  /-- R201: Atomic compare-and-swap on the own cell. -/
  | vamoCas (g : BitVec 4) (d : BitVec 6) (a : BitVec 6) (w : BitVec 4)
  /-- R201: Atomic narrow-field add on the own cell. -/
  | vamoBfadd (g : BitVec 4) (d : BitVec 6) (a : BitVec 6) (w : BitVec 4)
  /-- R201: Atomic unsigned minimum on the own cell. -/
  | vamoMinB (g : BitVec 4) (d : BitVec 6) (a : BitVec 6) (w : BitVec 4)
  /-- R201: Atomic unsigned maximum on the own cell. -/
  | vamoMaxB (g : BitVec 4) (d : BitVec 6) (a : BitVec 6) (w : BitVec 4)
  /-- R299: Kicks per-lane 128-bit copies from memory into the lanes' cells. -/
  | lcopy (a : BitVec 5) (c : BitVec 5) (v : BitVec 6) (d : BitVec 6) (n : BitVec 1) (q : BitVec 3)
  /-- R203: Takes FREE allocation lines of a rectangle as OWN(self). -/
  | own (e : BitVec 3)
  /-- R203: Hands owned lines to a team mate or frees them, as a team release. -/
  | give (s : BitVec 5) (e : BitVec 3)
  /-- R203: Makes owned lines SHARED(own team). -/
  | share (e : BitVec 3)
  /-- R203: Takes SHARED lines back as OWN(self). -/
  | claim (e : BitVec 3)
  /-- R203: Passes owned lines to a quill identifier. -/
  | pass (s : BitVec 5) (e : BitVec 3)
  /-- R206: Reads one line's metadata without trapping. -/
  | probe (d : BitVec 5) (a : BitVec 5)
  /-- R242: Sets a rectangle register. -/
  | rset (s : BitVec 5) (e : BitVec 3)
  /-- R242: Reads a rectangle register. -/
  | rget (d : BitVec 5) (e : BitVec 3)
  /-- R242: Copies one rectangle register to another. -/
  | rmov (f : BitVec 3) (e : BitVec 3)
  /-- R242: Adjusts a rectangle field without wrapping. -/
  | radj (a : BitVec 5) (b : BitVec 5) (t : BitVec 3) (e : BitVec 3)
  /-- R243: Scrolls a rectangle by immediate displacements. -/
  | scroll (e : BitVec 3) (x : BitVec 9) (y : BitVec 9) (m : BitVec 3)
  /-- R243: Scrolls a rectangle by scalar displacements. -/
  | scrollReg (e : BitVec 3) (a : BitVec 5) (b : BitVec 5) (m : BitVec 3)
  /-- R256: Continues the stopped scroll described by SCS. -/
  | scrollResume
  /-- R257: Fills a rectangle's lines with FILLV. -/
  | pfill (e : BitVec 3)
  /-- R257: Fills a rectangle's lines with zero. -/
  | pfillZero (e : BitVec 3)
  /-- R257: Fills a rectangle's lines with a 64-bit scalar pattern. -/
  | pfillScalar (e : BitVec 3) (s : BitVec 5)
  /-- R213: Checks and queues a matrix loop on every active lane's nib. -/
  | mloop (z : BitVec 2) (a : BitVec 6) (d : BitVec 5) (b : BitVec 5) (f : BitVec 5) (s : BitVec 2) (k : BitVec 1)
  /-- R221: Closes the open batch of loops. -/
  | mcommit
  /-- R221: Closes the open batch and parks until at most n are outstanding. -/
  | mwait (n : BitVec 3)
  /-- R226: Clears a tile and its poison mark. -/
  | zclr (z : BitVec 2)
  /-- R226: Loads a tile from the own cell. -/
  | zld (s : BitVec 5) (z : BitVec 2)
  /-- R226: Stores a tile into the own cell. -/
  | zst (s : BitVec 5) (z : BitVec 2)
  /-- R226: Copies one tile to another. -/
  | zmov (m : BitVec 2) (n : BitVec 2)
  /-- R227: Rounds a tile into the own cell. -/
  | zcvt (s : BitVec 5) (i : BitVec 1) (r : BitVec 2) (f : BitVec 2) (z : BitVec 2)
  /-- R227: Rounds a tile into v registers. -/
  | zcvtReg (d : BitVec 6) (i : BitVec 1) (r : BitVec 2) (f : BitVec 2) (z : BitVec 2)
  /-- R264: Initialises or renews a barrier object. -/
  | binit (a : BitVec 5) (b : BitVec 5) (f : BitVec 1)
  /-- R265: Counts the issuer's arrival as a team release, returning the phase token. -/
  | barrive (a : BitVec 5) (b : BitVec 5) (g : BitVec 4) (f : BitVec 1)
  /-- R266: Parks until the token's phase completes. -/
  | bwait (a : BitVec 5) (b : BitVec 5)
  /-- R266: Reads a barrier's state without waiting. -/
  | btest (a : BitVec 5) (b : BitVec 5)
  /-- R267: Adds a bit count to the barrier's PEND. -/
  | bexpect (a : BitVec 5) (b : BitVec 5)
  /-- R271: Takes N from a semaphore or parks at its home. -/
  | semwait (c : BitVec 4) (b : BitVec 5) (n : BitVec 10) (s : BitVec 3)
  /-- R271: Releases and adds N to a semaphore. -/
  | sempost (c : BitVec 4) (b : BitVec 5) (n : BitVec 10) (s : BitVec 3)
  /-- R271: Parks until a watched atom differs from the expected value. -/
  | park (c : BitVec 4) (b : BitVec 5) (s : BitVec 3)
  /-- R297: Checks and starts up to 16 copy descriptors from a lane's cell. -/
  | qkick (l : BitVec 5) (p : BitVec 5) (n : BitVec 5)
  /-- R298: Parks until every kicked copy has completed. -/
  | qdrain
  /-- R298: Counts incomplete and translation-parked descriptors. -/
  | qstat (d : BitVec 5)
  /-- R298: Stops every incomplete copy with a given correlation. -/
  | qcancel (d : BitVec 5) (a : BitVec 5)
  /-- R301: Subscribes the patch's nibs to a stream. -/
  | ssubNib (b : BitVec 5) (s : BitVec 6)
  /-- R301: Subscribes a cell ring to a stream, passing its lines. -/
  | ssubCell (a : BitVec 5) (b : BitVec 5) (s : BitVec 6) (e : BitVec 3)
  /-- R301: Ends the scribe's subscriptions to a stream. -/
  | sunsub (s : BitVec 6)
  /-- R301: Publishes a stream from an OP 3 descriptor. -/
  | spub (a : BitVec 5) (s : BitVec 6)
  /-- R386: Checks and starts a cross-package collective. -/
  | coll (a : BitVec 5) (b : BitVec 5)
  /-- R355: Opens a step with deadline and work. -/
  | stepb (a : BitVec 5) (b : BitVec 5) (i : BitVec 12)
  /-- R355: Closes the open step and records its slack. -/
  | stepe (i : BitVec 12)
  /-- R381: Writes a MARK trace record when enabled. -/
  | mark (a : BitVec 5) (n : BitVec 12)
  /-- R299: A per-lane copy's 128 bits land and are counted on its barrier. -/
  | lcopyLanding (k : Nat)
  /-- R245: A scroll moves its rectangle's lines one position. -/
  | unitStep (sid : Nat)
  /-- R257: After its checks, a plane fill writes its lines and flips them back. -/
  | planeFillWrite (sid : Nat)
  /-- R216: A nib runs one step of a queued loop once its operands are present. -/
  | loopStep (n lane : Nat)
  /-- R220: A loop completes and its tile becomes readable; a batch completing sends flags to FPM. -/
  | loopCompletion (n : Nat)
  /-- R271: A write that changes a semaphore makes a parked SEMWAIT retry at the home. -/
  | semwaitRetry (sid : Nat)
  /-- R271: A write that changes a watched atom completes a parked PARK. -/
  | watchWake (sid : Nat)
  /-- R281: A quill serves one line request of a copy's walk, reading, converting and placing elements. -/
  | lineRequest (k : Nat)
  /-- R292: After a copy's writes are visible, its completion record is written to the ring. -/
  | completionRecord (k : Nat)
  /-- R302: The feed reads or re-feeds one chunk of a stream to its subscribers. -/
  | chunk (stream sub : Nat)
  /-- R303: Once a ring slot is passed back, a chunk lands there and counts on the barrier. -/
  | cellRingSlotLanding (stream sub : Nat)
  /-- R390: A collective contribution arrives and is matched, held or folded. -/
  | contribution (m : Contrib)
  /-- R390: A held contribution unmatched for 100 ms ends the collective with MISMATCH. -/
  | contributionTimeout (k : Nat)
  /-- R155: A wet tag's value arrives and every register carrying it resolves in one step. -/
  | resolution (sid tag : Nat)
  /-- R156: A wet access faults after issue and its record turns faulted. -/
  | wetAccessFault (sid tag cause : Nat)
  /-- R174: A pending DEADLINE_RISK, THROTTLE or ERROR_REPORT enters the handler at the next precise point. -/
  | deliverableEventEntry
  /-- R232: A scribe ready for 32 issue cycles without issuing becomes urgent. -/
  | urgent (sid : Nat)
  /-- R187: The die dispatcher places a team and prepares its lines once shares and Reservoir let it in. -/
  | teamPlacement (die : Nat)
  /-- R187: After 16 completions the candidate core stops admitting smaller register requests. -/
  | drainToFit (die : Nat)
  /-- R325: The global dispatcher sends a batch of teams to the die with most free slots. -/
  | batchDispatch
  /-- R321: A LAUNCH packet is checked, its capabilities derived, and its grid handed out. -/
  | launch (q : Nat)
  /-- R320: A COPY packet runs one quill descriptor. -/
  | copy (q : Nat)
  /-- R320: A WAIT packet holds back its queue until its condition holds. -/
  | wait (q : Nat)
  /-- R320: A SIGNAL packet writes a global word as a system release, optionally raising MSI-X. -/
  | signal (q : Nat)
  /-- R320: A MARKER packet writes one trace record. -/
  | marker (q : Nat)
  /-- R376: A TRACE packet opens a trace session. -/
  | traceOpen (q : Nat)
  /-- R380: A TRACE packet closes the session and flushes folios. -/
  | traceClose (q : Nat)
  /-- R380: A TRACE packet forces a drain and leaves the session open. -/
  | traceFlush (q : Nat)
  /-- R314: A LAUNCH's teams and copies finish and its completion entry is written. -/
  | launchCompletion (n : Nat)
  /-- R369: The host writes a queue's TAIL, releasing its packets to the dispatcher. -/
  | tail (q : Nat) (v : BitVec 32)
  /-- R370: CTRL restart resumes a stopped queue after the stopping packet. -/
  | ctrlRestart (q : Nat)
  /-- R370: CTRL reset kills the queue's teams, cancels copies and empties the queue. -/
  | ctrlReset (q : Nat)
  /-- R328: A TLB miss walks the tables and completes every merged access. -/
  | translationWalk (asid : Nat) (w : WalkReq)
  /-- R410: The host advances CCNT and every parked access below it is issued again. -/
  | ccntAdvance (asid : Nat) (v : BitVec 64)
  /-- R332: The partition controller invalidates an ASID over a virtual range. -/
  | asidInvalidate (asid lo hi : Nat)
  /-- R334: A team stops with PREEMPT, lets work reach boundaries, and is saved. -/
  | preemption (team : Nat)
  /-- R335: A saved team is restored to its cores and resumes stopped scrolls. -/
  | contextRestore (r : Restore)
  /-- R336: A period without progress stops and holds every team of the context. -/
  | watchdog (asid : Nat)
  /-- R349: A rollbackable team restores undo lines and its image and resumes after its checkpoint. -/
  | rollback (team : Nat)
  /-- R343: A layer reaching 85 °C doubles its refresh. -/
  | refreshDoubled (die : Nat) (r : LayerReading)
  /-- R343: A layer below 82 °C returns to normal refresh. -/
  | refreshNormal (die : Nat) (r : LayerReading)
  /-- R343: A layer at 95 °C trips and serves no access. -/
  | layerTripped (die : Nat) (r : LayerReading)
  /-- R343: A tripped layer below 90 °C serves its waiting accesses in arrival order. -/
  | layerServesAgain (die : Nat) (r : LayerReading)
  /-- R358: Every 10 µs Ductus sets island clocks, renews TALLOW and refills Reservoirs. -/
  | ductusDecision
  /-- R352: After a part-chosen delay up to 2 µs a raised island clock takes effect. -/
  | clockRaise (isl : Nat)
  /-- R353: An island idle for a whole control interval enters retention. -/
  | retentionEntry (isl : Nat)
  /-- R353: An island leaves retention after 1 µs and checks parity. -/
  | retentionWake (isl : Nat)
  /-- R371: Outlet at 60 °C or more sends a notice and caps every die at 600 W. -/
  | coolantHot
  /-- R371: Outlet below 55 °C lifts the 600 W cap. -/
  | coolantNormal
  /-- R372: At reset the boot ROM verifies the manifest and starts firmware or stays in recovery. -/
  | boot
  /-- R374: Answers an SPDM challenge with both signatures. -/
  | challengeAuth (transcript : Nat)
  /-- R374: Returns the signed SPDM measurements. -/
  | measurements (transcript : Nat)
  /-- R372: Mailbox command returning part status, accepted in recovery. -/
  | status
  /-- R372: Mailbox command writing the serial flash, accepted in recovery. -/
  | flashwrite (slot : Nat) (data : List (BitVec 8))
  /-- R369: Mailbox command creating a queue with its rings. -/
  | qcreate (q asid prio : Nat) (ring : BitVec 64) (n : Nat) (cring : BitVec 64) (m : Nat)
  /-- R371: Mailbox command naming the host notice ring. -/
  | notify (base : BitVec 64) (n : Nat)
  /-- R378: Mailbox command stopping a context or scribe with DEBUG_STOP. -/
  | halt (whole : Bool) (id : Nat)
  /-- R378: Mailbox command reading a held scribe's registers. -/
  | read (sid : Nat) (r : RegName)
  /-- R378: Mailbox command writing a held scribe's registers. -/
  | write (sid : Nat) (r : RegName) (v : BitVec 128)
  /-- R378: Mailbox command resuming a held scribe for one word. -/
  | step (sid : Nat)
  /-- R378: Mailbox command releasing a held scribe. -/
  | resume (sid : Nat)
  /-- R327: The host writes a context record to the partition controller. -/
  | contextRecordWrite (r : CtxRec)
  /-- R236: The host writes a per-core quota record, refused when out of range. -/
  | quotaWrite (core asid : Nat) (v : BitVec 64)
  /-- R384: The host binds the exported peer window to a context's range. -/
  | windowBind (asid lo hi : Nat)
  /-- R342, R371: The host reads an error-log ring and its loss count, the health record or the cold-plate sensors. -/
  | logRead (r : MailRead)
  /-- R351: The host reads the ageing estimates. -/
  | ageingRead (cluster : Nat)
  /-- R368, R369: A host request through BAR2 reaches a context's global memory; through BAR0, a queue's registers. `n` is the context, or the
  queue. -/
  | hostWindowAccess (n addr width : Nat) (a : HostAccess)
  /-- R379: A folio drains a batch of trace records and updates the ring count. -/
  | folioDrain (cluster : Nat)
  /-- R380: A cluster about to be gated drains its folio or loses the rest. -/
  | powerGate (cluster : Nat) (forced : Bool)
  /-- R382: A flit failing CRC is resent from the retry buffer. -/
  | flitRetry (e : FlitEvent)
  /-- R383: A port goes down, logs kind 10 and reroutes its flits. -/
  | portDown (port : Nat)
  /-- R385: A request unanswered for 100 µs, or no port up, makes a package unreachable. -/
  | peerUnreachable (pkg : Nat) (sid : Option Nat)
  /-- R384: A peer-space access is translated and served at its home package. -/
  | peerRequest (src : Nat) (r : PeerReq)
  /-- R361: At every island cycle each permit counter gains its refill rate and every open step's DONE advances for resident, unparked scribes. -/
  | islandCycle (isl : Nat)
  /-- R408: A scribe comes to issue a word whose major and selector match no row, which raises ILLEGAL under R85. -/
  | illegalWord (w : BitVec 32)
  /-- R85: A scribe fetches a clause header and checks it, raising ILLEGAL, CAP_BOUNDS or TRANSLATION before any word of the clause issues. -/
  | clauseHeaderFetch (w : BitVec 32)
  /-- R340: A stored array word, cell line, register word or vertical-bus lane group goes bad of itself. -/
  | storageError (e : StorageErr)
  /-- R239: The runtime adds a hole to the part, which takes effect for launches placed afterwards. -/
  | holeAdded (x y : Nat)
  /-- R385: A Floesh port towards a package comes up again, so the package is reachable once more. -/
  | portUp (port pkg : Nat)
  deriving DecidableEq, Repr

end Sys2Proof
end

