-- ==== Sys2Proof/WellFormed.lean ====
section
/-! DEFINITION. Which instructions have a word: the field values that the rules of the encoding
(check 4 of Table 04-9, and the sub-selectors of check 3) accept. `fieldReject` answers the
number of the check that refuses an instruction's fields, or none. -/

namespace Sys2Proof

/-- The number of the failing check when the condition holds. -/
def reject (detail : Nat) (c : Prop) [Decidable c] : Option Nat := if c then some detail else none

/-- R76, R77: a width code up to `top`, an order of 0 or the form's own (`ord`), and no scope
under plain order. -/
def memReject (w top order scope ord : Nat) : Option Nat :=
  reject 4 (top < w ∨ (order ≠ 0 ∧ order ≠ ord) ∨ (order = 0 ∧ scope ≠ 0))

/-- R78: reach offsets of -2 to 2. -/
def reachReject (x y : Nat) : Option Nat :=
  reject 4 (x = 3 ∨ x = 4 ∨ x = 5 ∨ y = 3 ∨ y = 4 ∨ y = 5)

/-- The check of Table 04-9 that refuses the fields of an instruction word, if one does. -/
def fieldReject : Instr → Option Nat
  | .add _ _ _ => none
  | .sub _ _ _ => none
  | .and _ _ _ => none
  | .or _ _ _ => none
  | .xor _ _ _ => none
  | .andn _ _ _ => none
  | .shl _ _ _ => none
  | .shr _ _ _ => none
  | .sar _ _ _ => none
  | .minI _ _ _ => none
  | .maxI _ _ _ => none
  | .minB _ _ _ => none
  | .maxB _ _ _ => none
  | .slt _ _ _ => none
  | .sltb _ _ _ => none
  | .seq _ _ _ => none
  | .sne _ _ _ => none
  | .sel _ _ _ => none
  | .clz _ _ => none
  | .ctz _ _ => none
  | .popc _ _ => none
  | .addi _ _ _ => none
  | .slti _ _ _ => none
  | .li _ _ => none
  | .lih _ _ _ => none
  | .andi _ _ _ => none
  | .ori _ _ _ => none
  | .xori _ _ _ => none
  | .shli _ _ _ => none
  | .shri _ _ _ => none
  | .sari _ _ _ => none
  | .bfx _ _ _ _ => none
  | .bfxI _ _ _ _ => none
  | .bfi _ _ _ _ => none
  | .sext _ _ _ => none
  | .zext _ _ _ => none
  | .mul _ _ _ => none
  | .mulhI _ _ _ => none
  | .mulhB _ _ _ => none
  | .divI _ _ _ => none
  | .divB _ _ _ => none
  | .remI _ _ _ => none
  | .remB _ _ _ => none
  | .mov _ _ => none
  | .beq _ _ _ => none
  | .bne _ _ _ => none
  | .blt _ _ _ => none
  | .bge _ _ _ => none
  | .bltb _ _ _ => none
  | .bgeb _ _ _ => none
  | .bz _ _ => none
  | .bnz _ _ => none
  | .jmp _ => none
  | .bru _ _ => none
  | .bany _ _ => none
  | .ball _ _ => none
  | .bnone _ _ => none
  | .call _ => none
  | .callr _ => none
  | .jr _ => none
  | .ret => none
  | .ldB _ _ _ w o s => memReject w.toNat 8 o.toNat s.toNat 1
  | .ldI _ _ _ w o s => memReject w.toNat 8 o.toNat s.toNat 1
  | .ldc _ _ _ o s => memReject 8 8 o.toNat s.toNat 1
  | .st _ _ _ w o s => memReject w.toNat 8 o.toNat s.toNat 2
  | .stc _ _ _ o s => memReject 8 8 o.toNat s.toNat 2
  | .amoAdd _ _ _ w _ _ => reject 4 (w.toNat ≠ 7 ∧ w.toNat ≠ 8)
  | .amoMin _ _ _ w _ _ => reject 4 (w.toNat ≠ 7 ∧ w.toNat ≠ 8)
  | .amoMax _ _ _ w _ _ => reject 4 (w.toNat ≠ 7 ∧ w.toNat ≠ 8)
  | .amoAnd _ _ _ w _ _ => reject 4 (w.toNat ≠ 7 ∧ w.toNat ≠ 8)
  | .amoOr _ _ _ w _ _ => reject 4 (w.toNat ≠ 7 ∧ w.toNat ≠ 8)
  | .amoXor _ _ _ w _ _ => reject 4 (w.toNat ≠ 7 ∧ w.toNat ≠ 8)
  | .amoSwap _ _ _ w _ _ => reject 4 (w.toNat ≠ 7 ∧ w.toNat ≠ 8)
  | .amoCas _ _ _ w _ _ => reject 4 (w.toNat ≠ 7 ∧ w.toNat ≠ 8)
  | .amoBfadd _ _ _ w _ _ => reject 4 (6 < w.toNat)
  | .amoBfset _ _ _ w _ _ => reject 4 (6 < w.toNat)
  | .cgetb _ _ => none
  | .cgetl _ _ => none
  | .cgetp _ _ => none
  | .cgets _ _ => none
  | .cgett _ _ => none
  | .csetb _ _ _ => none
  | .candp _ _ _ => none
  | .cmov _ _ => none
  | .ccur _ _ _ => none
  | .padd _ _ _ w => reject 4 (8 < w.toNat)
  | .psub _ _ _ w => reject 4 (8 < w.toNat)
  | .pdiff _ _ _ w => reject 4 (8 < w.toNat)
  | .palign _ _ _ w => reject 4 (8 < w.toNat ∨ w.toNat = 2 ∨ w.toNat = 4)
  | .pbyte _ _ => none
  | .pbit _ _ _ => none
  | .pinb _ _ _ w => reject 4 (8 < w.toNat)
  | .getc _ _ => none
  | .setc r _ => reject 4 (r.toNat = 3) -- Table 05-12: number 3 is RNGS, which setcRngs writes
  | .setcRngs _ => none
  | .trap _ => none
  | .tret => none
  | .tretReplay => none
  | .fence _ o => reject 4 (o.toNat = 0)
  | .yield => none
  | .exit => none
  | .brk _ => none
  | .beat => none
  | .nop => none
  | .ldk _ _ _ => none
  | .xim _ => none
  | .dry r k => reject 4 (k.toNat = 1 ∧ 32 ≤ r.toNat)
  | .wetq _ r k => reject 4 (k.toNat = 1 ∧ 32 ≤ r.toNat)
  | .dryAll => none
  | .vadd _ _ _ _ => none
  | .vsub _ _ _ _ => none
  | .vand _ _ _ _ => none
  | .vor _ _ _ _ => none
  | .vxor _ _ _ _ => none
  | .vandn _ _ _ _ => none
  | .vnot _ _ _ => none
  | .vabs _ _ _ => none
  | .vneg _ _ _ => none
  | .vminI _ _ _ _ => none
  | .vminB _ _ _ _ => none
  | .vmaxI _ _ _ _ => none
  | .vmaxB _ _ _ _ => none
  | .vaddsatI _ _ _ _ => none
  | .vaddsatB _ _ _ _ => none
  | .vsubsatI _ _ _ _ => none
  | .vsubsatB _ _ _ _ => none
  | .vaddi _ _ _ _ => none
  | .vandi _ _ _ _ => none
  | .vori _ _ _ _ => none
  | .vshli _ _ _ _ => none
  | .vmul _ _ _ _ => none
  | .vmulhI _ _ _ _ => none
  | .vmulhB _ _ _ _ => none
  | .vmad _ _ _ _ => none
  | .vshl _ _ _ _ => none
  | .vshr _ _ _ _ => none
  | .vsar _ _ _ _ => none
  | .vclz _ _ _ => none
  | .vpopc _ _ _ => none
  | .vbfx _ _ _ _ => none
  | .vbfxI _ _ _ _ => none
  | .vbfi _ _ _ _ => none
  | .fadd _ _ _ _ => none
  | .fsub _ _ _ _ => none
  | .fmul _ _ _ _ => none
  | .fmin _ _ _ _ => none
  | .fmax _ _ _ _ => none
  | .fabs _ _ _ => none
  | .fneg _ _ _ => none
  | .frnd _ _ _ m => reject 4 (m.toNat = 6)
  | .fclass _ _ _ => none
  | .faddPacked _ _ _ _ _ => none
  | .fsubPacked _ _ _ _ _ => none
  | .fmulPacked _ _ _ _ _ => none
  | .fminPacked _ _ _ _ _ => none
  | .fmaxPacked _ _ _ _ _ => none
  | .fabsPacked _ _ _ _ => none
  | .fnegPacked _ _ _ _ => none
  | .fclassPacked _ _ _ _ => none
  | .frndPacked _ _ _ m _ => reject 4 (m.toNat = 6)
  | .fdot2 _ _ _ _ _ => none
  | .fma _ _ _ _ f => reject 3 (f.toNat = 3)
  | .fms _ _ _ _ f => reject 3 (f.toNat = 3)
  | .fnma _ _ _ _ f => reject 3 (f.toNat = 3)
  | .vcmp _ _ _ _ c => reject 3 (9 < c.toNat)
  | .vcmpF _ _ _ _ c => reject 3 (5 < c.toNat)
  | .fcmpu _ _ _ _ => none
  | .vsel _ _ _ _ => none
  | .vmov _ _ _ => none
  | .vmovi _ _ _ => none
  | .vfromg _ _ _ => none
  | .vlane _ _ s => reject 4 (6 < s.toNat)
  | .pand _ _ _ _ => none
  | .por _ _ _ _ => none
  | .pxor _ _ _ _ => none
  | .pnot _ _ _ => none
  | .pmov _ _ _ => none
  | .cvtF32ToX _ _ _ x _ => reject 4 (10 < x.toNat)
  | .cvtI32ToX _ _ _ x _ => reject 4 (10 < x.toNat)
  | .cvtXToF32 _ _ _ x _ => reject 4 (10 < x.toNat)
  | .cvtXToI32 _ _ _ x _ => reject 4 (10 < x.toNat)
  | .vunpack _ _ _ _ _ => none
  | .vquant _ _ _ _ t _ f => reject 4 (f.toNat = 3 ∧ t.toNat ≠ 0)
  | .vdequant _ _ _ _ => none
  | .vpackF16 _ _ _ _ => none
  | .vpackBf16 _ _ _ _ => none
  | .frcp _ _ _ => none
  | .frsqrt _ _ _ => none
  | .fsqrt _ _ _ => none
  | .fexp2 _ _ _ => none
  | .flog2 _ _ _ => none
  | .fsin _ _ _ => none
  | .fcos _ _ _ => none
  | .ftanh _ _ _ => none
  | .vperm _ _ _ _ => none
  | .vpermM _ _ _ _ => none
  | .vshufx _ _ _ m k => reject 4 (m.toNat = 3 ∨ (m.toNat = 2 ∧ 8 ≤ k.toNat))
  | .vshufy _ _ _ m k => reject 4 (m.toNat = 3 ∨ (m.toNat = 2 ∧ 8 ≤ k.toNat))
  | .vbcast _ _ _ _ => none
  | .vred _ _ _ o => reject 4 (10 < o.toNat)
  | .vscan _ _ _ o => reject 4 (10 < o.toNat)
  | .vmatch _ _ _ => none
  | .vpick _ _ _ => none
  | .vvote _ _ _ => none
  | .ldw _ _ _ x y w => (reject 4 (w.toNat ≠ 7 ∧ w.toNat ≠ 8)).orElse fun _ => reachReject x.toNat y.toNat
  | .stw _ _ _ x y w => (reject 4 (w.toNat ≠ 7 ∧ w.toNat ≠ 8)).orElse fun _ => reachReject x.toNat y.toNat
  | .ldeB _ _ _ w => reject 4 (8 < w.toNat)
  | .ldeI _ _ _ w => reject 4 (8 < w.toNat)
  | .ste _ _ _ w => reject 4 (8 < w.toNat)
  | .vamoAdd _ _ _ w => reject 4 (w.toNat ≠ 7 ∧ w.toNat ≠ 8)
  | .vamoMinI _ _ _ w => reject 4 (w.toNat ≠ 7 ∧ w.toNat ≠ 8)
  | .vamoMaxI _ _ _ w => reject 4 (w.toNat ≠ 7 ∧ w.toNat ≠ 8)
  | .vamoAnd _ _ _ w => reject 4 (w.toNat ≠ 7 ∧ w.toNat ≠ 8)
  | .vamoOr _ _ _ w => reject 4 (w.toNat ≠ 7 ∧ w.toNat ≠ 8)
  | .vamoXor _ _ _ w => reject 4 (w.toNat ≠ 7 ∧ w.toNat ≠ 8)
  | .vamoSwap _ _ _ w => reject 4 (w.toNat ≠ 7 ∧ w.toNat ≠ 8)
  | .vamoCas _ _ _ w => reject 4 (w.toNat ≠ 7 ∧ w.toNat ≠ 8)
  | .vamoBfadd _ _ _ w => reject 4 (6 < w.toNat)
  | .vamoMinB _ _ _ w => reject 4 (w.toNat ≠ 7 ∧ w.toNat ≠ 8)
  | .vamoMaxB _ _ _ w => reject 4 (w.toNat ≠ 7 ∧ w.toNat ≠ 8)
  | .lcopy _ c _ _ _ _ => reject 4 (16 ≤ c.toNat)
  | .own _ => none
  | .give _ _ => none
  | .share _ => none
  | .claim _ => none
  | .pass _ _ => none
  | .probe _ _ => none
  | .rset _ _ => none
  | .rget _ _ => none
  | .rmov _ _ => none
  | .radj _ b t _ => reject 4 (t.toNat = 7 ∨ (t.toNat ≠ 2 ∧ b.toNat ≠ 0))
  | .scroll _ x y m => reject 4 (x.toNat = 256 ∨ y.toNat = 256 ∨ 3 < m.toNat)
  | .scrollReg _ _ _ m => reject 4 (3 < m.toNat)
  | .scrollResume => none
  | .pfill _ => none
  | .pfillZero _ => none
  | .pfillScalar _ _ => none
  | .mloop _ a d _ f _ _ => reject 4 (f.toNat % 2 = 1 ∨ (a.toNat ≠ 63 ∧ d.toNat ≠ 0))
  | .mcommit => none
  | .mwait _ => none
  | .zclr _ => none
  | .zld _ _ => none
  | .zst _ _ => none
  | .zmov _ _ => none
  | .zcvt _ _ _ f _ => reject 4 (f.toNat = 3)
  | .zcvtReg _ _ _ f _ => reject 4 (f.toNat = 3)
  | .binit _ _ _ => none
  | .barrive _ _ _ _ => none
  | .bwait _ _ => none
  | .btest _ _ => none
  | .bexpect _ _ => none
  | .semwait _ _ _ _ => none
  | .sempost _ _ _ _ => none
  | .park _ _ _ => none
  | .qkick _ _ _ => none
  | .qdrain => none
  | .qstat _ => none
  | .qcancel _ _ => none
  | .ssubNib _ _ => none
  | .ssubCell _ _ _ _ => none
  | .sunsub _ => none
  | .spub _ _ => none
  | .coll _ _ => none
  | .stepb _ _ _ => none
  | .stepe _ => none
  | .mark _ _ => none
  | .lcopyLanding _ => none
  | .unitStep _ => none
  | .planeFillWrite _ => none
  | .loopStep _ _ => none
  | .loopCompletion _ => none
  | .semwaitRetry _ => none
  | .watchWake _ => none
  | .lineRequest _ => none
  | .completionRecord _ => none
  | .chunk _ _ => none
  | .cellRingSlotLanding _ _ => none
  | .contribution _ => none
  | .contributionTimeout _ => none
  | .resolution _ _ => none
  | .wetAccessFault _ _ _ => none
  | .deliverableEventEntry => none
  | .urgent _ => none
  | .teamPlacement _ => none
  | .drainToFit _ => none
  | .batchDispatch => none
  | .launch _ => none
  | .copy _ => none
  | .wait _ => none
  | .signal _ => none
  | .marker _ => none
  | .traceOpen _ => none
  | .traceClose _ => none
  | .traceFlush _ => none
  | .launchCompletion _ => none
  | .tail _ _ => none
  | .ctrlRestart _ => none
  | .ctrlReset _ => none
  | .translationWalk _ _ => none
  | .ccntAdvance _ _ => none
  | .asidInvalidate _ _ _ => none
  | .preemption _ => none
  | .contextRestore _ => none
  | .watchdog _ => none
  | .rollback _ => none
  | .refreshDoubled _ _ => none
  | .refreshNormal _ _ => none
  | .layerTripped _ _ => none
  | .layerServesAgain _ _ => none
  | .ductusDecision => none
  | .clockRaise _ => none
  | .retentionEntry _ => none
  | .retentionWake _ => none
  | .coolantHot => none
  | .coolantNormal => none
  | .boot => none
  | .challengeAuth _ => none
  | .measurements _ => none
  | .status => none
  | .flashwrite _ _ => none
  | .qcreate _ _ _ _ _ _ _ => none
  | .notify _ _ => none
  | .halt _ _ => none
  | .read _ _ => none
  | .write _ _ _ => none
  | .step _ => none
  | .resume _ => none
  | .contextRecordWrite _ => none
  | .quotaWrite _ _ _ => none
  | .windowBind _ _ _ => none
  | .logRead _ => none
  | .ageingRead _ => none
  | .hostWindowAccess _ _ _ _ => none
  | .folioDrain _ => none
  | .powerGate _ _ => none
  | .flitRetry _ => none
  | .portDown _ => none
  | .peerUnreachable _ _ => none
  | .peerRequest _ _ => none
  | .islandCycle _ => none
  | .illegalWord _ => none
  | .clauseHeaderFetch _ => none
  | .storageError _ => none
  | .holeAdded _ _ => none
  | .portUp _ _ => none

/-- Whether a constructor stands for a word of code (the other constructors are steps that have
no encoding). -/
def isWord : Instr → Bool
  | .add _ _ _ => true
  | .sub _ _ _ => true
  | .and _ _ _ => true
  | .or _ _ _ => true
  | .xor _ _ _ => true
  | .andn _ _ _ => true
  | .shl _ _ _ => true
  | .shr _ _ _ => true
  | .sar _ _ _ => true
  | .minI _ _ _ => true
  | .maxI _ _ _ => true
  | .minB _ _ _ => true
  | .maxB _ _ _ => true
  | .slt _ _ _ => true
  | .sltb _ _ _ => true
  | .seq _ _ _ => true
  | .sne _ _ _ => true
  | .sel _ _ _ => true
  | .clz _ _ => true
  | .ctz _ _ => true
  | .popc _ _ => true
  | .addi _ _ _ => true
  | .slti _ _ _ => true
  | .li _ _ => true
  | .lih _ _ _ => true
  | .andi _ _ _ => true
  | .ori _ _ _ => true
  | .xori _ _ _ => true
  | .shli _ _ _ => true
  | .shri _ _ _ => true
  | .sari _ _ _ => true
  | .bfx _ _ _ _ => true
  | .bfxI _ _ _ _ => true
  | .bfi _ _ _ _ => true
  | .sext _ _ _ => true
  | .zext _ _ _ => true
  | .mul _ _ _ => true
  | .mulhI _ _ _ => true
  | .mulhB _ _ _ => true
  | .divI _ _ _ => true
  | .divB _ _ _ => true
  | .remI _ _ _ => true
  | .remB _ _ _ => true
  | .mov _ _ => true
  | .beq _ _ _ => true
  | .bne _ _ _ => true
  | .blt _ _ _ => true
  | .bge _ _ _ => true
  | .bltb _ _ _ => true
  | .bgeb _ _ _ => true
  | .bz _ _ => true
  | .bnz _ _ => true
  | .jmp _ => true
  | .bru _ _ => true
  | .bany _ _ => true
  | .ball _ _ => true
  | .bnone _ _ => true
  | .call _ => true
  | .callr _ => true
  | .jr _ => true
  | .ret => true
  | .ldB _ _ _ _ _ _ => true
  | .ldI _ _ _ _ _ _ => true
  | .ldc _ _ _ _ _ => true
  | .st _ _ _ _ _ _ => true
  | .stc _ _ _ _ _ => true
  | .amoAdd _ _ _ _ _ _ => true
  | .amoMin _ _ _ _ _ _ => true
  | .amoMax _ _ _ _ _ _ => true
  | .amoAnd _ _ _ _ _ _ => true
  | .amoOr _ _ _ _ _ _ => true
  | .amoXor _ _ _ _ _ _ => true
  | .amoSwap _ _ _ _ _ _ => true
  | .amoCas _ _ _ _ _ _ => true
  | .amoBfadd _ _ _ _ _ _ => true
  | .amoBfset _ _ _ _ _ _ => true
  | .cgetb _ _ => true
  | .cgetl _ _ => true
  | .cgetp _ _ => true
  | .cgets _ _ => true
  | .cgett _ _ => true
  | .csetb _ _ _ => true
  | .candp _ _ _ => true
  | .cmov _ _ => true
  | .ccur _ _ _ => true
  | .padd _ _ _ _ => true
  | .psub _ _ _ _ => true
  | .pdiff _ _ _ _ => true
  | .palign _ _ _ _ => true
  | .pbyte _ _ => true
  | .pbit _ _ _ => true
  | .pinb _ _ _ _ => true
  | .getc _ _ => true
  | .setc _ _ => true
  | .setcRngs _ => true
  | .trap _ => true
  | .tret => true
  | .tretReplay => true
  | .fence _ _ => true
  | .yield => true
  | .exit => true
  | .brk _ => true
  | .beat => true
  | .nop => true
  | .ldk _ _ _ => true
  | .xim _ => true
  | .dry _ _ => true
  | .wetq _ _ _ => true
  | .dryAll => true
  | .vadd _ _ _ _ => true
  | .vsub _ _ _ _ => true
  | .vand _ _ _ _ => true
  | .vor _ _ _ _ => true
  | .vxor _ _ _ _ => true
  | .vandn _ _ _ _ => true
  | .vnot _ _ _ => true
  | .vabs _ _ _ => true
  | .vneg _ _ _ => true
  | .vminI _ _ _ _ => true
  | .vminB _ _ _ _ => true
  | .vmaxI _ _ _ _ => true
  | .vmaxB _ _ _ _ => true
  | .vaddsatI _ _ _ _ => true
  | .vaddsatB _ _ _ _ => true
  | .vsubsatI _ _ _ _ => true
  | .vsubsatB _ _ _ _ => true
  | .vaddi _ _ _ _ => true
  | .vandi _ _ _ _ => true
  | .vori _ _ _ _ => true
  | .vshli _ _ _ _ => true
  | .vmul _ _ _ _ => true
  | .vmulhI _ _ _ _ => true
  | .vmulhB _ _ _ _ => true
  | .vmad _ _ _ _ => true
  | .vshl _ _ _ _ => true
  | .vshr _ _ _ _ => true
  | .vsar _ _ _ _ => true
  | .vclz _ _ _ => true
  | .vpopc _ _ _ => true
  | .vbfx _ _ _ _ => true
  | .vbfxI _ _ _ _ => true
  | .vbfi _ _ _ _ => true
  | .fadd _ _ _ _ => true
  | .fsub _ _ _ _ => true
  | .fmul _ _ _ _ => true
  | .fmin _ _ _ _ => true
  | .fmax _ _ _ _ => true
  | .fabs _ _ _ => true
  | .fneg _ _ _ => true
  | .frnd _ _ _ _ => true
  | .fclass _ _ _ => true
  | .faddPacked _ _ _ _ _ => true
  | .fsubPacked _ _ _ _ _ => true
  | .fmulPacked _ _ _ _ _ => true
  | .fminPacked _ _ _ _ _ => true
  | .fmaxPacked _ _ _ _ _ => true
  | .fabsPacked _ _ _ _ => true
  | .fnegPacked _ _ _ _ => true
  | .fclassPacked _ _ _ _ => true
  | .frndPacked _ _ _ _ _ => true
  | .fdot2 _ _ _ _ _ => true
  | .fma _ _ _ _ _ => true
  | .fms _ _ _ _ _ => true
  | .fnma _ _ _ _ _ => true
  | .vcmp _ _ _ _ _ => true
  | .vcmpF _ _ _ _ _ => true
  | .fcmpu _ _ _ _ => true
  | .vsel _ _ _ _ => true
  | .vmov _ _ _ => true
  | .vmovi _ _ _ => true
  | .vfromg _ _ _ => true
  | .vlane _ _ _ => true
  | .pand _ _ _ _ => true
  | .por _ _ _ _ => true
  | .pxor _ _ _ _ => true
  | .pnot _ _ _ => true
  | .pmov _ _ _ => true
  | .cvtF32ToX _ _ _ _ _ => true
  | .cvtI32ToX _ _ _ _ _ => true
  | .cvtXToF32 _ _ _ _ _ => true
  | .cvtXToI32 _ _ _ _ _ => true
  | .vunpack _ _ _ _ _ => true
  | .vquant _ _ _ _ _ _ _ => true
  | .vdequant _ _ _ _ => true
  | .vpackF16 _ _ _ _ => true
  | .vpackBf16 _ _ _ _ => true
  | .frcp _ _ _ => true
  | .frsqrt _ _ _ => true
  | .fsqrt _ _ _ => true
  | .fexp2 _ _ _ => true
  | .flog2 _ _ _ => true
  | .fsin _ _ _ => true
  | .fcos _ _ _ => true
  | .ftanh _ _ _ => true
  | .vperm _ _ _ _ => true
  | .vpermM _ _ _ _ => true
  | .vshufx _ _ _ _ _ => true
  | .vshufy _ _ _ _ _ => true
  | .vbcast _ _ _ _ => true
  | .vred _ _ _ _ => true
  | .vscan _ _ _ _ => true
  | .vmatch _ _ _ => true
  | .vpick _ _ _ => true
  | .vvote _ _ _ => true
  | .ldw _ _ _ _ _ _ => true
  | .stw _ _ _ _ _ _ => true
  | .ldeB _ _ _ _ => true
  | .ldeI _ _ _ _ => true
  | .ste _ _ _ _ => true
  | .vamoAdd _ _ _ _ => true
  | .vamoMinI _ _ _ _ => true
  | .vamoMaxI _ _ _ _ => true
  | .vamoAnd _ _ _ _ => true
  | .vamoOr _ _ _ _ => true
  | .vamoXor _ _ _ _ => true
  | .vamoSwap _ _ _ _ => true
  | .vamoCas _ _ _ _ => true
  | .vamoBfadd _ _ _ _ => true
  | .vamoMinB _ _ _ _ => true
  | .vamoMaxB _ _ _ _ => true
  | .lcopy _ _ _ _ _ _ => true
  | .own _ => true
  | .give _ _ => true
  | .share _ => true
  | .claim _ => true
  | .pass _ _ => true
  | .probe _ _ => true
  | .rset _ _ => true
  | .rget _ _ => true
  | .rmov _ _ => true
  | .radj _ _ _ _ => true
  | .scroll _ _ _ _ => true
  | .scrollReg _ _ _ _ => true
  | .scrollResume => true
  | .pfill _ => true
  | .pfillZero _ => true
  | .pfillScalar _ _ => true
  | .mloop _ _ _ _ _ _ _ => true
  | .mcommit => true
  | .mwait _ => true
  | .zclr _ => true
  | .zld _ _ => true
  | .zst _ _ => true
  | .zmov _ _ => true
  | .zcvt _ _ _ _ _ => true
  | .zcvtReg _ _ _ _ _ => true
  | .binit _ _ _ => true
  | .barrive _ _ _ _ => true
  | .bwait _ _ => true
  | .btest _ _ => true
  | .bexpect _ _ => true
  | .semwait _ _ _ _ => true
  | .sempost _ _ _ _ => true
  | .park _ _ _ => true
  | .qkick _ _ _ => true
  | .qdrain => true
  | .qstat _ => true
  | .qcancel _ _ => true
  | .ssubNib _ _ => true
  | .ssubCell _ _ _ _ => true
  | .sunsub _ => true
  | .spub _ _ => true
  | .coll _ _ => true
  | .stepb _ _ _ => true
  | .stepe _ => true
  | .mark _ _ => true
  | .lcopyLanding _ => false
  | .unitStep _ => false
  | .planeFillWrite _ => false
  | .loopStep _ _ => false
  | .loopCompletion _ => false
  | .semwaitRetry _ => false
  | .watchWake _ => false
  | .lineRequest _ => false
  | .completionRecord _ => false
  | .chunk _ _ => false
  | .cellRingSlotLanding _ _ => false
  | .contribution _ => false
  | .contributionTimeout _ => false
  | .resolution _ _ => false
  | .wetAccessFault _ _ _ => false
  | .deliverableEventEntry => false
  | .urgent _ => false
  | .teamPlacement _ => false
  | .drainToFit _ => false
  | .batchDispatch => false
  | .launch _ => false
  | .copy _ => false
  | .wait _ => false
  | .signal _ => false
  | .marker _ => false
  | .traceOpen _ => false
  | .traceClose _ => false
  | .traceFlush _ => false
  | .launchCompletion _ => false
  | .tail _ _ => false
  | .ctrlRestart _ => false
  | .ctrlReset _ => false
  | .translationWalk _ _ => false
  | .ccntAdvance _ _ => false
  | .asidInvalidate _ _ _ => false
  | .preemption _ => false
  | .contextRestore _ => false
  | .watchdog _ => false
  | .rollback _ => false
  | .refreshDoubled _ _ => false
  | .refreshNormal _ _ => false
  | .layerTripped _ _ => false
  | .layerServesAgain _ _ => false
  | .ductusDecision => false
  | .clockRaise _ => false
  | .retentionEntry _ => false
  | .retentionWake _ => false
  | .coolantHot => false
  | .coolantNormal => false
  | .boot => false
  | .challengeAuth _ => false
  | .measurements _ => false
  | .status => false
  | .flashwrite _ _ => false
  | .qcreate _ _ _ _ _ _ _ => false
  | .notify _ _ => false
  | .halt _ _ => false
  | .read _ _ => false
  | .write _ _ _ => false
  | .step _ => false
  | .resume _ => false
  | .contextRecordWrite _ => false
  | .quotaWrite _ _ _ => false
  | .windowBind _ _ _ => false
  | .logRead _ => false
  | .ageingRead _ => false
  | .hostWindowAccess _ _ _ _ => false
  | .folioDrain _ => false
  | .powerGate _ _ => false
  | .flitRetry _ => false
  | .portDown _ => false
  | .peerUnreachable _ _ => false
  | .peerRequest _ _ => false
  | .islandCycle _ => false
  | .illegalWord _ => false
  | .clauseHeaderFetch _ => false
  | .storageError _ => false
  | .holeAdded _ _ => false
  | .portUp _ _ => false

/-- An instruction whose fields the encoding accepts. -/
def wf (i : Instr) : Bool := (fieldReject i).isNone

end Sys2Proof
end

