-- ==== Sys2Proof/Decode.lean ====
section
/-! DEFINITION. From a 32-bit code word to the instruction it is, or the check of Table 04-9 that
refuses it; the encoder, from the same tables; and the clause header (R67). -/

namespace Sys2Proof

/-- Why a word at an instruction position is no instruction: the checks 2, 3 and 4 of Table 04-9. -/
inductive Reject where
  /-- check 2: the major is reserved (R66, R84) -/
  | reservedMajor
  /-- check 3: the form selector is not assigned (R73) -/
  | unassignedForm
  /-- check 4: a reserved field, width, order, reach, displacement, mode or pair is not accepted -/
  | badField
  deriving DecidableEq, Repr

/-- The number of the check, which ILLEGAL carries as its DETAIL (R164). -/
def Reject.detail : Reject → Nat
  | .reservedMajor => 2
  | .unassignedForm => 3
  | .badField => 4

/-- The `w` bits of `n` from bit `lo` up. -/
def bits (n lo w : Nat) : Nat := n / 2 ^ lo % 2 ^ w

/-- The field of width `w` at bit `lo`. -/
def fld (n lo w : Nat) : BitVec w := BitVec.ofNat w (n / 2 ^ lo)

/-- The bits of an instruction word, from the layouts of Table 04-3 and the selector values of the
owning chapters; 0 for a step that has no encoding. -/
def encodeNat : Instr → Nat
  | .add d a b => 0x04000000 + d.toNat * 0x200000 + a.toNat * 0x10000 + b.toNat * 0x800
  | .sub d a b => 0x04000001 + d.toNat * 0x200000 + a.toNat * 0x10000 + b.toNat * 0x800
  | .and d a b => 0x04000002 + d.toNat * 0x200000 + a.toNat * 0x10000 + b.toNat * 0x800
  | .or d a b => 0x04000003 + d.toNat * 0x200000 + a.toNat * 0x10000 + b.toNat * 0x800
  | .xor d a b => 0x04000004 + d.toNat * 0x200000 + a.toNat * 0x10000 + b.toNat * 0x800
  | .andn d a b => 0x04000005 + d.toNat * 0x200000 + a.toNat * 0x10000 + b.toNat * 0x800
  | .shl d a b => 0x04000006 + d.toNat * 0x200000 + a.toNat * 0x10000 + b.toNat * 0x800
  | .shr d a b => 0x04000007 + d.toNat * 0x200000 + a.toNat * 0x10000 + b.toNat * 0x800
  | .sar d a b => 0x04000008 + d.toNat * 0x200000 + a.toNat * 0x10000 + b.toNat * 0x800
  | .minI d a b => 0x04000009 + d.toNat * 0x200000 + a.toNat * 0x10000 + b.toNat * 0x800
  | .maxI d a b => 0x0400000A + d.toNat * 0x200000 + a.toNat * 0x10000 + b.toNat * 0x800
  | .minB d a b => 0x0400000B + d.toNat * 0x200000 + a.toNat * 0x10000 + b.toNat * 0x800
  | .maxB d a b => 0x0400000C + d.toNat * 0x200000 + a.toNat * 0x10000 + b.toNat * 0x800
  | .slt d a b => 0x0400000D + d.toNat * 0x200000 + a.toNat * 0x10000 + b.toNat * 0x800
  | .sltb d a b => 0x0400000E + d.toNat * 0x200000 + a.toNat * 0x10000 + b.toNat * 0x800
  | .seq d a b => 0x0400000F + d.toNat * 0x200000 + a.toNat * 0x10000 + b.toNat * 0x800
  | .sne d a b => 0x04000010 + d.toNat * 0x200000 + a.toNat * 0x10000 + b.toNat * 0x800
  | .sel d a b => 0x04000011 + d.toNat * 0x200000 + a.toNat * 0x10000 + b.toNat * 0x800
  | .clz d a => 0x04000012 + d.toNat * 0x200000 + a.toNat * 0x10000
  | .ctz d a => 0x04000013 + d.toNat * 0x200000 + a.toNat * 0x10000
  | .popc d a => 0x04000014 + d.toNat * 0x200000 + a.toNat * 0x10000
  | .addi d a i => 0x08000000 + d.toNat * 0x200000 + a.toNat * 0x10000 + i.toNat * 0x1
  | .slti d a i => 0x08004000 + d.toNat * 0x200000 + a.toNat * 0x10000 + i.toNat * 0x1
  | .li d i => 0x08008000 + d.toNat * 0x200000 + i.toNat * 0x1
  | .lih d a i => 0x0800C000 + d.toNat * 0x200000 + a.toNat * 0x10000 + i.toNat * 0x1
  | .andi d a i => 0x0C000000 + d.toNat * 0x200000 + a.toNat * 0x10000 + i.toNat * 0x1
  | .ori d a i => 0x0C004000 + d.toNat * 0x200000 + a.toNat * 0x10000 + i.toNat * 0x1
  | .xori d a i => 0x0C008000 + d.toNat * 0x200000 + a.toNat * 0x10000 + i.toNat * 0x1
  | .shli d a n => 0x10000000 + d.toNat * 0x200000 + a.toNat * 0x10000 + n.toNat * 0x1
  | .shri d a n => 0x10002000 + d.toNat * 0x200000 + a.toNat * 0x10000 + n.toNat * 0x1
  | .sari d a n => 0x10004000 + d.toNat * 0x200000 + a.toNat * 0x10000 + n.toNat * 0x1
  | .bfx d a l p => 0x10006000 + d.toNat * 0x200000 + a.toNat * 0x10000 + l.toNat * 0x40 + p.toNat * 0x1
  | .bfxI d a l p => 0x10007000 + d.toNat * 0x200000 + a.toNat * 0x10000 + l.toNat * 0x40 + p.toNat * 0x1
  | .bfi d a l p => 0x10008000 + d.toNat * 0x200000 + a.toNat * 0x10000 + l.toNat * 0x40 + p.toNat * 0x1
  | .sext d a n => 0x1000A000 + d.toNat * 0x200000 + a.toNat * 0x10000 + n.toNat * 0x1
  | .zext d a n => 0x1000C000 + d.toNat * 0x200000 + a.toNat * 0x10000 + n.toNat * 0x1
  | .mul d a b => 0x14000000 + d.toNat * 0x200000 + a.toNat * 0x10000 + b.toNat * 0x800
  | .mulhI d a b => 0x14000001 + d.toNat * 0x200000 + a.toNat * 0x10000 + b.toNat * 0x800
  | .mulhB d a b => 0x14000002 + d.toNat * 0x200000 + a.toNat * 0x10000 + b.toNat * 0x800
  | .divI d a b => 0x14000003 + d.toNat * 0x200000 + a.toNat * 0x10000 + b.toNat * 0x800
  | .divB d a b => 0x14000004 + d.toNat * 0x200000 + a.toNat * 0x10000 + b.toNat * 0x800
  | .remI d a b => 0x14000005 + d.toNat * 0x200000 + a.toNat * 0x10000 + b.toNat * 0x800
  | .remB d a b => 0x14000006 + d.toNat * 0x200000 + a.toNat * 0x10000 + b.toNat * 0x800
  | .mov d a => 0x18000000 + d.toNat * 0x200000 + a.toNat * 0x10000
  | .beq a b o => 0x20000000 + a.toNat * 0x20000 + b.toNat * 0x1000 + o.toNat * 0x1
  | .bne a b o => 0x20400000 + a.toNat * 0x20000 + b.toNat * 0x1000 + o.toNat * 0x1
  | .blt a b o => 0x20800000 + a.toNat * 0x20000 + b.toNat * 0x1000 + o.toNat * 0x1
  | .bge a b o => 0x20C00000 + a.toNat * 0x20000 + b.toNat * 0x1000 + o.toNat * 0x1
  | .bltb a b o => 0x21000000 + a.toNat * 0x20000 + b.toNat * 0x1000 + o.toNat * 0x1
  | .bgeb a b o => 0x21400000 + a.toNat * 0x20000 + b.toNat * 0x1000 + o.toNat * 0x1
  | .bz a o => 0x21800000 + a.toNat * 0x20000 + o.toNat * 0x1
  | .bnz a o => 0x21C00000 + a.toNat * 0x20000 + o.toNat * 0x1
  | .jmp o => 0x22000000 + o.toNat * 0x1
  | .bru q o => 0x24000000 + q.toNat * 0x20000 + o.toNat * 0x1
  | .bany q o => 0x24400000 + q.toNat * 0x20000 + o.toNat * 0x1
  | .ball q o => 0x24800000 + q.toNat * 0x20000 + o.toNat * 0x1
  | .bnone q o => 0x24C00000 + q.toNat * 0x20000 + o.toNat * 0x1
  | .call o => 0x28000000 + o.toNat * 0x1
  | .callr a => 0x28400000 + a.toNat * 0x20000
  | .jr a => 0x28800000 + a.toNat * 0x20000
  | .ret => 0x28C00000
  | .ldB d c x w o s => 0x2C000000 + d.toNat * 0x200000 + c.toNat * 0x20000 + x.toNat * 0x1000 + w.toNat * 0x100 + o.toNat * 0x40 + s.toNat * 0x8
  | .ldI d c x w o s => 0x2C000001 + d.toNat * 0x200000 + c.toNat * 0x20000 + x.toNat * 0x1000 + w.toNat * 0x100 + o.toNat * 0x40 + s.toNat * 0x8
  | .ldc d c x o s => 0x2C000902 + d.toNat * 0x200000 + c.toNat * 0x20000 + x.toNat * 0x1000 + o.toNat * 0x40 + s.toNat * 0x8
  | .st t c x w o s => 0x30000000 + t.toNat * 0x200000 + c.toNat * 0x20000 + x.toNat * 0x1000 + w.toNat * 0x100 + o.toNat * 0x40 + s.toNat * 0x8
  | .stc t c x o s => 0x30000901 + t.toNat * 0x200000 + c.toNat * 0x20000 + x.toNat * 0x1000 + o.toNat * 0x40 + s.toNat * 0x8
  | .amoAdd d c x w o s => 0x34000000 + d.toNat * 0x200000 + c.toNat * 0x20000 + x.toNat * 0x1000 + w.toNat * 0x100 + o.toNat * 0x40 + s.toNat * 0x8
  | .amoMin d c x w o s => 0x34000001 + d.toNat * 0x200000 + c.toNat * 0x20000 + x.toNat * 0x1000 + w.toNat * 0x100 + o.toNat * 0x40 + s.toNat * 0x8
  | .amoMax d c x w o s => 0x34000002 + d.toNat * 0x200000 + c.toNat * 0x20000 + x.toNat * 0x1000 + w.toNat * 0x100 + o.toNat * 0x40 + s.toNat * 0x8
  | .amoAnd d c x w o s => 0x34000003 + d.toNat * 0x200000 + c.toNat * 0x20000 + x.toNat * 0x1000 + w.toNat * 0x100 + o.toNat * 0x40 + s.toNat * 0x8
  | .amoOr d c x w o s => 0x34000004 + d.toNat * 0x200000 + c.toNat * 0x20000 + x.toNat * 0x1000 + w.toNat * 0x100 + o.toNat * 0x40 + s.toNat * 0x8
  | .amoXor d c x w o s => 0x34000005 + d.toNat * 0x200000 + c.toNat * 0x20000 + x.toNat * 0x1000 + w.toNat * 0x100 + o.toNat * 0x40 + s.toNat * 0x8
  | .amoSwap d c x w o s => 0x34000006 + d.toNat * 0x200000 + c.toNat * 0x20000 + x.toNat * 0x1000 + w.toNat * 0x100 + o.toNat * 0x40 + s.toNat * 0x8
  | .amoCas d c x w o s => 0x34000007 + d.toNat * 0x200000 + c.toNat * 0x20000 + x.toNat * 0x1000 + w.toNat * 0x100 + o.toNat * 0x40 + s.toNat * 0x8
  | .amoBfadd d c x w o s => 0x34000000 + d.toNat * 0x200000 + c.toNat * 0x20000 + x.toNat * 0x1000 + w.toNat * 0x100 + o.toNat * 0x40 + s.toNat * 0x8
  | .amoBfset d c x w o s => 0x34000006 + d.toNat * 0x200000 + c.toNat * 0x20000 + x.toNat * 0x1000 + w.toNat * 0x100 + o.toNat * 0x40 + s.toNat * 0x8
  | .cgetb d a => 0x38000000 + d.toNat * 0x200000 + a.toNat * 0x10000
  | .cgetl d a => 0x38000001 + d.toNat * 0x200000 + a.toNat * 0x10000
  | .cgetp d a => 0x38000002 + d.toNat * 0x200000 + a.toNat * 0x10000
  | .cgets d a => 0x38000003 + d.toNat * 0x200000 + a.toNat * 0x10000
  | .cgett d a => 0x38000004 + d.toNat * 0x200000 + a.toNat * 0x10000
  | .csetb d a b => 0x38000005 + d.toNat * 0x200000 + a.toNat * 0x10000 + b.toNat * 0x800
  | .candp d a b => 0x38000006 + d.toNat * 0x200000 + a.toNat * 0x10000 + b.toNat * 0x800
  | .cmov d a => 0x38000007 + d.toNat * 0x200000 + a.toNat * 0x10000
  | .ccur d a b => 0x38000008 + d.toNat * 0x200000 + a.toNat * 0x10000 + b.toNat * 0x800
  | .padd d a b w => 0x3C000000 + d.toNat * 0x200000 + a.toNat * 0x10000 + b.toNat * 0x800 + w.toNat * 0x10
  | .psub d a b w => 0x3C000001 + d.toNat * 0x200000 + a.toNat * 0x10000 + b.toNat * 0x800 + w.toNat * 0x10
  | .pdiff d a b w => 0x3C000002 + d.toNat * 0x200000 + a.toNat * 0x10000 + b.toNat * 0x800 + w.toNat * 0x10
  | .palign d a u w => 0x3C000003 + d.toNat * 0x200000 + a.toNat * 0x10000 + u.toNat * 0x100 + w.toNat * 0x10
  | .pbyte d a => 0x3C000004 + d.toNat * 0x200000 + a.toNat * 0x10000
  | .pbit d a b => 0x3C000005 + d.toNat * 0x200000 + a.toNat * 0x10000 + b.toNat * 0x800
  | .pinb d a b w => 0x3C000006 + d.toNat * 0x200000 + a.toNat * 0x10000 + b.toNat * 0x800 + w.toNat * 0x10
  | .getc r d => 0x40000000 + r.toNat * 0x10000 + d.toNat * 0x800
  | .setc r s => 0x40000001 + r.toNat * 0x10000 + s.toNat * 0x800
  | .setcRngs s => 0x40030001 + s.toNat * 0x800
  | .trap n => 0x40000002 + n.toNat * 0x10000
  | .tret => 0x40000003
  | .tretReplay => 0x40000023
  | .fence s o => 0x40000004 + s.toNat * 0x80 + o.toNat * 0x20
  | .yield => 0x40000005
  | .exit => 0x40000006
  | .brk n => 0x40000007 + n.toNat * 0x10000
  | .beat => 0x40000008
  | .nop => 0x40000009
  | .ldk n d i => 0x4000000A + n.toNat * 0x10000 + d.toNat * 0x800 + i.toNat * 0x20
  | .xim p => 0x44000000 + p.toNat * 0x1
  | .dry r k => 0x48000000 + r.toNat * 0x8 + k.toNat * 0x4
  | .wetq d r k => 0x48000001 + d.toNat * 0x200000 + r.toNat * 0x8 + k.toNat * 0x4
  | .dryAll => 0x48000002
  | .vadd g d a b => 0x50000000 + g.toNat * 0x400000 + d.toNat * 0x10000 + a.toNat * 0x400 + b.toNat * 0x10
  | .vsub g d a b => 0x50000001 + g.toNat * 0x400000 + d.toNat * 0x10000 + a.toNat * 0x400 + b.toNat * 0x10
  | .vand g d a b => 0x50000002 + g.toNat * 0x400000 + d.toNat * 0x10000 + a.toNat * 0x400 + b.toNat * 0x10
  | .vor g d a b => 0x50000003 + g.toNat * 0x400000 + d.toNat * 0x10000 + a.toNat * 0x400 + b.toNat * 0x10
  | .vxor g d a b => 0x50000004 + g.toNat * 0x400000 + d.toNat * 0x10000 + a.toNat * 0x400 + b.toNat * 0x10
  | .vandn g d a b => 0x50000005 + g.toNat * 0x400000 + d.toNat * 0x10000 + a.toNat * 0x400 + b.toNat * 0x10
  | .vnot g d a => 0x50000006 + g.toNat * 0x400000 + d.toNat * 0x10000 + a.toNat * 0x400
  | .vabs g d a => 0x50000016 + g.toNat * 0x400000 + d.toNat * 0x10000 + a.toNat * 0x400
  | .vneg g d a => 0x50000026 + g.toNat * 0x400000 + d.toNat * 0x10000 + a.toNat * 0x400
  | .vminI g d a b => 0x50000007 + g.toNat * 0x400000 + d.toNat * 0x10000 + a.toNat * 0x400 + b.toNat * 0x10
  | .vminB g d a b => 0x50000008 + g.toNat * 0x400000 + d.toNat * 0x10000 + a.toNat * 0x400 + b.toNat * 0x10
  | .vmaxI g d a b => 0x50000009 + g.toNat * 0x400000 + d.toNat * 0x10000 + a.toNat * 0x400 + b.toNat * 0x10
  | .vmaxB g d a b => 0x5000000A + g.toNat * 0x400000 + d.toNat * 0x10000 + a.toNat * 0x400 + b.toNat * 0x10
  | .vaddsatI g d a b => 0x5000000B + g.toNat * 0x400000 + d.toNat * 0x10000 + a.toNat * 0x400 + b.toNat * 0x10
  | .vaddsatB g d a b => 0x5000000C + g.toNat * 0x400000 + d.toNat * 0x10000 + a.toNat * 0x400 + b.toNat * 0x10
  | .vsubsatI g d a b => 0x5000000D + g.toNat * 0x400000 + d.toNat * 0x10000 + a.toNat * 0x400 + b.toNat * 0x10
  | .vsubsatB g d a b => 0x5000000E + g.toNat * 0x400000 + d.toNat * 0x10000 + a.toNat * 0x400 + b.toNat * 0x10
  | .vaddi g d a i => 0x54000000 + g.toNat * 0x400000 + d.toNat * 0x10000 + a.toNat * 0x400 + i.toNat * 0x1
  | .vandi g d a i => 0x54000100 + g.toNat * 0x400000 + d.toNat * 0x10000 + a.toNat * 0x400 + i.toNat * 0x1
  | .vori g d a i => 0x54000200 + g.toNat * 0x400000 + d.toNat * 0x10000 + a.toNat * 0x400 + i.toNat * 0x1
  | .vshli g d a n => 0x54000300 + g.toNat * 0x400000 + d.toNat * 0x10000 + a.toNat * 0x400 + n.toNat * 0x1
  | .vmul g d a b => 0x58000000 + g.toNat * 0x400000 + d.toNat * 0x10000 + a.toNat * 0x400 + b.toNat * 0x10
  | .vmulhI g d a b => 0x58000001 + g.toNat * 0x400000 + d.toNat * 0x10000 + a.toNat * 0x400 + b.toNat * 0x10
  | .vmulhB g d a b => 0x58000002 + g.toNat * 0x400000 + d.toNat * 0x10000 + a.toNat * 0x400 + b.toNat * 0x10
  | .vmad g d a b => 0x58000003 + g.toNat * 0x400000 + d.toNat * 0x10000 + a.toNat * 0x400 + b.toNat * 0x10
  | .vshl g d a b => 0x5C000000 + g.toNat * 0x400000 + d.toNat * 0x10000 + a.toNat * 0x400 + b.toNat * 0x10
  | .vshr g d a b => 0x5C000001 + g.toNat * 0x400000 + d.toNat * 0x10000 + a.toNat * 0x400 + b.toNat * 0x10
  | .vsar g d a b => 0x5C000002 + g.toNat * 0x400000 + d.toNat * 0x10000 + a.toNat * 0x400 + b.toNat * 0x10
  | .vclz g d a => 0x5C000003 + g.toNat * 0x400000 + d.toNat * 0x10000 + a.toNat * 0x400
  | .vpopc g d a => 0x5C000004 + g.toNat * 0x400000 + d.toNat * 0x10000 + a.toNat * 0x400
  | .vbfx g d a b => 0x5C000005 + g.toNat * 0x400000 + d.toNat * 0x10000 + a.toNat * 0x400 + b.toNat * 0x10
  | .vbfxI g d a b => 0x5C000006 + g.toNat * 0x400000 + d.toNat * 0x10000 + a.toNat * 0x400 + b.toNat * 0x10
  | .vbfi g d a b => 0x5C000007 + g.toNat * 0x400000 + d.toNat * 0x10000 + a.toNat * 0x400 + b.toNat * 0x10
  | .fadd g d a b => 0x60000000 + g.toNat * 0x400000 + d.toNat * 0x10000 + a.toNat * 0x400 + b.toNat * 0x10
  | .fsub g d a b => 0x60000001 + g.toNat * 0x400000 + d.toNat * 0x10000 + a.toNat * 0x400 + b.toNat * 0x10
  | .fmul g d a b => 0x60000002 + g.toNat * 0x400000 + d.toNat * 0x10000 + a.toNat * 0x400 + b.toNat * 0x10
  | .fmin g d a b => 0x60000003 + g.toNat * 0x400000 + d.toNat * 0x10000 + a.toNat * 0x400 + b.toNat * 0x10
  | .fmax g d a b => 0x60000004 + g.toNat * 0x400000 + d.toNat * 0x10000 + a.toNat * 0x400 + b.toNat * 0x10
  | .fabs g d a => 0x60000005 + g.toNat * 0x400000 + d.toNat * 0x10000 + a.toNat * 0x400
  | .fneg g d a => 0x60000006 + g.toNat * 0x400000 + d.toNat * 0x10000 + a.toNat * 0x400
  | .frnd g d a m => 0x60000007 + g.toNat * 0x400000 + d.toNat * 0x10000 + a.toNat * 0x400 + m.toNat * 0x10
  | .fclass g d a => 0x60000008 + g.toNat * 0x400000 + d.toNat * 0x10000 + a.toNat * 0x400
  | .faddPacked g d a b p => 0x64000000 + g.toNat * 0x400000 + d.toNat * 0x10000 + a.toNat * 0x400 + b.toNat * 0x10 + p.toNat * 0x8
  | .fsubPacked g d a b p => 0x64000001 + g.toNat * 0x400000 + d.toNat * 0x10000 + a.toNat * 0x400 + b.toNat * 0x10 + p.toNat * 0x8
  | .fmulPacked g d a b p => 0x64000002 + g.toNat * 0x400000 + d.toNat * 0x10000 + a.toNat * 0x400 + b.toNat * 0x10 + p.toNat * 0x8
  | .fminPacked g d a b p => 0x64000003 + g.toNat * 0x400000 + d.toNat * 0x10000 + a.toNat * 0x400 + b.toNat * 0x10 + p.toNat * 0x8
  | .fmaxPacked g d a b p => 0x64000004 + g.toNat * 0x400000 + d.toNat * 0x10000 + a.toNat * 0x400 + b.toNat * 0x10 + p.toNat * 0x8
  | .fabsPacked g d a p => 0x64000005 + g.toNat * 0x400000 + d.toNat * 0x10000 + a.toNat * 0x400 + p.toNat * 0x8
  | .fnegPacked g d a p => 0x64000085 + g.toNat * 0x400000 + d.toNat * 0x10000 + a.toNat * 0x400 + p.toNat * 0x8
  | .fclassPacked g d a p => 0x64000105 + g.toNat * 0x400000 + d.toNat * 0x10000 + a.toNat * 0x400 + p.toNat * 0x8
  | .frndPacked g d a m p => 0x64000185 + g.toNat * 0x400000 + d.toNat * 0x10000 + a.toNat * 0x400 + m.toNat * 0x10 + p.toNat * 0x8
  | .fdot2 g d a b p => 0x64000007 + g.toNat * 0x400000 + d.toNat * 0x10000 + a.toNat * 0x400 + b.toNat * 0x10 + p.toNat * 0x8
  | .fma g d a b f => 0x68000000 + g.toNat * 0x400000 + d.toNat * 0x10000 + a.toNat * 0x400 + b.toNat * 0x10 + f.toNat * 0x4
  | .fms g d a b f => 0x68000001 + g.toNat * 0x400000 + d.toNat * 0x10000 + a.toNat * 0x400 + b.toNat * 0x10 + f.toNat * 0x4
  | .fnma g d a b f => 0x68000002 + g.toNat * 0x400000 + d.toNat * 0x10000 + a.toNat * 0x400 + b.toNat * 0x10 + f.toNat * 0x4
  | .vcmp g q a b c => 0x6C000000 + g.toNat * 0x400000 + q.toNat * 0x10000 + a.toNat * 0x400 + b.toNat * 0x10 + c.toNat * 0x1
  | .vcmpF g q a b c => 0x6C080000 + g.toNat * 0x400000 + q.toNat * 0x10000 + a.toNat * 0x400 + b.toNat * 0x10 + c.toNat * 0x1
  | .fcmpu g q a b => 0x6C080006 + g.toNat * 0x400000 + q.toNat * 0x10000 + a.toNat * 0x400 + b.toNat * 0x10
  | .vsel g d a b => 0x70000000 + g.toNat * 0x400000 + d.toNat * 0x10000 + a.toNat * 0x400 + b.toNat * 0x10
  | .vmov g d a => 0x70000001 + g.toNat * 0x400000 + d.toNat * 0x10000 + a.toNat * 0x400
  | .vmovi g d i => 0x70000002 + g.toNat * 0x400000 + d.toNat * 0x10000 + i.toNat * 0x10
  | .vfromg g d s => 0x70000003 + g.toNat * 0x400000 + d.toNat * 0x10000 + s.toNat * 0x400
  | .vlane g d s => 0x70000004 + g.toNat * 0x400000 + d.toNat * 0x10000 + s.toNat * 0x10
  | .pand g d a b => 0x70000005 + g.toNat * 0x400000 + d.toNat * 0x10000 + a.toNat * 0x400 + b.toNat * 0x10
  | .por g d a b => 0x70000006 + g.toNat * 0x400000 + d.toNat * 0x10000 + a.toNat * 0x400 + b.toNat * 0x10
  | .pxor g d a b => 0x70000007 + g.toNat * 0x400000 + d.toNat * 0x10000 + a.toNat * 0x400 + b.toNat * 0x10
  | .pnot g d a => 0x70000008 + g.toNat * 0x400000 + d.toNat * 0x10000 + a.toNat * 0x400
  | .pmov g d a => 0x70000009 + g.toNat * 0x400000 + d.toNat * 0x10000 + a.toNat * 0x400
  | .cvtF32ToX g d a x r => 0x74000000 + g.toNat * 0x400000 + d.toNat * 0x10000 + a.toNat * 0x400 + x.toNat * 0x40 + r.toNat * 0x10
  | .cvtI32ToX g d a x r => 0x74000002 + g.toNat * 0x400000 + d.toNat * 0x10000 + a.toNat * 0x400 + x.toNat * 0x40 + r.toNat * 0x10
  | .cvtXToF32 g d a x r => 0x74000004 + g.toNat * 0x400000 + d.toNat * 0x10000 + a.toNat * 0x400 + x.toNat * 0x40 + r.toNat * 0x10
  | .cvtXToI32 g d a x r => 0x74000006 + g.toNat * 0x400000 + d.toNat * 0x10000 + a.toNat * 0x400 + x.toNat * 0x40 + r.toNat * 0x10
  | .vunpack g d a f h => 0x74000001 + g.toNat * 0x400000 + d.toNat * 0x10000 + a.toNat * 0x400 + f.toNat * 0x20 + h.toNat * 0x10
  | .vquant g d a r t l f => 0x74000008 + g.toNat * 0x400000 + d.toNat * 0x10000 + a.toNat * 0x400 + r.toNat * 0x100 + t.toNat * 0x40 + l.toNat * 0x10 + f.toNat * 0x1
  | .vdequant g d a f => 0x7400000C + g.toNat * 0x400000 + d.toNat * 0x10000 + a.toNat * 0x400 + f.toNat * 0x10
  | .vpackF16 g d a b => 0x7400000E + g.toNat * 0x400000 + d.toNat * 0x10000 + a.toNat * 0x400 + b.toNat * 0x10
  | .vpackBf16 g d a b => 0x7400000F + g.toNat * 0x400000 + d.toNat * 0x10000 + a.toNat * 0x400 + b.toNat * 0x10
  | .frcp g d a => 0x78000000 + g.toNat * 0x400000 + d.toNat * 0x10000 + a.toNat * 0x400
  | .frsqrt g d a => 0x78000001 + g.toNat * 0x400000 + d.toNat * 0x10000 + a.toNat * 0x400
  | .fsqrt g d a => 0x78000002 + g.toNat * 0x400000 + d.toNat * 0x10000 + a.toNat * 0x400
  | .fexp2 g d a => 0x78000003 + g.toNat * 0x400000 + d.toNat * 0x10000 + a.toNat * 0x400
  | .flog2 g d a => 0x78000004 + g.toNat * 0x400000 + d.toNat * 0x10000 + a.toNat * 0x400
  | .fsin g d a => 0x78000005 + g.toNat * 0x400000 + d.toNat * 0x10000 + a.toNat * 0x400
  | .fcos g d a => 0x78000006 + g.toNat * 0x400000 + d.toNat * 0x10000 + a.toNat * 0x400
  | .ftanh g d a => 0x78000007 + g.toNat * 0x400000 + d.toNat * 0x10000 + a.toNat * 0x400
  | .vperm g d a b => 0x7C000000 + g.toNat * 0x400000 + d.toNat * 0x10000 + a.toNat * 0x400 + b.toNat * 0x10
  | .vpermM g d a b => 0x7C000001 + g.toNat * 0x400000 + d.toNat * 0x10000 + a.toNat * 0x400 + b.toNat * 0x10
  | .vshufx g d a m k => 0x7C000002 + g.toNat * 0x400000 + d.toNat * 0x10000 + a.toNat * 0x400 + m.toNat * 0x100 + k.toNat * 0x10
  | .vshufy g d a m k => 0x7C000003 + g.toNat * 0x400000 + d.toNat * 0x10000 + a.toNat * 0x400 + m.toNat * 0x100 + k.toNat * 0x10
  | .vbcast g d a p => 0x7C000004 + g.toNat * 0x400000 + d.toNat * 0x10000 + a.toNat * 0x400 + p.toNat * 0x10
  | .vred g d a o => 0x7C000005 + g.toNat * 0x400000 + d.toNat * 0x10000 + a.toNat * 0x400 + o.toNat * 0x10
  | .vscan g d a o => 0x7C000006 + g.toNat * 0x400000 + d.toNat * 0x10000 + a.toNat * 0x400 + o.toNat * 0x10
  | .vmatch g d a => 0x7C000007 + g.toNat * 0x400000 + d.toNat * 0x10000 + a.toNat * 0x400
  | .vpick g d a => 0x7C000008 + g.toNat * 0x400000 + d.toNat * 0x10000 + a.toNat * 0x400
  | .vvote g d q => 0x7C000009 + g.toNat * 0x400000 + d.toNat * 0x10000 + q.toNat * 0x400
  | .ldw g d a x y w => 0x80000000 + g.toNat * 0x400000 + d.toNat * 0x10000 + a.toNat * 0x400 + x.toNat * 0x80 + y.toNat * 0x10 + w.toNat * 0x1
  | .stw g s a x y w => 0x84000000 + g.toNat * 0x400000 + s.toNat * 0x10000 + a.toNat * 0x400 + x.toNat * 0x80 + y.toNat * 0x10 + w.toNat * 0x1
  | .ldeB g d a w => 0x88000000 + g.toNat * 0x400000 + d.toNat * 0x10000 + a.toNat * 0x400 + w.toNat * 0x1
  | .ldeI g d a w => 0x88000010 + g.toNat * 0x400000 + d.toNat * 0x10000 + a.toNat * 0x400 + w.toNat * 0x1
  | .ste g s a w => 0x88000020 + g.toNat * 0x400000 + s.toNat * 0x10000 + a.toNat * 0x400 + w.toNat * 0x1
  | .vamoAdd g d a w => 0x8C000000 + g.toNat * 0x400000 + d.toNat * 0x10000 + a.toNat * 0x400 + w.toNat * 0x1
  | .vamoMinI g d a w => 0x8C000010 + g.toNat * 0x400000 + d.toNat * 0x10000 + a.toNat * 0x400 + w.toNat * 0x1
  | .vamoMaxI g d a w => 0x8C000020 + g.toNat * 0x400000 + d.toNat * 0x10000 + a.toNat * 0x400 + w.toNat * 0x1
  | .vamoAnd g d a w => 0x8C000030 + g.toNat * 0x400000 + d.toNat * 0x10000 + a.toNat * 0x400 + w.toNat * 0x1
  | .vamoOr g d a w => 0x8C000040 + g.toNat * 0x400000 + d.toNat * 0x10000 + a.toNat * 0x400 + w.toNat * 0x1
  | .vamoXor g d a w => 0x8C000050 + g.toNat * 0x400000 + d.toNat * 0x10000 + a.toNat * 0x400 + w.toNat * 0x1
  | .vamoSwap g d a w => 0x8C000060 + g.toNat * 0x400000 + d.toNat * 0x10000 + a.toNat * 0x400 + w.toNat * 0x1
  | .vamoCas g d a w => 0x8C000070 + g.toNat * 0x400000 + d.toNat * 0x10000 + a.toNat * 0x400 + w.toNat * 0x1
  | .vamoBfadd g d a w => 0x8C000080 + g.toNat * 0x400000 + d.toNat * 0x10000 + a.toNat * 0x400 + w.toNat * 0x1
  | .vamoMinB g d a w => 0x8C000090 + g.toNat * 0x400000 + d.toNat * 0x10000 + a.toNat * 0x400 + w.toNat * 0x1
  | .vamoMaxB g d a w => 0x8C0000A0 + g.toNat * 0x400000 + d.toNat * 0x10000 + a.toNat * 0x400 + w.toNat * 0x1
  | .lcopy a c v d n q => 0x90000000 + a.toNat * 0x200000 + c.toNat * 0x10000 + v.toNat * 0x400 + d.toNat * 0x10 + n.toNat * 0x8 + q.toNat * 0x1
  | .own e => 0x94000000 + e.toNat * 0x8
  | .give s e => 0x94000001 + s.toNat * 0x200000 + e.toNat * 0x8
  | .share e => 0x94000002 + e.toNat * 0x8
  | .claim e => 0x94000003 + e.toNat * 0x8
  | .pass s e => 0x94000004 + s.toNat * 0x200000 + e.toNat * 0x8
  | .probe d a => 0x94000005 + d.toNat * 0x200000 + a.toNat * 0x10000
  | .rset s e => 0x9C000000 + s.toNat * 0x200000 + e.toNat * 0x8
  | .rget d e => 0x9C000001 + d.toNat * 0x200000 + e.toNat * 0x8
  | .rmov f e => 0x9C000002 + f.toNat * 0x40 + e.toNat * 0x8
  | .radj a b t e => 0x9C000003 + a.toNat * 0x200000 + b.toNat * 0x10000 + t.toNat * 0x200 + e.toNat * 0x8
  | .scroll e x y m => 0xA0000000 + e.toNat * 0x800000 + x.toNat * 0x4000 + y.toNat * 0x20 + m.toNat * 0x4
  | .scrollReg e a b m => 0xA0000001 + e.toNat * 0x800000 + a.toNat * 0x4000 + b.toNat * 0x20 + m.toNat * 0x4
  | .scrollResume => 0xA0000002
  | .pfill e => 0xA4000000 + e.toNat * 0x800000
  | .pfillZero e => 0xA4000004 + e.toNat * 0x800000
  | .pfillScalar e s => 0xA4000001 + e.toNat * 0x800000 + s.toNat * 0x4000
  | .mloop z a d b f s k => 0xA8000000 + z.toNat * 0x1000000 + a.toNat * 0x40000 + d.toNat * 0x2000 + b.toNat * 0x100 + f.toNat * 0x8 + s.toNat * 0x2 + k.toNat * 0x1
  | .mcommit => 0xAC000000
  | .mwait n => 0xAC000001 + n.toNat * 0x10
  | .zclr z => 0xAC000002 + z.toNat * 0x10
  | .zld s z => 0xAC000003 + s.toNat * 0x200000 + z.toNat * 0x10
  | .zst s z => 0xAC000004 + s.toNat * 0x200000 + z.toNat * 0x10
  | .zmov m n => 0xAC000005 + m.toNat * 0x40 + n.toNat * 0x10
  | .zcvt s i r f z => 0xAC000006 + s.toNat * 0x200000 + i.toNat * 0x2000 + r.toNat * 0x400 + f.toNat * 0x100 + z.toNat * 0x10
  | .zcvtReg d i r f z => 0xAC001006 + d.toNat * 0x10000 + i.toNat * 0x2000 + r.toNat * 0x400 + f.toNat * 0x100 + z.toNat * 0x10
  | .binit a b f => 0xB4000000 + a.toNat * 0x200000 + b.toNat * 0x10000 + f.toNat * 0x8
  | .barrive a b g f => 0xB4000001 + a.toNat * 0x200000 + b.toNat * 0x10000 + g.toNat * 0x1000 + f.toNat * 0x8
  | .bwait a b => 0xB4000002 + a.toNat * 0x200000 + b.toNat * 0x10000
  | .btest a b => 0xB4000003 + a.toNat * 0x200000 + b.toNat * 0x10000
  | .bexpect a b => 0xB4000004 + a.toNat * 0x200000 + b.toNat * 0x10000
  | .semwait c b n s => 0xB8000000 + c.toNat * 0x200000 + b.toNat * 0x10000 + n.toNat * 0x40 + s.toNat * 0x8
  | .sempost c b n s => 0xB8000001 + c.toNat * 0x200000 + b.toNat * 0x10000 + n.toNat * 0x40 + s.toNat * 0x8
  | .park c b s => 0xB8000002 + c.toNat * 0x200000 + b.toNat * 0x10000 + s.toNat * 0x8
  | .qkick l p n => 0xBC000000 + l.toNat * 0x200000 + p.toNat * 0x10000 + n.toNat * 0x800
  | .qdrain => 0xBC000001
  | .qstat d => 0xBC000002 + d.toNat * 0x200000
  | .qcancel d a => 0xBC000003 + d.toNat * 0x200000 + a.toNat * 0x10000
  | .ssubNib b s => 0xC0000000 + b.toNat * 0x10000 + s.toNat * 0x400
  | .ssubCell a b s e => 0xC0000001 + a.toNat * 0x200000 + b.toNat * 0x10000 + s.toNat * 0x400 + e.toNat * 0x40
  | .sunsub s => 0xC0000002 + s.toNat * 0x400
  | .spub a s => 0xC0000003 + a.toNat * 0x200000 + s.toNat * 0x400
  | .coll a b => 0xC4000000 + a.toNat * 0x200000 + b.toNat * 0x10000
  | .stepb a b i => 0xC8000000 + a.toNat * 0x200000 + b.toNat * 0x10000 + i.toNat * 0x4
  | .stepe i => 0xC8000001 + i.toNat * 0x4
  | .mark a n => 0xCC000000 + a.toNat * 0x200000 + n.toNat * 0x10
  | .lcopyLanding _ => 0
  | .unitStep _ => 0
  | .planeFillWrite _ => 0
  | .loopStep _ _ => 0
  | .loopCompletion _ => 0
  | .semwaitRetry _ => 0
  | .watchWake _ => 0
  | .lineRequest _ => 0
  | .completionRecord _ => 0
  | .chunk _ _ => 0
  | .cellRingSlotLanding _ _ => 0
  | .contribution _ => 0
  | .contributionTimeout _ => 0
  | .resolution _ _ => 0
  | .wetAccessFault _ _ _ => 0
  | .deliverableEventEntry => 0
  | .urgent _ => 0
  | .teamPlacement _ => 0
  | .drainToFit _ => 0
  | .batchDispatch => 0
  | .launch _ => 0
  | .copy _ => 0
  | .wait _ => 0
  | .signal _ => 0
  | .marker _ => 0
  | .traceOpen _ => 0
  | .traceClose _ => 0
  | .traceFlush _ => 0
  | .launchCompletion _ => 0
  | .tail _ _ => 0
  | .ctrlRestart _ => 0
  | .ctrlReset _ => 0
  | .translationWalk _ _ => 0
  | .ccntAdvance _ _ => 0
  | .asidInvalidate _ _ _ => 0
  | .preemption _ => 0
  | .contextRestore _ => 0
  | .watchdog _ => 0
  | .rollback _ => 0
  | .refreshDoubled _ _ => 0
  | .refreshNormal _ _ => 0
  | .layerTripped _ _ => 0
  | .layerServesAgain _ _ => 0
  | .ductusDecision => 0
  | .clockRaise _ => 0
  | .retentionEntry _ => 0
  | .retentionWake _ => 0
  | .coolantHot => 0
  | .coolantNormal => 0
  | .boot => 0
  | .challengeAuth _ => 0
  | .measurements _ => 0
  | .status => 0
  | .flashwrite _ _ => 0
  | .qcreate _ _ _ _ _ _ _ => 0
  | .notify _ _ => 0
  | .halt _ _ => 0
  | .read _ _ => 0
  | .write _ _ _ => 0
  | .step _ => 0
  | .resume _ => 0
  | .contextRecordWrite _ => 0
  | .quotaWrite _ _ _ => 0
  | .windowBind _ _ _ => 0
  | .logRead _ => 0
  | .ageingRead _ => 0
  | .hostWindowAccess _ _ _ _ => 0
  | .folioDrain _ => 0
  | .powerGate _ _ => 0
  | .flitRetry _ => 0
  | .portDown _ => 0
  | .peerUnreachable _ _ => 0
  | .peerRequest _ _ => 0
  | .islandCycle _ => 0
  | .illegalWord _ => 0
  | .clauseHeaderFetch _ => 0
  | .storageError _ => 0
  | .holeAdded _ _ => 0
  | .portUp _ _ => 0

/-- The word of an instruction. -/
def encode (i : Instr) : BitVec 32 := BitVec.ofNat 32 (encodeNat i)

/-- A candidate read from the fields of the word `n`: it is the word's instruction when every bit
outside its fields is as its row says (R74) and its fields are accepted. -/
def take (n : Nat) (i : Instr) : Except Reject Instr :=
  if encodeNat i = n then
    match fieldReject i with
    | none => .ok i
    | some 3 => .error .unassignedForm
    | some _ => .error .badField
  else .error .badField

/-- Major 0x01. -/
def decode01 (n : Nat) : Except Reject Instr :=
  match bits n 0 11 with
  | 0 => take n (.add (fld n 21 5) (fld n 16 5) (fld n 11 5))
  | 1 => take n (.sub (fld n 21 5) (fld n 16 5) (fld n 11 5))
  | 2 => take n (.and (fld n 21 5) (fld n 16 5) (fld n 11 5))
  | 3 => take n (.or (fld n 21 5) (fld n 16 5) (fld n 11 5))
  | 4 => take n (.xor (fld n 21 5) (fld n 16 5) (fld n 11 5))
  | 5 => take n (.andn (fld n 21 5) (fld n 16 5) (fld n 11 5))
  | 6 => take n (.shl (fld n 21 5) (fld n 16 5) (fld n 11 5))
  | 7 => take n (.shr (fld n 21 5) (fld n 16 5) (fld n 11 5))
  | 8 => take n (.sar (fld n 21 5) (fld n 16 5) (fld n 11 5))
  | 9 => take n (.minI (fld n 21 5) (fld n 16 5) (fld n 11 5))
  | 10 => take n (.maxI (fld n 21 5) (fld n 16 5) (fld n 11 5))
  | 11 => take n (.minB (fld n 21 5) (fld n 16 5) (fld n 11 5))
  | 12 => take n (.maxB (fld n 21 5) (fld n 16 5) (fld n 11 5))
  | 13 => take n (.slt (fld n 21 5) (fld n 16 5) (fld n 11 5))
  | 14 => take n (.sltb (fld n 21 5) (fld n 16 5) (fld n 11 5))
  | 15 => take n (.seq (fld n 21 5) (fld n 16 5) (fld n 11 5))
  | 16 => take n (.sne (fld n 21 5) (fld n 16 5) (fld n 11 5))
  | 17 => take n (.sel (fld n 21 5) (fld n 16 5) (fld n 11 5))
  | 18 => take n (.clz (fld n 21 5) (fld n 16 5))
  | 19 => take n (.ctz (fld n 21 5) (fld n 16 5))
  | 20 => take n (.popc (fld n 21 5) (fld n 16 5))
  | _ => .error .unassignedForm

/-- Major 0x02. -/
def decode02 (n : Nat) : Except Reject Instr :=
  match bits n 14 2 with
  | 0 => take n (.addi (fld n 21 5) (fld n 16 5) (fld n 0 14))
  | 1 => take n (.slti (fld n 21 5) (fld n 16 5) (fld n 0 14))
  | 2 => take n (.li (fld n 21 5) (fld n 0 14))
  | _ => take n (.lih (fld n 21 5) (fld n 16 5) (fld n 0 14))

/-- Major 0x03. -/
def decode03 (n : Nat) : Except Reject Instr :=
  match bits n 14 2 with
  | 0 => take n (.andi (fld n 21 5) (fld n 16 5) (fld n 0 14))
  | 1 => take n (.ori (fld n 21 5) (fld n 16 5) (fld n 0 14))
  | 2 => take n (.xori (fld n 21 5) (fld n 16 5) (fld n 0 14))
  | _ => .error .unassignedForm

/-- Major 0x04. -/
def decode04 (n : Nat) : Except Reject Instr :=
  match bits n 13 3 with
  | 0 => take n (.shli (fld n 21 5) (fld n 16 5) (fld n 0 6))
  | 1 => take n (.shri (fld n 21 5) (fld n 16 5) (fld n 0 6))
  | 2 => take n (.sari (fld n 21 5) (fld n 16 5) (fld n 0 6))
  | 3 => if bits n 12 1 = 1 then take n (.bfxI (fld n 21 5) (fld n 16 5) (fld n 6 6) (fld n 0 6)) else take n (.bfx (fld n 21 5) (fld n 16 5) (fld n 6 6) (fld n 0 6))
  | 4 => take n (.bfi (fld n 21 5) (fld n 16 5) (fld n 6 6) (fld n 0 6))
  | 5 => take n (.sext (fld n 21 5) (fld n 16 5) (fld n 0 6))
  | 6 => take n (.zext (fld n 21 5) (fld n 16 5) (fld n 0 6))
  | _ => .error .unassignedForm

/-- Major 0x05. -/
def decode05 (n : Nat) : Except Reject Instr :=
  match bits n 0 11 with
  | 0 => take n (.mul (fld n 21 5) (fld n 16 5) (fld n 11 5))
  | 1 => take n (.mulhI (fld n 21 5) (fld n 16 5) (fld n 11 5))
  | 2 => take n (.mulhB (fld n 21 5) (fld n 16 5) (fld n 11 5))
  | 3 => take n (.divI (fld n 21 5) (fld n 16 5) (fld n 11 5))
  | 4 => take n (.divB (fld n 21 5) (fld n 16 5) (fld n 11 5))
  | 5 => take n (.remI (fld n 21 5) (fld n 16 5) (fld n 11 5))
  | 6 => take n (.remB (fld n 21 5) (fld n 16 5) (fld n 11 5))
  | _ => .error .unassignedForm

/-- Major 0x06. -/
def decode06 (n : Nat) : Except Reject Instr :=
  match bits n 0 11 with
  | 0 => take n (.mov (fld n 21 5) (fld n 16 5))
  | _ => .error .unassignedForm

/-- Major 0x08. -/
def decode08 (n : Nat) : Except Reject Instr :=
  match bits n 22 4 with
  | 0 => take n (.beq (fld n 17 5) (fld n 12 5) (fld n 0 12))
  | 1 => take n (.bne (fld n 17 5) (fld n 12 5) (fld n 0 12))
  | 2 => take n (.blt (fld n 17 5) (fld n 12 5) (fld n 0 12))
  | 3 => take n (.bge (fld n 17 5) (fld n 12 5) (fld n 0 12))
  | 4 => take n (.bltb (fld n 17 5) (fld n 12 5) (fld n 0 12))
  | 5 => take n (.bgeb (fld n 17 5) (fld n 12 5) (fld n 0 12))
  | 6 => take n (.bz (fld n 17 5) (fld n 0 12))
  | 7 => take n (.bnz (fld n 17 5) (fld n 0 12))
  | 8 => take n (.jmp (fld n 0 12))
  | _ => .error .unassignedForm

/-- Major 0x09. -/
def decode09 (n : Nat) : Except Reject Instr :=
  match bits n 22 4 with
  | 0 => take n (.bru (fld n 17 3) (fld n 0 12))
  | 1 => take n (.bany (fld n 17 3) (fld n 0 12))
  | 2 => take n (.ball (fld n 17 3) (fld n 0 12))
  | 3 => take n (.bnone (fld n 17 3) (fld n 0 12))
  | _ => .error .unassignedForm

/-- Major 0x0A. -/
def decode0A (n : Nat) : Except Reject Instr :=
  match bits n 22 4 with
  | 0 => take n (.call (fld n 0 12))
  | 1 => take n (.callr (fld n 17 5))
  | 2 => take n (.jr (fld n 17 5))
  | 3 => take n (.ret)
  | _ => .error .unassignedForm

/-- Major 0x0B. -/
def decode0B (n : Nat) : Except Reject Instr :=
  match bits n 0 3 with
  | 0 => take n (.ldB (fld n 21 5) (fld n 17 4) (fld n 12 5) (fld n 8 4) (fld n 6 2) (fld n 3 3))
  | 1 => take n (.ldI (fld n 21 5) (fld n 17 4) (fld n 12 5) (fld n 8 4) (fld n 6 2) (fld n 3 3))
  | 2 => take n (.ldc (fld n 21 4) (fld n 17 4) (fld n 12 5) (fld n 6 2) (fld n 3 3))
  | _ => .error .unassignedForm

/-- Major 0x0C. -/
def decode0C (n : Nat) : Except Reject Instr :=
  match bits n 0 3 with
  | 0 => take n (.st (fld n 21 5) (fld n 17 4) (fld n 12 5) (fld n 8 4) (fld n 6 2) (fld n 3 3))
  | 1 => take n (.stc (fld n 21 4) (fld n 17 4) (fld n 12 5) (fld n 6 2) (fld n 3 3))
  | _ => .error .unassignedForm

/-- Major 0x0D. -/
def decode0D (n : Nat) : Except Reject Instr :=
  match bits n 0 3 with
  | 0 => if bits n 8 4 ≤ 6 then take n (.amoBfadd (fld n 21 5) (fld n 17 4) (fld n 12 5) (fld n 8 4) (fld n 6 2) (fld n 3 3)) else take n (.amoAdd (fld n 21 5) (fld n 17 4) (fld n 12 5) (fld n 8 4) (fld n 6 2) (fld n 3 3))
  | 1 => take n (.amoMin (fld n 21 5) (fld n 17 4) (fld n 12 5) (fld n 8 4) (fld n 6 2) (fld n 3 3))
  | 2 => take n (.amoMax (fld n 21 5) (fld n 17 4) (fld n 12 5) (fld n 8 4) (fld n 6 2) (fld n 3 3))
  | 3 => take n (.amoAnd (fld n 21 5) (fld n 17 4) (fld n 12 5) (fld n 8 4) (fld n 6 2) (fld n 3 3))
  | 4 => take n (.amoOr (fld n 21 5) (fld n 17 4) (fld n 12 5) (fld n 8 4) (fld n 6 2) (fld n 3 3))
  | 5 => take n (.amoXor (fld n 21 5) (fld n 17 4) (fld n 12 5) (fld n 8 4) (fld n 6 2) (fld n 3 3))
  | 6 => if bits n 8 4 ≤ 6 then take n (.amoBfset (fld n 21 5) (fld n 17 4) (fld n 12 5) (fld n 8 4) (fld n 6 2) (fld n 3 3)) else take n (.amoSwap (fld n 21 5) (fld n 17 4) (fld n 12 5) (fld n 8 4) (fld n 6 2) (fld n 3 3))
  | _ => take n (.amoCas (fld n 21 5) (fld n 17 4) (fld n 12 5) (fld n 8 4) (fld n 6 2) (fld n 3 3))

/-- Major 0x0E. -/
def decode0E (n : Nat) : Except Reject Instr :=
  match bits n 0 11 with
  | 0 => take n (.cgetb (fld n 21 5) (fld n 16 4))
  | 1 => take n (.cgetl (fld n 21 5) (fld n 16 4))
  | 2 => take n (.cgetp (fld n 21 5) (fld n 16 4))
  | 3 => take n (.cgets (fld n 21 5) (fld n 16 4))
  | 4 => take n (.cgett (fld n 21 5) (fld n 16 4))
  | 5 => take n (.csetb (fld n 21 4) (fld n 16 4) (fld n 11 5))
  | 6 => take n (.candp (fld n 21 4) (fld n 16 4) (fld n 11 5))
  | 7 => take n (.cmov (fld n 21 4) (fld n 16 4))
  | 8 => take n (.ccur (fld n 21 4) (fld n 16 4) (fld n 11 5))
  | _ => .error .unassignedForm

/-- Major 0x0F. -/
def decode0F (n : Nat) : Except Reject Instr :=
  match bits n 0 4 with
  | 0 => take n (.padd (fld n 21 4) (fld n 16 4) (fld n 11 5) (fld n 4 4))
  | 1 => take n (.psub (fld n 21 4) (fld n 16 4) (fld n 11 5) (fld n 4 4))
  | 2 => take n (.pdiff (fld n 21 5) (fld n 16 4) (fld n 11 4) (fld n 4 4))
  | 3 => take n (.palign (fld n 21 4) (fld n 16 4) (fld n 8 1) (fld n 4 4))
  | 4 => take n (.pbyte (fld n 21 5) (fld n 16 4))
  | 5 => take n (.pbit (fld n 21 4) (fld n 16 4) (fld n 11 5))
  | 6 => take n (.pinb (fld n 21 5) (fld n 16 4) (fld n 11 5) (fld n 4 4))
  | _ => .error .unassignedForm

/-- Major 0x10. -/
def decode10 (n : Nat) : Except Reject Instr :=
  match bits n 0 5 with
  | 0 => take n (.getc (fld n 16 10) (fld n 11 5))
  | 1 => if bits n 16 10 = 3 then take n (.setcRngs (fld n 11 5)) else take n (.setc (fld n 16 10) (fld n 11 5))
  | 2 => take n (.trap (fld n 16 10))
  | 3 => if bits n 5 1 = 1 then take n (.tretReplay) else take n (.tret)
  | 4 => take n (.fence (fld n 7 3) (fld n 5 2))
  | 5 => take n (.yield)
  | 6 => take n (.exit)
  | 7 => take n (.brk (fld n 16 10))
  | 8 => take n (.beat)
  | 9 => take n (.nop)
  | 10 => take n (.ldk (fld n 16 6) (fld n 11 5) (fld n 5 1))
  | _ => .error .unassignedForm

/-- Major 0x11. -/
def decode11 (n : Nat) : Except Reject Instr :=
  take n (.xim (fld n 0 26))

/-- Major 0x12. -/
def decode12 (n : Nat) : Except Reject Instr :=
  match bits n 0 2 with
  | 0 => take n (.dry (fld n 3 6) (fld n 2 1))
  | 1 => take n (.wetq (fld n 21 5) (fld n 3 6) (fld n 2 1))
  | 2 => take n (.dryAll)
  | _ => .error .unassignedForm

/-- Major 0x14. -/
def decode14 (n : Nat) : Except Reject Instr :=
  match bits n 0 4 with
  | 0 => take n (.vadd (fld n 22 4) (fld n 16 6) (fld n 10 6) (fld n 4 6))
  | 1 => take n (.vsub (fld n 22 4) (fld n 16 6) (fld n 10 6) (fld n 4 6))
  | 2 => take n (.vand (fld n 22 4) (fld n 16 6) (fld n 10 6) (fld n 4 6))
  | 3 => take n (.vor (fld n 22 4) (fld n 16 6) (fld n 10 6) (fld n 4 6))
  | 4 => take n (.vxor (fld n 22 4) (fld n 16 6) (fld n 10 6) (fld n 4 6))
  | 5 => take n (.vandn (fld n 22 4) (fld n 16 6) (fld n 10 6) (fld n 4 6))
  | 6 => match bits n 4 6 with | 0 => take n (.vnot (fld n 22 4) (fld n 16 6) (fld n 10 6)) | 1 => take n (.vabs (fld n 22 4) (fld n 16 6) (fld n 10 6)) | 2 => take n (.vneg (fld n 22 4) (fld n 16 6) (fld n 10 6)) | _ => .error .badField
  | 7 => take n (.vminI (fld n 22 4) (fld n 16 6) (fld n 10 6) (fld n 4 6))
  | 8 => take n (.vminB (fld n 22 4) (fld n 16 6) (fld n 10 6) (fld n 4 6))
  | 9 => take n (.vmaxI (fld n 22 4) (fld n 16 6) (fld n 10 6) (fld n 4 6))
  | 10 => take n (.vmaxB (fld n 22 4) (fld n 16 6) (fld n 10 6) (fld n 4 6))
  | 11 => take n (.vaddsatI (fld n 22 4) (fld n 16 6) (fld n 10 6) (fld n 4 6))
  | 12 => take n (.vaddsatB (fld n 22 4) (fld n 16 6) (fld n 10 6) (fld n 4 6))
  | 13 => take n (.vsubsatI (fld n 22 4) (fld n 16 6) (fld n 10 6) (fld n 4 6))
  | 14 => take n (.vsubsatB (fld n 22 4) (fld n 16 6) (fld n 10 6) (fld n 4 6))
  | _ => .error .unassignedForm

/-- Major 0x15. -/
def decode15 (n : Nat) : Except Reject Instr :=
  match bits n 8 2 with
  | 0 => take n (.vaddi (fld n 22 4) (fld n 16 6) (fld n 10 6) (fld n 0 8))
  | 1 => take n (.vandi (fld n 22 4) (fld n 16 6) (fld n 10 6) (fld n 0 8))
  | 2 => take n (.vori (fld n 22 4) (fld n 16 6) (fld n 10 6) (fld n 0 8))
  | _ => take n (.vshli (fld n 22 4) (fld n 16 6) (fld n 10 6) (fld n 0 5))

/-- Major 0x16. -/
def decode16 (n : Nat) : Except Reject Instr :=
  match bits n 0 4 with
  | 0 => take n (.vmul (fld n 22 4) (fld n 16 6) (fld n 10 6) (fld n 4 6))
  | 1 => take n (.vmulhI (fld n 22 4) (fld n 16 6) (fld n 10 6) (fld n 4 6))
  | 2 => take n (.vmulhB (fld n 22 4) (fld n 16 6) (fld n 10 6) (fld n 4 6))
  | 3 => take n (.vmad (fld n 22 4) (fld n 16 6) (fld n 10 6) (fld n 4 6))
  | _ => .error .unassignedForm

/-- Major 0x17. -/
def decode17 (n : Nat) : Except Reject Instr :=
  match bits n 0 4 with
  | 0 => take n (.vshl (fld n 22 4) (fld n 16 6) (fld n 10 6) (fld n 4 6))
  | 1 => take n (.vshr (fld n 22 4) (fld n 16 6) (fld n 10 6) (fld n 4 6))
  | 2 => take n (.vsar (fld n 22 4) (fld n 16 6) (fld n 10 6) (fld n 4 6))
  | 3 => take n (.vclz (fld n 22 4) (fld n 16 6) (fld n 10 6))
  | 4 => take n (.vpopc (fld n 22 4) (fld n 16 6) (fld n 10 6))
  | 5 => take n (.vbfx (fld n 22 4) (fld n 16 6) (fld n 10 6) (fld n 4 6))
  | 6 => take n (.vbfxI (fld n 22 4) (fld n 16 6) (fld n 10 6) (fld n 4 6))
  | 7 => take n (.vbfi (fld n 22 4) (fld n 16 6) (fld n 10 6) (fld n 4 6))
  | _ => .error .unassignedForm

/-- Major 0x18. -/
def decode18 (n : Nat) : Except Reject Instr :=
  match bits n 0 4 with
  | 0 => take n (.fadd (fld n 22 4) (fld n 16 6) (fld n 10 6) (fld n 4 6))
  | 1 => take n (.fsub (fld n 22 4) (fld n 16 6) (fld n 10 6) (fld n 4 6))
  | 2 => take n (.fmul (fld n 22 4) (fld n 16 6) (fld n 10 6) (fld n 4 6))
  | 3 => take n (.fmin (fld n 22 4) (fld n 16 6) (fld n 10 6) (fld n 4 6))
  | 4 => take n (.fmax (fld n 22 4) (fld n 16 6) (fld n 10 6) (fld n 4 6))
  | 5 => take n (.fabs (fld n 22 4) (fld n 16 6) (fld n 10 6))
  | 6 => take n (.fneg (fld n 22 4) (fld n 16 6) (fld n 10 6))
  | 7 => take n (.frnd (fld n 22 4) (fld n 16 6) (fld n 10 6) (fld n 4 3))
  | 8 => take n (.fclass (fld n 22 4) (fld n 16 6) (fld n 10 6))
  | _ => .error .unassignedForm

/-- Major 0x19. -/
def decode19 (n : Nat) : Except Reject Instr :=
  match bits n 0 3 with
  | 0 => take n (.faddPacked (fld n 22 4) (fld n 16 6) (fld n 10 6) (fld n 4 6) (fld n 3 1))
  | 1 => take n (.fsubPacked (fld n 22 4) (fld n 16 6) (fld n 10 6) (fld n 4 6) (fld n 3 1))
  | 2 => take n (.fmulPacked (fld n 22 4) (fld n 16 6) (fld n 10 6) (fld n 4 6) (fld n 3 1))
  | 3 => take n (.fminPacked (fld n 22 4) (fld n 16 6) (fld n 10 6) (fld n 4 6) (fld n 3 1))
  | 4 => take n (.fmaxPacked (fld n 22 4) (fld n 16 6) (fld n 10 6) (fld n 4 6) (fld n 3 1))
  | 5 => match bits n 7 3 with | 0 => take n (.fabsPacked (fld n 22 4) (fld n 16 6) (fld n 10 6) (fld n 3 1)) | 1 => take n (.fnegPacked (fld n 22 4) (fld n 16 6) (fld n 10 6) (fld n 3 1)) | 2 => take n (.fclassPacked (fld n 22 4) (fld n 16 6) (fld n 10 6) (fld n 3 1)) | 3 => take n (.frndPacked (fld n 22 4) (fld n 16 6) (fld n 10 6) (fld n 4 3) (fld n 3 1)) | _ => .error .badField
  | 7 => take n (.fdot2 (fld n 22 4) (fld n 16 6) (fld n 10 6) (fld n 4 6) (fld n 3 1))
  | _ => .error .unassignedForm

/-- Major 0x1A. -/
def decode1A (n : Nat) : Except Reject Instr :=
  match bits n 0 2 with
  | 0 => take n (.fma (fld n 22 4) (fld n 16 6) (fld n 10 6) (fld n 4 6) (fld n 2 2))
  | 1 => take n (.fms (fld n 22 4) (fld n 16 6) (fld n 10 6) (fld n 4 6) (fld n 2 2))
  | 2 => take n (.fnma (fld n 22 4) (fld n 16 6) (fld n 10 6) (fld n 4 6) (fld n 2 2))
  | _ => .error .unassignedForm

/-- Major 0x1B. -/
def decode1B (n : Nat) : Except Reject Instr :=
  if bits n 19 1 = 1 then (if bits n 0 4 = 6 then take n (.fcmpu (fld n 22 4) (fld n 16 3) (fld n 10 6) (fld n 4 6)) else take n (.vcmpF (fld n 22 4) (fld n 16 3) (fld n 10 6) (fld n 4 6) (fld n 0 4))) else take n (.vcmp (fld n 22 4) (fld n 16 3) (fld n 10 6) (fld n 4 6) (fld n 0 4))

/-- Major 0x1C. -/
def decode1C (n : Nat) : Except Reject Instr :=
  match bits n 0 4 with
  | 0 => take n (.vsel (fld n 22 4) (fld n 16 6) (fld n 10 6) (fld n 4 6))
  | 1 => take n (.vmov (fld n 22 4) (fld n 16 6) (fld n 10 6))
  | 2 => take n (.vmovi (fld n 22 4) (fld n 16 6) (fld n 4 12))
  | 3 => take n (.vfromg (fld n 22 4) (fld n 16 6) (fld n 10 5))
  | 4 => take n (.vlane (fld n 22 4) (fld n 16 6) (fld n 4 6))
  | 5 => take n (.pand (fld n 22 4) (fld n 16 3) (fld n 10 3) (fld n 4 3))
  | 6 => take n (.por (fld n 22 4) (fld n 16 3) (fld n 10 3) (fld n 4 3))
  | 7 => take n (.pxor (fld n 22 4) (fld n 16 3) (fld n 10 3) (fld n 4 3))
  | 8 => take n (.pnot (fld n 22 4) (fld n 16 3) (fld n 10 3))
  | 9 => take n (.pmov (fld n 22 4) (fld n 16 3) (fld n 10 3))
  | _ => .error .unassignedForm

/-- Major 0x1D. -/
def decode1D (n : Nat) : Except Reject Instr :=
  match bits n 0 4 with
  | 0 => take n (.cvtF32ToX (fld n 22 4) (fld n 16 6) (fld n 10 6) (fld n 6 4) (fld n 4 2))
  | 1 => take n (.vunpack (fld n 22 4) (fld n 16 6) (fld n 10 6) (fld n 5 1) (fld n 4 1))
  | 2 => take n (.cvtI32ToX (fld n 22 4) (fld n 16 6) (fld n 10 6) (fld n 6 4) (fld n 4 2))
  | 4 => take n (.cvtXToF32 (fld n 22 4) (fld n 16 6) (fld n 10 6) (fld n 6 4) (fld n 4 2))
  | 6 => take n (.cvtXToI32 (fld n 22 4) (fld n 16 6) (fld n 10 6) (fld n 6 4) (fld n 4 2))
  | 8 => take n (.vquant (fld n 22 4) (fld n 16 6) (fld n 10 6) (fld n 8 2) (fld n 6 2) (fld n 4 2) (fld n 0 2))
  | 9 => take n (.vquant (fld n 22 4) (fld n 16 6) (fld n 10 6) (fld n 8 2) (fld n 6 2) (fld n 4 2) (fld n 0 2))
  | 10 => take n (.vquant (fld n 22 4) (fld n 16 6) (fld n 10 6) (fld n 8 2) (fld n 6 2) (fld n 4 2) (fld n 0 2))
  | 11 => take n (.vquant (fld n 22 4) (fld n 16 6) (fld n 10 6) (fld n 8 2) (fld n 6 2) (fld n 4 2) (fld n 0 2))
  | 12 => take n (.vdequant (fld n 22 4) (fld n 16 6) (fld n 10 6) (fld n 4 2))
  | 14 => take n (.vpackF16 (fld n 22 4) (fld n 16 6) (fld n 10 6) (fld n 4 6))
  | 15 => take n (.vpackBf16 (fld n 22 4) (fld n 16 6) (fld n 10 6) (fld n 4 6))
  | _ => .error .unassignedForm

/-- Major 0x1E. -/
def decode1E (n : Nat) : Except Reject Instr :=
  match bits n 0 4 with
  | 0 => take n (.frcp (fld n 22 4) (fld n 16 6) (fld n 10 6))
  | 1 => take n (.frsqrt (fld n 22 4) (fld n 16 6) (fld n 10 6))
  | 2 => take n (.fsqrt (fld n 22 4) (fld n 16 6) (fld n 10 6))
  | 3 => take n (.fexp2 (fld n 22 4) (fld n 16 6) (fld n 10 6))
  | 4 => take n (.flog2 (fld n 22 4) (fld n 16 6) (fld n 10 6))
  | 5 => take n (.fsin (fld n 22 4) (fld n 16 6) (fld n 10 6))
  | 6 => take n (.fcos (fld n 22 4) (fld n 16 6) (fld n 10 6))
  | 7 => take n (.ftanh (fld n 22 4) (fld n 16 6) (fld n 10 6))
  | _ => .error .unassignedForm

/-- Major 0x1F. -/
def decode1F (n : Nat) : Except Reject Instr :=
  match bits n 0 4 with
  | 0 => take n (.vperm (fld n 22 4) (fld n 16 6) (fld n 10 6) (fld n 4 6))
  | 1 => take n (.vpermM (fld n 22 4) (fld n 16 6) (fld n 10 6) (fld n 4 6))
  | 2 => take n (.vshufx (fld n 22 4) (fld n 16 6) (fld n 10 6) (fld n 8 2) (fld n 4 4))
  | 3 => take n (.vshufy (fld n 22 4) (fld n 16 6) (fld n 10 6) (fld n 8 2) (fld n 4 4))
  | 4 => take n (.vbcast (fld n 22 4) (fld n 16 6) (fld n 10 6) (fld n 4 6))
  | 5 => take n (.vred (fld n 22 4) (fld n 16 6) (fld n 10 6) (fld n 4 4))
  | 6 => take n (.vscan (fld n 22 4) (fld n 16 6) (fld n 10 6) (fld n 4 4))
  | 7 => take n (.vmatch (fld n 22 4) (fld n 16 6) (fld n 10 6))
  | 8 => take n (.vpick (fld n 22 4) (fld n 16 5) (fld n 10 6))
  | 9 => take n (.vvote (fld n 22 4) (fld n 16 5) (fld n 10 3))
  | _ => .error .unassignedForm

/-- Major 0x20. -/
def decode20 (n : Nat) : Except Reject Instr :=
  take n (.ldw (fld n 22 4) (fld n 16 6) (fld n 10 6) (fld n 7 3) (fld n 4 3) (fld n 0 4))

/-- Major 0x21. -/
def decode21 (n : Nat) : Except Reject Instr :=
  take n (.stw (fld n 22 4) (fld n 16 6) (fld n 10 6) (fld n 7 3) (fld n 4 3) (fld n 0 4))

/-- Major 0x22. -/
def decode22 (n : Nat) : Except Reject Instr :=
  match bits n 4 6 with
  | 0 => take n (.ldeB (fld n 22 4) (fld n 16 6) (fld n 10 6) (fld n 0 4))
  | 1 => take n (.ldeI (fld n 22 4) (fld n 16 6) (fld n 10 6) (fld n 0 4))
  | 2 => take n (.ste (fld n 22 4) (fld n 16 6) (fld n 10 6) (fld n 0 4))
  | _ => .error .unassignedForm

/-- Major 0x23. -/
def decode23 (n : Nat) : Except Reject Instr :=
  match bits n 4 6 with
  | 0 => take n (.vamoAdd (fld n 22 4) (fld n 16 6) (fld n 10 6) (fld n 0 4))
  | 1 => take n (.vamoMinI (fld n 22 4) (fld n 16 6) (fld n 10 6) (fld n 0 4))
  | 2 => take n (.vamoMaxI (fld n 22 4) (fld n 16 6) (fld n 10 6) (fld n 0 4))
  | 3 => take n (.vamoAnd (fld n 22 4) (fld n 16 6) (fld n 10 6) (fld n 0 4))
  | 4 => take n (.vamoOr (fld n 22 4) (fld n 16 6) (fld n 10 6) (fld n 0 4))
  | 5 => take n (.vamoXor (fld n 22 4) (fld n 16 6) (fld n 10 6) (fld n 0 4))
  | 6 => take n (.vamoSwap (fld n 22 4) (fld n 16 6) (fld n 10 6) (fld n 0 4))
  | 7 => take n (.vamoCas (fld n 22 4) (fld n 16 6) (fld n 10 6) (fld n 0 4))
  | 8 => take n (.vamoBfadd (fld n 22 4) (fld n 16 6) (fld n 10 6) (fld n 0 4))
  | 9 => take n (.vamoMinB (fld n 22 4) (fld n 16 6) (fld n 10 6) (fld n 0 4))
  | 10 => take n (.vamoMaxB (fld n 22 4) (fld n 16 6) (fld n 10 6) (fld n 0 4))
  | _ => .error .unassignedForm

/-- Major 0x24. -/
def decode24 (n : Nat) : Except Reject Instr :=
  take n (.lcopy (fld n 21 5) (fld n 16 5) (fld n 10 6) (fld n 4 6) (fld n 3 1) (fld n 0 3))

/-- Major 0x25. -/
def decode25 (n : Nat) : Except Reject Instr :=
  match bits n 0 3 with
  | 0 => take n (.own (fld n 3 3))
  | 1 => take n (.give (fld n 21 5) (fld n 3 3))
  | 2 => take n (.share (fld n 3 3))
  | 3 => take n (.claim (fld n 3 3))
  | 4 => take n (.pass (fld n 21 5) (fld n 3 3))
  | 5 => take n (.probe (fld n 21 5) (fld n 16 5))
  | _ => .error .unassignedForm

/-- Major 0x27. -/
def decode27 (n : Nat) : Except Reject Instr :=
  match bits n 0 3 with
  | 0 => take n (.rset (fld n 21 5) (fld n 3 3))
  | 1 => take n (.rget (fld n 21 5) (fld n 3 3))
  | 2 => take n (.rmov (fld n 6 3) (fld n 3 3))
  | 3 => take n (.radj (fld n 21 5) (fld n 16 5) (fld n 9 3) (fld n 3 3))
  | _ => .error .unassignedForm

/-- Major 0x28. -/
def decode28 (n : Nat) : Except Reject Instr :=
  match bits n 0 2 with
  | 0 => take n (.scroll (fld n 23 3) (fld n 14 9) (fld n 5 9) (fld n 2 3))
  | 1 => take n (.scrollReg (fld n 23 3) (fld n 14 5) (fld n 5 5) (fld n 2 3))
  | 2 => take n (.scrollResume)
  | _ => .error .unassignedForm

/-- Major 0x29. -/
def decode29 (n : Nat) : Except Reject Instr :=
  match bits n 0 2 with
  | 0 => if bits n 2 3 = 1 then take n (.pfillZero (fld n 23 3)) else take n (.pfill (fld n 23 3))
  | 1 => take n (.pfillScalar (fld n 23 3) (fld n 14 5))
  | _ => .error .unassignedForm

/-- Major 0x2A. -/
def decode2A (n : Nat) : Except Reject Instr :=
  take n (.mloop (fld n 24 2) (fld n 18 6) (fld n 13 5) (fld n 8 5) (fld n 3 5) (fld n 1 2) (fld n 0 1))

/-- Major 0x2B. -/
noncomputable def decode2B (n : Nat) : Except Reject Instr :=
  match bits n 0 4 with
  | 0 => take n (.mcommit)
  | 1 => take n (.mwait (fld n 4 3))
  | 2 => take n (.zclr (fld n 4 2))
  | 3 => take n (.zld (fld n 21 5) (fld n 4 2))
  | 4 => take n (.zst (fld n 21 5) (fld n 4 2))
  | 5 => take n (.zmov (fld n 6 2) (fld n 4 2))
  | 6 => if bits n 12 1 = 1 then take n (.zcvtReg (fld n 16 6) (fld n 13 1) (fld n 10 2) (fld n 8 2) (fld n 4 2)) else take n (.zcvt (fld n 21 5) (fld n 13 1) (fld n 10 2) (fld n 8 2) (fld n 4 2))
  | _ => .error .unassignedForm

/-- Major 0x2D. -/
noncomputable def decode2D (n : Nat) : Except Reject Instr :=
  match bits n 0 3 with
  | 0 => take n (.binit (fld n 21 5) (fld n 16 5) (fld n 3 1))
  | 1 => take n (.barrive (fld n 21 5) (fld n 16 5) (fld n 12 4) (fld n 3 1))
  | 2 => take n (.bwait (fld n 21 5) (fld n 16 5))
  | 3 => take n (.btest (fld n 21 5) (fld n 16 5))
  | 4 => take n (.bexpect (fld n 21 5) (fld n 16 5))
  | _ => .error .unassignedForm

/-- Major 0x2E. -/
noncomputable def decode2E (n : Nat) : Except Reject Instr :=
  match bits n 0 3 with
  | 0 => take n (.semwait (fld n 21 4) (fld n 16 5) (fld n 6 10) (fld n 3 3))
  | 1 => take n (.sempost (fld n 21 4) (fld n 16 5) (fld n 6 10) (fld n 3 3))
  | 2 => take n (.park (fld n 21 4) (fld n 16 5) (fld n 3 3))
  | _ => .error .unassignedForm

/-- Major 0x2F. -/
noncomputable def decode2F (n : Nat) : Except Reject Instr :=
  match bits n 0 11 with
  | 0 => take n (.qkick (fld n 21 5) (fld n 16 5) (fld n 11 5))
  | 1 => take n (.qdrain)
  | 2 => take n (.qstat (fld n 21 5))
  | 3 => take n (.qcancel (fld n 21 5) (fld n 16 5))
  | _ => .error .unassignedForm

/-- Major 0x30. -/
noncomputable def decode30 (n : Nat) : Except Reject Instr :=
  match bits n 0 3 with
  | 0 => take n (.ssubNib (fld n 16 5) (fld n 10 6))
  | 1 => take n (.ssubCell (fld n 21 5) (fld n 16 5) (fld n 10 6) (fld n 6 3))
  | 2 => take n (.sunsub (fld n 10 6))
  | 3 => take n (.spub (fld n 21 5) (fld n 10 6))
  | _ => .error .unassignedForm

/-- Major 0x31. -/
noncomputable def decode31 (n : Nat) : Except Reject Instr :=
  match bits n 0 4 with
  | 0 => take n (.coll (fld n 21 5) (fld n 16 5))
  | _ => .error .unassignedForm

/-- Major 0x32. -/
noncomputable def decode32 (n : Nat) : Except Reject Instr :=
  match bits n 0 2 with
  | 0 => take n (.stepb (fld n 21 5) (fld n 16 5) (fld n 2 12))
  | 1 => take n (.stepe (fld n 2 12))
  | _ => .error .unassignedForm

/-- Major 0x33. -/
noncomputable def decode33 (n : Nat) : Except Reject Instr :=
  match bits n 0 4 with
  | 0 => take n (.mark (fld n 21 5) (fld n 4 12))
  | _ => .error .unassignedForm

/-- The instruction of a word at an instruction position, given as a number: first the major, then
the selector, then the fields. -/
noncomputable def decodeNat (n : Nat) : Except Reject Instr :=
  match bits n 26 6 with
  | 0x01 => decode01 n
  | 0x02 => decode02 n
  | 0x03 => decode03 n
  | 0x04 => decode04 n
  | 0x05 => decode05 n
  | 0x06 => decode06 n
  | 0x08 => decode08 n
  | 0x09 => decode09 n
  | 0x0A => decode0A n
  | 0x0B => decode0B n
  | 0x0C => decode0C n
  | 0x0D => decode0D n
  | 0x0E => decode0E n
  | 0x0F => decode0F n
  | 0x10 => decode10 n
  | 0x11 => decode11 n
  | 0x12 => decode12 n
  | 0x14 => decode14 n
  | 0x15 => decode15 n
  | 0x16 => decode16 n
  | 0x17 => decode17 n
  | 0x18 => decode18 n
  | 0x19 => decode19 n
  | 0x1A => decode1A n
  | 0x1B => decode1B n
  | 0x1C => decode1C n
  | 0x1D => decode1D n
  | 0x1E => decode1E n
  | 0x1F => decode1F n
  | 0x20 => decode20 n
  | 0x21 => decode21 n
  | 0x22 => decode22 n
  | 0x23 => decode23 n
  | 0x24 => decode24 n
  | 0x25 => decode25 n
  | 0x27 => decode27 n
  | 0x28 => decode28 n
  | 0x29 => decode29 n
  | 0x2A => decode2A n
  | 0x2B => decode2B n
  | 0x2D => decode2D n
  | 0x2E => decode2E n
  | 0x2F => decode2F n
  | 0x30 => decode30 n
  | 0x31 => decode31 n
  | 0x32 => decode32 n
  | 0x33 => decode33 n
  | _ => .error .reservedMajor

/-- The instruction of a code word (R84, R408). -/
noncomputable def decode (w : BitVec 32) : Except Reject Instr := decodeNat w.toNat

/-- The code words of a list of bytes, the first byte at the lowest address (R65). -/
def wordOfBytes : List (BitVec 8) → Option (BitVec 32)
  | [a, b, c, d] => some (d ++ c ++ b ++ a)
  | _ => none

/-- The bytes of a code word in the order they lie in memory (R65). -/
def bytesOfWord (w : BitVec 32) : List (BitVec 8) :=
  [fld w.toNat 0 8, fld w.toNat 8 8, fld w.toNat 16 8, fld w.toNat 24 8]

/-- The decoder on the bytes of one word. -/
noncomputable def decodeBytes (l : List (BitVec 8)) : Option Instr :=
  match wordOfBytes l with
  | some w => (match decode w with | .ok i => some i | .error _ => none)
  | none => none

/-- The instruction the decoder reads from a word given as a number of `nbits` bits. Every word of
the C4 is 32 bits wide. -/
noncomputable def decodeTableWord (nbits w : Nat) : Option Instr :=
  if nbits ≤ 32 then decodeBytes (bytesOfWord (BitVec.ofNat 32 (w % 2 ^ nbits))) else none

/-- The fields of a clause header (Table 04-1): HOLD, T, CLASS and N. -/
structure Header where
  hold : Bool
  temps : Bool
  cls : Nat
  n : Nat
  deriving DecidableEq, Repr

def headerOf (w : BitVec 32) : Header :=
  { hold := bits w.toNat 8 1 = 1, temps := bits w.toNat 7 1 = 1, cls := bits w.toNat 4 3, n := bits w.toNat 0 4 }

/-- R67: bits [31:9] zero and N not 0. -/
def headerOk (w : BitVec 32) : Bool := w.toNat / 512 = 0 && bits w.toNat 0 4 ≠ 0

/-- The class of a major (Table 04-2); XIM takes the class of the word after it. -/
def classOfMajor (mj : Nat) : Nat :=
  if mj ≤ 0x0F then 0
  else if mj = 0x10 ∨ mj = 0x32 ∨ mj = 0x33 then 6
  else if mj ≤ 0x1F then 1
  else if mj ≤ 0x25 then 2
  else if mj ≤ 0x29 then 4
  else if mj ≤ 0x2B then 3
  else 5

end Sys2Proof
end

