-- ==== Sys2Proof/Config.lean ====
section
/-! DEFINITION. What an implementation fixes and the manual leaves open: the free values. They are
constants without a body, so nothing can be proved of what they are. -/

namespace Sys2Proof

/-- R359: the power, in W, that Ductus predicts for a die from the clock steps, voltages and refill rates of its
islands and their permit use in the last interval. The manual gives no formula (log 9). -/
opaque Config.predictedPower (die : Nat) (clocks voltages refills permitUse : List Nat) : Nat

/-- R357: what the sensor of a stacked layer reads at a device time: its margin below 85 °C, in 0.1 °C, two's
complement. -/
opaque Config.layerMargin (die layer time : Nat) : BitVec 16

/-- R351: the estimated remaining life, in hours, that the monitors of a cluster report. -/
opaque Config.ageing (cluster : Nat) (n : Nat) : BitVec 32

/-- R372: whether the Ed25519 signature over a manifest verifies with the keys in the ROM. -/
opaque Config.edVerifies (manifest : List (BitVec 8)) : Bool

/-- R372: whether the ML-DSA-65 signature over a manifest verifies with the keys in the ROM. -/
opaque Config.mlVerifies (manifest : List (BitVec 8)) : Bool

/-- R372: whether every firmware image of a slot matches its SHA-512 digest in the manifest. -/
opaque Config.imagesMatch (slot : List (BitVec 8)) : Bool

/-- R372: the security version of a manifest. -/
opaque Config.securityVersion (manifest : List (BitVec 8)) : Nat

/-- R373: the 256-bit seed from the PUF response of a boot and the helper data, when the response
can be reconstructed. -/
opaque Config.pufSeed (boots : Nat) (helper : List (BitVec 8)) : Option (BitVec 256)

/-- R374: the Ed25519 signature of the responder over a transcript. -/
opaque Config.edSign (seed : BitVec 256) (transcript : Nat) : BitVec 512

/-- R374: the ML-DSA-65 signature of the responder over a transcript. -/
opaque Config.mlSign (seed : BitVec 256) (transcript : Nat) : Nat

/-- R374: the digest of the boot ROM. -/
opaque Config.romDigest : BitVec 512

/-- R374: the digest that the measurements use. -/
opaque Config.digest (data : List (BitVec 8)) : BitVec 512

/-- R372: the manifest that a slot of the flash holds before its images. -/
opaque Config.manifest (slot : List (BitVec 8)) : List (BitVec 8)

/-- R239, R341, R373: the bytes of the calibration and health record that names these holes, and these retired groups of the
channels and whether each failed. -/
opaque Config.healthRecord (holes : List Nat) (channels : List (Nat × List Nat × Bool)) : List (BitVec 8)

/-- R373, R384: the number of the package that the pin straps set. -/
opaque Config.strapPackage (straps : BitVec 64) : BitVec 12

/-- R371: what a sensor of the cold plate reads at a device time: 0 inlet temperature, 1 outlet temperature, 2 flow. -/
opaque Config.coldPlate (sensor time : Nat) : BitVec 16

/-- R277: the index of the engine that runs the copy of a command packet; the manual gives none. -/
opaque Config.packetEngine : Nat

/-- R294, R341: the bits of an uncorrectable word as an engine reads them; the manual gives no value. -/
opaque Config.badBits (n : Nat) : BitVec 512

/-- R189: the quill of a die that moves the lines of a team that is saved or restored; the manual gives none. -/
opaque Config.saveQuill (team : Nat) : Nat

/-- R334: what a save leaves in the save area, whose layout belongs to the part alone. -/
opaque Config.saveImage (n : Nat) : Nat

/-- Log 113: what an engine reads of its own words (packets, ring counters) from an uncorrectable word at a bit address. -/
opaque Config.deadBits (a : Nat) : Nat

end Sys2Proof
end

