-- ==== Sys2Proof/Machine/State.lean ====
section
/-! DEFINITION. The state of a Certen C4 package: every piece of state the manual names, as plain
data. `State.me` is the context of the scribe that issues; `State.others` holds the other contexts.
Tables (`Tbl`) list only what differs from their default. -/

namespace Sys2Proof.Machine

open Sys2Proof

/-! ## Lines, barriers -/

/-- The state of a line (Table 09-2, STATE). -/
inductive OwnSt where
  | free | own | shared | engine
  deriving DecidableEq, Repr

/-- Line metadata (Table 09-2), and the engine's own record of a line it holds (R189, R192): the
scribe on whose behalf it holds the line and the kick's land-shared flag. -/
structure LineMeta where
  tags : BitVec 4 := 0
  poison : Bool := false
  present : Bool := true
  st : OwnSt := .free
  owner : BitVec 14 := 0
  holder : BitVec 14 := 0
  landShared : Bool := false
  /-- the engine's record names no scribe: a COPY packet's copy holds the line -/
  packet : Bool := false
  deriving DecidableEq, Repr

/-- The barrier unit's hidden record of a live object (R261). `arrivals` are the arrivals counted in
the current phase with their times, in order; `held` the scribes whose arrival is held. -/
structure BarrierRec where
  team : BitVec 14 := 0
  participants : List (BitVec 14) := []
  dropping : List (BitVec 14) := []
  arrivals : List (BitVec 14 × Nat) := []
  held : List (BitVec 14) := []
  /-- the participant whose exit broke the object, or the scribe whose exit will break it at the
  completion of the phase (R268) -/
  broken : Option (BitVec 14) := none
  breakAtCompletion : Option (BitVec 14) := none
  /-- the bit counts of landings that the unit has still to subtract, oldest first: while the team is saved (R396), while a loop reads
  the object's line (R225, R262), and while its island is in retention (R353) -/
  owed : List Nat := []
  deriving DecidableEq, Repr

/-! ## Wet registers -/

/-- The kinds of a wet record (R149). -/
inductive WetKind where
  | int64 | int32 | step
  deriving DecidableEq, Repr

/-- The operations of a floating-point step (Table 07-2). -/
inductive StepOp where
  | add | mul | fma
  deriving DecidableEq, Repr

/-- A floating-point step (R149, R152): the operation, the negation flag, the captured rounding
fields, and in mode 5 the draw of each wet lane. -/
structure WetStep where
  op : StepOp
  neg : Bool
  rm : Nat
  daz : Bool
  ftz : Bool
  draws : Tbl Lane
  deriving DecidableEq, Repr

/-- A wet record (R149). The offset o is the register's own contents. `fault` is the underlying
cause once the record is faulted. -/
structure WetRec where
  tag : Nat
  kind : WetKind
  a : Word
  step : Option WetStep
  mask : Word
  fault : Option Nat
  deriving DecidableEq, Repr

/-- A symbol tag in use (R148), with what is needed to replay its access (R157, R162): the capability,
bit address, width, extension, order and scope, the address of its word, and for an atomic its
operation and operand. `x` is the value the access returns; for a lane load `lanes` gives the plane
bit address each wet lane reads. -/
structure TagRec where
  scalar : Bool
  cap : Cap
  space : Nat
  addr : Nat
  width : Nat
  signed : Bool
  order : Nat
  scope : Nat
  pc : Word
  amo : Option (Nat × Word × Word)
  /-- the atomic has been performed at its home -/
  updated : Bool
  x : Word
  lanes : Tbl Nat
  /-- of a lane load: what it has read so far, of the first (2·lane) and second (2·lane + 1) line a lane touches, and whether
  that line was poisoned (R160, R311) -/
  seen : Tbl (Nat × Bool)
  poisoned : Bool
  fault : Option Nat
  /-- 0 once the access has been performed; else 1 + the fault-queue entry it waits on, or `noEntry` -/
  queued : Nat
  /-- a faulted access that has been performed since, in its place before a later one of the scribe to its atom: `x` is its value (R160) -/
  kept : Bool := false
  /-- of a lane load of 64 bits: which of its words this tag gives (R190) -/
  part : Nat := 0
  deriving DecidableEq, Repr

/-! ## Engines of a scribe -/

/-- A scroll or plane fill that has passed its checks (R245, R249, R257). -/
structure PlaneJob where
  fill : Bool
  reg : Nat
  mode : Nat
  rect : Word
  dx : Int
  dy : Int
  dxd : Int
  dyd : Int
  /-- displacement counted before this run of a resumed scroll (R256) -/
  dx0 : Int
  dy0 : Int
  fillv : Lane
  pattern : Word
  /-- a `.move` that will halt: 2 plane edge, 3 partition edge (R252) -/
  halt : Nat
  lines : List Nat
  metHole : Bool
  deriving DecidableEq, Repr

/-- The operand latch of the nib (R217): va, AFMT, n and the bits in every lane, word i of lane l at key
32·l + i; `poison` lists the keys of poisoned words. -/
structure Latch where
  va : Nat
  afmt : Nat
  n : Nat
  words : Tbl Lane
  poison : List Nat
  deriving DecidableEq, Repr

/-- Why a scribe is parked or waits (R231). -/
inductive Park where
  | wetOperand | tag | record | line | ownership | loopLine | nibFull | batches | mwait | tile
  | barrierPhase | barrierRecord | heldArrival | checkpoint | semaphore | watch | planeQueue | engineOrder
  | rulingUnit | qdrain | qcancel | collSlot | permit | faultQueue | trippedLayer | halting | exiting
  | retention | shadow | fence | memPermit | rectReg | landing | queuedAccess | operand
  /-- a blocking load of the plane whose island is to wake; a store or a code fetch that a layer or the fault queue holds back (R358) -/
  | wakingLoad | outgoing
  deriving DecidableEq, Repr

/-- A parked SEMWAIT or PARK: the atom it watches (R271). `n` is what a SEMWAIT takes; `changed` is set by
a write that changes the atom, which lies at its home: byte `home` of global memory, or the plane or another package at the bit
address `addr`. -/
structure Watch where
  sem : Bool
  space : Nat
  addr : Nat
  home : Option Nat
  n : Nat
  changed : Bool
  deriving DecidableEq, Repr

/-- What a scribe context is doing. -/
inductive Life where
  /-- no resident scribe -/
  | free
  | running
  /-- stopped by DEBUG_STOP, held in place (R378) -/
  | debugHeld
  /-- stopped on a double fault or a consumed error; its team acts next (R175, R349) -/
  | failed
  /-- stopped with PREEMPT or WATCHDOG and saved (R334, R336) -/
  | saved
  | exited
  | killed
  deriving DecidableEq, Repr

/-! ## The scribe -/

/-- What the die dispatcher fixes at the start (R11, R18, R183-R185, R321). -/
structure Place where
  id : BitVec 14 := 0
  team : BitVec 14 := 0
  asid : BitVec 14 := 0
  launch : Nat := 0
  /-- 0: 16 lanes, 1: 32, 2: 64 -/
  width : Nat := 2
  ox : Nat := 0
  oy : Nat := 0
  vregs : Nat := 16
  tiles : Nat := 0
  firstLine : Nat := 0
  lines : Nat := 0
  undo : Nat := 0
  vBase : Nat := 0
  zBase : Nat := 0
  persist : Bool := false
  strict : Bool := false
  codeBase : Word := 0
  launchPos : Word := 0
  /-- the leader of a shadow, or the shadow of a leader (R350) -/
  pair : Option (BitVec 14) := none
  shadow : Bool := false
  deriving DecidableEq, Repr

/-- The registers. Keys: x holds the scalar words, g by number and stack entry e at 8 + e; v by 64·register + lane, t0-t3 as registers
64-67 and their copies held aside by a trap as 68-71; q by number, a mask of lanes; z by 64·(64·tile + lane) + element; rng by lane. Poison marks:
`pv` 1 for a poisoned word, 2 for a lane that resolved from a poisoned line (R159, R177); `ps` keyed
as x. -/
structure Regs where
  x : Tbl Word := []
  c : Tbl Cap := []
  v : Tbl Lane := []
  q : Tbl Word := []
  e : Tbl Word := []
  z : Tbl Lane := []
  zPoison : Tbl Bool := []
  rng : Tbl Lane := []
  pv : Tbl Nat := []
  ps : Tbl Bool := []
  pcap : Tbl Bool := []
  k : Tbl Lane := []
  deriving DecidableEq, Repr

/-- Program position and control registers. -/
structure Ctl where
  depth : Nat := 0
  heldBase : Nat := 0
  pc : Word := 0
  codeCap : Cap := ⟨false, 0⟩
  header : BitVec 32 := 0
  remain : Nat := 0
  xim : Option (BitVec 26) := none
  handler : Bool := false
  fpm : Word := 0
  part : Word := 0
  seed : Lane := 0
  tcause : Word := 0
  tpc : Word := 0
  tinfo : Word := 0
  taddr : Word := 0
  tstatus : Word := 0
  savedPc : Word := 0
  savedHeader : BitVec 32 := 0
  savedRemain : Nat := 0
  tvec : Word := 0
  scs : Word := 0
  wets : Lane := 0
  holef : Word := 0
  fillv : Lane := 0
  qring : Word := 0
  stepId : Lane := 0
  deadline : Word := 0
  slackNs : Lane := 0
  stepOpen : Bool := false
  risked : Bool := false
  work : Nat := 0
  done : Nat := 0
  deriving DecidableEq, Repr

/-- Wet records and tags. `s` is keyed as `Regs.x`; `v` by register (64-67 for t0-t3, 68-71 for t0-t3
held aside). -/
structure Wets where
  s : Tbl WetRec := []
  v : Tbl WetRec := []
  tags : Tbl TagRec := []
  next : Nat := 0
  deriving DecidableEq, Repr

/-- Issue state, engines and pending causes of a scribe. -/
structure Run where
  life : Life := .free
  /-- the stop cause recorded in a saved or held context (R174) -/
  stopCause : Nat := 0
  park : Option Park := none
  /-- something has happened since it parked, so its word may be tried again (the model's own, log 1) -/
  retry : Bool := false
  stamp : Nat := 0
  ready : Nat := 0
  urgent : Bool := false
  yielded : Bool := false
  /-- the same for the clause that a handler interrupted (R113, R168) -/
  heldYield : Bool := false
  deferred : Bool := false
  /-- pending deliverable causes, keyed by code: 1 + coalesced raisings (R174) -/
  pending : Tbl Nat := []
  /-- TINFO of a pending ERROR_REPORT: the newest record (R364) -/
  errorInfo : Word := 0
  /-- TINFO of a pending DEADLINE_RISK: STEPID at the newest raising (R360) -/
  riskInfo : Word := 0
  openBatch : Nat := 0
  /-- open and outstanding batches: batch number to loops not yet completed; closed ones only in
  `closed` -/
  batches : Tbl Nat := []
  closed : List Nat := []
  /-- flags of completed loops whose batch has not completed (R40): bit 0 NV, bit 2 OF -/
  batchFlags : Tbl (BitVec 6) := []
  latch : Option Latch := none
  jobs : List PlaneJob := []
  /-- an arrival on a CK phase, counted, whose completion this scribe waits for (R346), and an arrival
  that is held (R265): object, destination code, and the token or whether it drops -/
  ckWait : Option (Nat × Nat × Bool) := none
  heldArr : Option (Nat × Nat × Bool) := none
  /-- the object a parked BWAIT waits on, and whether the phase it waited for has completed -/
  waitOn : Option Nat := none
  woken : Bool := false
  /-- the identifier reported when a BINIT renewed or an exit broke the object this scribe waits on -/
  brokenBy : Option (BitVec 14) := none
  /-- BARRIER_BROKEN that an event has gone before: the object, and the identifier to report (R173, R264) -/
  brokenAt : Option (Nat × BitVec 14) := none
  watch : Option Watch := none
  /-- lines that a GIVE or SHARE of another scribe has opened to this one, which has not touched them since: its first access is an
  acquire (R205) -/
  fresh : List Nat := []
  stepOne : Bool := false
  /-- of a scribe parked on a translation fault (R333): 1 + the fault-queue entry it waits on, `noEntry` while the queue is full, else 0 -/
  waitEntry : Nat := 0
  /-- of its clause's hold run (R233): 1 the first word issued while another scribe was urgent, so the run
  is still to begin, 2 under way -/
  hold : Nat := 0
  /-- WET_FAULT tag the last delivered trap was about, for TRET.REPLAY (R171) -/
  replayTag : Option Nat := none
  qcount : Nat := 0
  deriving DecidableEq, Repr

structure Scribe where
  at_ : Place := {}
  r : Regs := {}
  ctl : Ctl := {}
  wet : Wets := {}
  run : Run := {}
  deriving DecidableEq, Repr

/-! ## Matrix loops, copies, streams, collectives -/

/-- A matrix loop in flight (R213-R218), with the steps each lane has run. `aWords` is keyed as a latch. -/
structure Loop where
  sid : BitVec 14
  tile : Nat
  aRegs : Bool
  aWords : Tbl Lane
  aPoison : List Nat
  /-- of a loop that reads A from the registers as it runs: the first of them (R217) -/
  va : Option Nat := none
  /-- a loop without KEEP releases the latch once it has read it -/
  frees : Bool := false
  aDepth : Nat
  bsrc : Nat
  bDepth : Nat
  bRow : Nat
  stream : Nat
  firstChunk : Nat
  steps : Nat
  ia : Nat
  ib : Nat
  fb : BitVec 128
  lanes : Word
  progress : Tbl Nat
  batch : Nat
  nv : Bool
  ovf : Bool
  deriving DecidableEq, Repr

/-- A copy accepted by a ruling unit, or run for a COPY packet (R278-R295). `owed` gives, for each
destination line not yet landed, the bits the copy has still to write to it and all it writes there;
`passers` who passed a line to a multicast landing. -/
structure Copy where
  sid : BitVec 14
  team : BitVec 14
  asid : BitVec 14
  launch : Nat
  /-- of a COPY packet: its queue, SEQ and CORR -/
  queue : Option (Nat × BitVec 32 × BitVec 32)
  d0 : BitVec 512
  d1 : BitVec 512
  src : Cap
  dst : Cap
  table : Cap
  pos : Nat
  bitsDone : Nat
  status : Nat
  fcode : Nat
  fdetail : Nat
  /-- the completion ring's capability, LOG2N and the sequence number reserved -/
  ring : Option (Cap × Nat × Nat)
  owed : Tbl (Nat × Nat)
  passers : Tbl (BitVec 14)
  badLines : List Nat
  /-- bits the line request under way has written, by destination line -/
  reqBits : Tbl Nat
  srcLines : List Nat
  /-- the walk has ended: only the record is still to be written -/
  ended : Bool
  /-- the slot of the collective whose record this is -/
  coll : Option Nat
  /-- 1 + the fault-queue entry the walk, or the record's write, waits on, or 0 -/
  queued : Nat
  /-- its place in line at a tripped layer (R343) -/
  place : Nat := 0
  deriving DecidableEq, Repr

/-- One lane's 128 bits of an LCOPY under way (R299). -/
structure LaneCopy where
  sid : BitVec 14
  team : BitVec 14
  asid : BitVec 14
  launch : Nat
  cap : Cap
  addr : Nat
  line : Nat
  dest : Nat
  bar : Nat
  /-- the plane lines it reads, held until it has (R287) -/
  srcLines : List Nat
  queued : Nat
  place : Nat := 0
  deriving DecidableEq, Repr

/-- A subscription to a stream (R301): the nibs of a patch, or a cell ring. `next` is the chunk it
receives next; nib chunks delivered lie in `got`; `used` chunks have been given to loops (R219). -/
structure Sub where
  cell : Bool
  sid : BitVec 14
  window : Nat
  rect : Word
  bar : Nat
  next : Nat
  got : Tbl (Nat × Bool)
  used : Nat
  /-- the team of the subscriber while it is saved (R334) -/
  saved : Option (BitVec 14) := none
  /-- 1 + the fault-queue entry that its re-feed waits on, or 0; and whether it has failed: the subscription ends with the chunks it has -/
  queued : Nat := 0
  cut : Bool := false
  deriving DecidableEq, Repr

/-- A stream of a die (R300): its descriptor while it is published, how many chunks have been read, and the
last 64 of them with their poison. -/
structure Stream where
  pub : Option Copy
  kc : Nat
  total : Nat
  head : Nat
  kept : Tbl (Nat × Bool)
  subs : List Sub
  deriving DecidableEq, Repr

/-- A collective in progress (R386-R396): `mine` are the values d of the elements it sends, by index, and
`newRes` their residuals; `tbl` the buffers of the ranks; `got` the contributions folded so far.
`queued` is 1 + the fault-queue entry its writes wait on, or 0. -/
structure Coll where
  sid : BitVec 14
  team : BitVec 14
  asid : BitVec 14
  die : Nat
  slot : Nat
  desc : BitVec 512
  buf : Cap
  res : Cap
  tbl : List Cap
  status : Nat
  ring : Option (Cap × Nat × Nat)
  mine : Tbl Lane
  newRes : Tbl Lane
  got : List Contrib
  queued : Nat
  place : Nat := 0
  deriving DecidableEq, Repr

/-- A contribution that arrived before its COLL (R390): the context and address it goes to, when it came,
and the collective of this package that sent it, if one did. -/
structure Held where
  m : Contrib
  asid : BitVec 14
  addr : Nat
  time : Nat
  sender : Option Nat
  deriving DecidableEq, Repr

/-- A contribution sent to another package: by which collective, and when. -/
structure Sent where
  m : Contrib
  sender : Nat
  time : Nat
  deriving DecidableEq, Repr

/-! ## Launches, teams, queues, contexts -/

/-- A LAUNCH that has been accepted (R321, R322), with its derived capabilities and the argument block
as it stood. -/
structure Launch where
  packet : BitVec 1024
  queue : Nat
  asid : BitVec 14
  number : Nat
  code : Cap
  arg : Cap
  spill : Cap
  argMem : List Host.Cell
  argTags : Tbl Bool
  /-- teams handed to a die dispatcher, and teams completed -/
  handed : Nat
  completed : Nat
  /-- STATUS of its entry -/
  status : Nat
  /-- no team is handed out any more -/
  stopped : Bool
  /-- its entry has been written before its teams were done (R336) -/
  reported : Bool
  deriving DecidableEq, Repr

/-- The rollback interval of a team (R346, R348). -/
inductive Interval where
  | noCheckpoint | rollbackable | notRollbackable
  deriving DecidableEq, Repr

structure Team where
  id : BitVec 14
  asid : BitVec 14
  launch : Nat
  index : Nat
  scribes : List (BitVec 14)
  /-- where the dispatcher placed each scribe: its patch and cell lines, which outlive an EXIT -/
  places : List Place
  cores : List Nat
  peak : Nat
  interval : Interval
  rollbacks : Nat
  /-- lines written in the interval, with data and metadata from before the first write -/
  undo : Tbl (BitVec 512 × LineMeta)
  /-- lines whose first write in the interval found no undo line free (R348) -/
  noUndo : List Nat := []
  image : List Scribe
  imageBars : Tbl BarrierRec
  /-- set while a consumed error or double fault waits for ROLLBACK -/
  failing : Bool
  saved : Bool
  /-- quills move its lines: 1 out to the save area, 2 back from it (R189, R334) -/
  moving : Nat := 0
  /-- stopped by the watchdog: not restored until the host acts (R336) -/
  held : Bool
  savedScribes : List Scribe
  savedLines : Tbl (BitVec 512 × LineMeta)
  savedBars : Tbl BarrierRec
  savedLoops : Tbl Loop := []
  savedCopies : Tbl Copy := []
  savedLcopies : Tbl LaneCopy := []
  started : Nat
  deriving DecidableEq, Repr

/-- A hardware queue (R319, Table 24-1). -/
structure Queue where
  asid : BitVec 14
  prio : Nat
  ring : Nat
  ringLog : Nat
  cring : Nat
  cringLog : Nat
  tail : BitVec 32 := 0
  head : BitVec 32 := 0
  nextSeq : BitVec 32 := 0
  doneSeq : BitVec 32 := 0
  cpos : BitVec 32 := 0
  state : Nat := 0
  /-- SEQ of packets read that have not completed, oldest first -/
  incomplete : List (BitVec 32) := []
  /-- the launch whose teams are still being handed out: its successor may not start -/
  handing : Option Nat := none
  /-- 1 + the fault-queue entry the packet at HEAD waits on, or 0 (R411) -/
  parked : Nat := 0
  deriving DecidableEq, Repr

/-- What waits in a fault queue: who is issued again when CCNT passes the entry (R333, R410). -/
structure Faulted where
  asid : BitVec 14
  entry : Nat
  source : Nat
  agent : Nat
  deriving DecidableEq, Repr

/-! ## Power, memory reliability -/

/-- The issue under way in a slot while narrow scribes may still join it (R234): the header class they
share (7: none may), who has issued in it, the PEs their patches cover, and the permit classes drawn. -/
structure Pack where
  cls : Nat := 7
  members : List (BitVec 14) := []
  pes : List Nat := []
  drawn : List Nat := []
  deriving DecidableEq, Repr

structure Island where
  clock : Nat := 16
  raising : Option Nat := none
  /-- the device time by which a raised clock is in force (R352) -/
  raiseBy : Nat := 0
  /-- 64ths of a cycle that had run, but for the cycles taken, at the device time `since` (R352) -/
  phase : Nat := 0
  since : Nat := 0
  matrix : Nat := 64
  vector : Nat := 64
  special : Nat := 16
  memory : Nat := 64
  refillM : Nat := 16
  refillV : Nat := 16
  refillS : Nat := 4
  fracM : Nat := 0
  fracV : Nat := 0
  fracS : Nat := 0
  used : Nat := 0
  cycles : Nat := 0
  stalled : Nat := 0
  /-- a scribe has been resident since the last decision; none was in the interval before it (R353) -/
  resident : Bool := false
  idle : Bool := false
  retention : Bool := false
  /-- when an island that has begun to wake is awake (R353) -/
  waking : Option Nat := none
  /-- lines that have failed in retention, and register words it keeps, found when it ends (R345) -/
  bad : List Nat := []
  badRegs : List Nat := []
  /-- an access waits for the island, in retention, to wake (R353) -/
  wanted : Bool := false
  /-- issue cycles of the slot (R231) -/
  issues : Nat := 0
  pack : Pack := {}
  /-- the issue cycles of the last reserve words of the scalar and of the lane class (R182) -/
  reserveScalar : Option Nat := none
  reserveLane : Option Nat := none
  deriving DecidableEq, Repr

structure Cluster where
  level : Nat := 0
  peak : Nat := 0
  /-- the records waiting to be drained, oldest first, with the context each concerns -/
  folio : List (BitVec 14 × BitVec 128) := []
  /-- by context: records of its session that the full folio dropped, and 1 + bits [63:20] of the device
  time of its last record, or 0 before the first (R377, R379) -/
  dropped : Tbl Nat := []
  lastHi : Tbl Nat := []
  deriving DecidableEq, Repr

/-- A team handed to a die dispatcher that waits for placement: its launch and index, and the completions that the cores of the die
had seen when it began to wait (R187). -/
structure Waiting where
  launch : Nat
  index : Nat
  seen : Tbl Nat
  deriving DecidableEq, Repr

/-- An access that waits at a tripped layer: of a scribe's word, of one of its tags, or of an engine, whose place stands for the tag (R343). -/
structure Waiter where
  sid : BitVec 14
  tag : Option Nat
  layer : Nat
  deriving DecidableEq, Repr

/-- The die's power and temperature readings as of the last decision (Table 21-4), the layers' states
and the readings taken. -/
structure Die where
  pwr : Nat := 850
  temp : BitVec 16 := 0
  trip : Bool := false
  hotBits : BitVec 2 := 0
  hot0 : Bool := false
  hot1 : Bool := false
  trip0 : Bool := false
  trip1 : Bool := false
  /-- teams handed to the die that wait for placement, oldest first (R187) -/
  waiting : List Waiting := []
  /-- team completions by core of the die -/
  doneOn : Tbl Nat := []
  /-- accesses that wait at its tripped layers, in the order they arrived (R343) -/
  waiters : List Waiter := []
  /-- drain to fit: the core, and the register words per lane below which it admits no team -/
  draining : Option (Nat × Nat) := none
  deriving DecidableEq, Repr

/-- A vertical channel (R341): parity failures to come, as (group, sends), retired groups, failed. -/
structure Channel where
  bad : List (Nat × Nat) := []
  retired : List Nat := []
  failed : Bool := false
  deriving DecidableEq, Repr

/-- An error log (R342): records kept, records written, records lost. -/
structure Log where
  ring : Tbl (BitVec 128) := []
  count : Nat := 0
  lost : Nat := 0
  deriving DecidableEq, Repr

/-- A trace session (R376). -/
structure Session where
  drain : Cap
  logN : Nat
  types : BitVec 32
  clusters : Word
  brkcap : Bool
  corr : BitVec 32
  written : Nat
  deriving DecidableEq, Repr

/-- Where the management controller stands (R372). -/
inductive BootState where
  | inReset | recovery | running
  deriving DecidableEq, Repr

structure Mgmt where
  /-- this package's number on Floesh Link (R384) -/
  pkg : Nat := 0
  boot : BootState := .inReset
  slot0 : List Byte := []
  slot1 : List Byte := []
  active : Nat := 0
  /-- the slot the ROM tries first -/
  first : Nat := 0
  recorded : Nat := 0
  boots : Nat := 0
  /-- the flash's health record: the positions whose PE is disabled (R239, R373); the channels hold the rest of it -/
  disabled : List Nat := []
  /-- the flash's helper data and certificates, and the pin straps (R373) -/
  helper : List Byte := []
  certificates : List Byte := []
  straps : BitVec 64 := 0
  seed : BitVec 256 := 0
  /-- the last mailbox or SPDM reply -/
  reply : List Nat := []
  notice : Option (Word × Nat) := none
  notices : Nat := 0
  msix : Tbl Nat := []
  coolantHot : Bool := false
  /-- the outlet temperature of the cold plate that the controller read last, in 0.1 °C (R371) -/
  outlet : Nat := 0
  /-- the exported peer window: context and virtual range -/
  window : Option (Nat × Nat × Nat) := none
  /-- requests refused by the mailbox -/
  refusals : Nat := 0
  /-- contexts that the host has opened to BAR2 (R368) -/
  opened : List Nat := []
  /-- by package: the port last used to reach it (R385) -/
  lastPort : Tbl Nat := []
  deriving DecidableEq, Repr

structure Port where
  up : Bool := false
  pkg : Nat := 0
  /-- the retry buffer: for each flit sent and not acknowledged, the oldest first, how often it was resent (R382) -/
  unacked : List Nat := []
  deriving DecidableEq, Repr

/-! ## The package -/

/-- Who moves next (log 1): time passes, an event happens, or a scribe issues its next word. -/
inductive Turn where
  | pass (ns : Nat)
  | event (i : Instr)
  | run (sid : Nat)
  deriving DecidableEq, Repr

structure State where
  me : Scribe := {}
  others : Tbl Scribe := []
  time : Nat := 0
  agenda : List Turn := []
  arrivals : List Bool := []
  /-- with no agenda, an engine's step comes before the next issue (the model's own, log 1) -/
  engineTurn : Bool := false
  freeCount : Nat := 0
  /-- the plane, by plane bit address div 8 -/
  plane : List Host.Cell := []
  lines : Tbl LineMeta := []
  holes : List Nat := []
  /-- positions added to the holes, with the launches that had teams placed before, for which they are none yet (R239) -/
  pendingHoles : Tbl (List Nat) := []
  bars : Tbl BarrierRec := []
  /-- global memory, by physical byte address; tags by 128-bit unit; marks by 256-bit word -/
  dram : List Host.Cell := []
  dramTags : Tbl Bool := []
  /-- 1 + symbol of a correctable word -/
  eccSoft : Tbl Nat := []
  /-- 1 + symbol of an uncorrectable word -/
  eccHard : Tbl Nat := []
  host : List Host.Cell := []
  /-- bytes of host memory last written with the EP bit (R294) -/
  hostBad : Tbl Bool := []
  peer : List Host.Cell := []
  peerTags : Tbl Bool := []
  peerBad : Tbl Bool := []
  loops : Tbl Loop := []
  nextLoop : Nat := 0
  copies : Tbl Copy := []
  nextCopy : Nat := 0
  lcopies : Tbl LaneCopy := []
  nextLcopy : Nat := 0
  streams : Tbl Stream := []
  colls : Tbl Coll := []
  heldContribs : List Held := []
  /-- by context, the throttles its event word has still to count, oldest first: their upper halves (R343, R362) -/
  eventsOwed : List (BitVec 14 × Nat) := []
  sentContribs : List Sent := []
  launches : Tbl Launch := []
  nextLaunch : Nat := 0
  accepted : Tbl Nat := []
  teams : Tbl Team := []
  queues : Tbl Queue := []
  /-- by priority: the queue number from which round-robin goes on (R325) -/
  rrNext : Tbl Nat := []
  ctxs : Tbl CtxRec := []
  quotas : Tbl Word := []
  /-- by TLB, ASID and page: the entry (R331) -/
  tlb : Tbl Nat := []
  faulted : List Faulted := []
  /-- by context: the device time of its last progress event (R336) -/
  lastProgress : Tbl Nat := []
  islands : Tbl Island := []
  clusters : Tbl Cluster := []
  dies : Tbl Die := []
  channels : Tbl Channel := []
  logs : Tbl Log := []
  sessions : Tbl Session := []
  mgmt : Mgmt := {}
  ports : Tbl Port := []
  unreachable : List Nat := []
  lastDecision : Nat := 0
  deriving DecidableEq, Repr

/-- Reasons the machine stops with a fault: none. Nothing on the C4 stops the whole package: traps go to
handlers, teams roll back or are killed, and while nothing can move, time passes. -/
inductive Fault
  deriving DecidableEq, Repr

/-- Reasons a step has no meaning. -/
inductive Refusal where
  /-- an instruction the model gives no meaning yet (safe) -/
  | notModelled (mnemonic : String)
  /-- the agenda asks for a step of an engine, a controller or the host whose object does not exist
  or that is not enabled in this state, so the machine cannot take it (safe): raised by the steps
  that have no encoding -/
  | notEnabled
  deriving DecidableEq, Repr

/-- The package right after reset: no context resident, nothing listed in any memory, the controller
about to run its boot ROM (R372). Values the manual does not give are named in the assumption log. -/
def State.reset : State := { agenda := [.event .boot] }

end Sys2Proof.Machine
end

