-- ==== Sys2Proof/Machine/Ops.lean ====
section
/-! DEFINITION. The named operations over tables, memory bits, registers and scribes; logs and trace
records; and taking a trap and returning from one (R168 to R176). -/

namespace Sys2Proof

/-! ## Bounds of a capability (R56, R58), which fetching needs -/

def Cap.cursor (c : Cap) : Nat := Sys2Proof.bits c.bits.toNat 0 64
def Cap.e (c : Cap) : Nat := Sys2Proof.bits c.bits.toNat 64 6
def Cap.b (c : Cap) : Nat := Sys2Proof.bits c.bits.toNat 70 20
def Cap.t (c : Cap) : Nat := Sys2Proof.bits c.bits.toNat 90 20
def Cap.perm (c : Cap) : Nat := Sys2Proof.bits c.bits.toNat 110 12
def Cap.space (c : Cap) : Nat := Sys2Proof.bits c.bits.toNat 122 4

/-- R58, decode_bounds, on unbounded integers. -/
def Cap.boundsI (c : Cap) : Int × Int :=
  let e := c.e
  let cw : Nat := c.cursor / 2 ^ (e + 19)
  let bw : Int := if cw % 2 = c.b / 2 ^ 19 then (cw : Int) else (cw : Int) - 1
  let baseRaw : Int := bw * 2 ^ (e + 19) + ((c.b % 2 ^ 19 * 2 ^ e : Nat) : Int)
  let topRaw : Int := (bw + ((c.t / 2 ^ 19 : Nat) : Int)) * 2 ^ (e + 19) + ((c.t % 2 ^ 19 * 2 ^ e : Nat) : Int)
  let base : Int := baseRaw % 2 ^ 64
  (base, base + max (topRaw - baseRaw) 0)

def Cap.base (c : Cap) : Nat := c.boundsI.1.toNat
def Cap.top (c : Cap) : Nat := c.boundsI.2.toNat

end Sys2Proof

namespace Sys2Proof.Machine

open Sys2Proof

/-! ## Tables -/

/-- The value at key `i`, or the table's default. -/
def look {α : Type} (d : α) : Tbl α → Nat → α
  | [], _ => d
  | (k, v) :: t, i => if k = i then v else look d t i

/-- The value at key `i`, if listed. -/
def find {α : Type} : Tbl α → Nat → Option α
  | [], _ => none
  | (k, v) :: t, i => if k = i then some v else find t i

/-- The table without key `i`. -/
def del {α : Type} : Tbl α → Nat → Tbl α
  | [], _ => []
  | (k, v) :: t, i => if k = i then del t i else (k, v) :: del t i

/-- Insert in key order a key that is not listed. -/
def ins {α : Type} : Tbl α → Nat → α → Tbl α
  | [], i, v => [(i, v)]
  | (k, w) :: t, i, v => if i < k then (i, v) :: (k, w) :: t else (k, w) :: ins t i v

/-- The table with `v` at key `i`; the default is not listed. -/
def put {α : Type} [DecidableEq α] (d : α) (t : Tbl α) (i : Nat) (v : α) : Tbl α :=
  if v = d then del t i else ins (del t i) i v

/-- The table with `v` listed at key `i`, for tables in which being listed means something. -/
def set {α : Type} (t : Tbl α) (i : Nat) (v : α) : Tbl α := ins (del t i) i v

/-- Keys strictly rising. -/
def rising {α : Type} : Tbl α → Bool
  | [] => true
  | [_] => true
  | (k, _) :: (k', v) :: t => k < k' && rising ((k', v) :: t)

/-- The canonical form: keys strictly rising and no entry equal to the default. -/
def canonical {α : Type} [DecidableEq α] (d : α) (t : Tbl α) : Bool :=
  rising t && t.all fun p => p.2 ≠ d

/-- What a byte of memory that nothing has written reads as (log 5; R186 for the plane). -/
def unwritten : Byte := 0

/-- The canonical form of a memory. -/
def Memory.wf (m : List Host.Cell) : Bool := canonical unwritten m

/-! ## Bits of a memory (R47, R31) -/

def readByte (m : List Host.Cell) (a : Nat) : Byte := look unwritten m a

def writeByte (m : List Host.Cell) (a : Nat) (b : Byte) : List Host.Cell := put unwritten m a b

/-- `n` bytes from byte address `a`, the lowest in the low bits. -/
def readBytes (m : List Host.Cell) (a : Nat) : Nat → Nat
  | 0 => 0
  | n + 1 => (readByte m a).toNat + 256 * readBytes m (a + 1) n

def writeBytes (m : List Host.Cell) (a : Nat) (v : Nat) : Nat → List Host.Cell
  | 0 => m
  | n + 1 => writeBytes (writeByte m a (BitVec.ofNat 8 v)) (a + 1) (v / 256) n

/-- Bytes that cover bits `a .. a + w - 1`. -/
def coverBytes (a w : Nat) : Nat := (a % 8 + w + 7) / 8

/-- The `w` bits at bit address `a`. -/
def readBits (m : List Host.Cell) (a w : Nat) : Nat :=
  readBytes m (a / 8) (coverBytes a w) / 2 ^ (a % 8) % 2 ^ w

/-- R49, merge: the `w` bits at bit address `a` become `v`, every other bit stays. -/
def writeBits (m : List Host.Cell) (a w v : Nat) : List Host.Cell :=
  let n := coverBytes a w
  let old := readBytes m (a / 8) n
  let lo := old % 2 ^ (a % 8)
  let hi := old / 2 ^ (a % 8 + w)
  writeBytes m (a / 8) (lo + 2 ^ (a % 8) * (v % 2 ^ w) + 2 ^ (a % 8 + w) * hi) n

/-! ## Small arithmetic -/

/-- `n` read as `w`-bit two's complement. -/
def signed (w n : Nat) : Int :=
  if n % 2 ^ w < 2 ^ (w - 1) then (n % 2 ^ w : Nat) else (n % 2 ^ w : Nat) - (2 ^ w : Nat)

/-- An integer modulo 2^w. -/
def modw (w : Nat) (i : Int) : Nat := (i % (2 ^ w : Nat)).toNat

def word (n : Nat) : Word := BitVec.ofNat 64 n

/-- The low `w` bits of a value sign-extended to 64 bits. -/
def sext64 (w n : Nat) : Word := BitVec.ofInt 64 (signed w n)

/-- The width in bits of a width code (Table 04-5). -/
def widthOf : Nat → Nat
  | 0 => 1
  | 1 => 2
  | 2 => 3
  | 3 => 4
  | 4 => 6
  | 5 => 8
  | 6 => 16
  | 7 => 32
  | 8 => 64
  | 9 => 128
  | _ => 0

/-- Bit `l` of a lane mask. -/
def bitOf (m : Word) (l : Nat) : Bool := m.toNat / 2 ^ l % 2 = 1

/-- The mask of the lanes for which `p` holds, of the first `n`. -/
def maskOf (n : Nat) (p : Nat → Bool) : Word :=
  word ((List.range n).foldl (fun acc l => if p l then acc + 2 ^ l else acc) 0)

/-! ## Scribes -/

/-- Patch width, height and lane count (Table 01-1). -/
def Place.pw (p : Place) : Nat := if p.width = 0 then 4 else 8
def Place.ph (p : Place) : Nat := if p.width = 2 then 8 else 4
def Place.lanes (p : Place) : Nat := p.pw * p.ph

/-- The plane position of a lane (R12), as a PE number (R6). -/
def Place.peOf (p : Place) (l : Nat) : Nat := (p.oy + l / p.pw) * 256 + p.ox + l % p.pw

/-- Identifier fields (R10). -/
def dieOf (id : BitVec 14) : Nat := bits id.toNat 12 2
def coreOf (id : BitVec 14) : Nat := bits id.toNat 6 6
def slotOf (id : BitVec 14) : Nat := bits id.toNat 4 2
def ctxOf (id : BitVec 14) : Nat := bits id.toNat 0 4

/-- Slot and context, the index of a scribe's engines (R249, R277). -/
def engIndex (id : BitVec 14) : Nat := bits id.toNat 0 6

/-- The island of a scribe: 256·die + 4·core + slot (R352). -/
def islandOf (id : BitVec 14) : Nat := id.toNat / 16

/-- The cluster, 16·die + cluster of the die (R5). -/
def clusterOf (id : BitVec 14) : Nat := dieOf id * 16 + coreOf id / 4

/-- The die and cluster of a plane position. -/
def dieAt (x y : Nat) : Nat := x / 128 + 2 * (y / 128)
def clusterAt (x y : Nat) : Nat := dieAt x y * 16 + x % 128 / 32 + 4 * (y % 128 / 32)
/-- The core of the die at a position: 4·cluster + core within it (R5). -/
def coreAt (x y : Nat) : Nat := 4 * (x % 128 / 32 + 4 * (y % 128 / 32)) + x % 32 / 16 + 2 * (y % 32 / 16)
/-- The package core 64·die + core at a position. -/
def pkgCoreAt (x y : Nat) : Nat := 64 * dieAt x y + coreAt x y

/-- The plane position of a core's corner. -/
def coreOrigin (pkgCore : Nat) : Nat × Nat :=
  let die := pkgCore / 64
  let c := pkgCore % 64 / 4
  let k := pkgCore % 4
  (128 * (die % 2) + 32 * (c % 4) + 16 * (k % 2), 128 * (die / 2) + 32 * (c / 4) + 16 * (k / 2))

/-- The number of no launch: of what belongs to none. -/
def noLaunch : Nat := 2 ^ 70

/-- R239: a position that is a hole for a launch: one added in the field is none for launches placed before. -/
def State.holeFor (s : State) (launch pe : Nat) : Bool :=
  s.holes.contains pe || (match find s.pendingHoles pe with
    | some ls => !ls.contains launch
    | none => false)

/-- A position that is a hole for the launch of the issuing scribe. -/
def State.hole (s : State) (pe : Nat) : Bool := s.holeFor s.me.at_.launch pe

/-- The lanes of a scribe that are not on holes. -/
def State.liveLanes (s : State) (p : Place) : Word := maskOf p.lanes fun l => !s.holeFor p.launch (p.peOf l)

/-- The scribe with an identifier, if a context holds it. -/
def State.scribe (s : State) (id : BitVec 14) : Option Scribe :=
  if s.me.at_.id = id ∧ s.me.run.life ≠ .free then some s.me else find s.others id.toNat

/-- Write a scribe's context back where it lies. -/
def State.setScribe (s : State) (c : Scribe) : State :=
  if s.me.at_.id = c.at_.id ∧ s.me.run.life ≠ .free then { s with me := c }
  else { s with others := set s.others c.at_.id.toNat c }

/-- Every context that holds a scribe. -/
def State.allScribes (s : State) : List Scribe :=
  (if s.me.run.life = .free then [] else [s.me]) ++ s.others.map (·.2)

/-- Apply a function to every context that holds a scribe. -/
def State.mapScribes (s : State) (f : Scribe → Scribe) : State :=
  { s with me := if s.me.run.life = .free then s.me else f s.me, others := s.others.map fun p => (p.1, f p.2) }

/-- Make the scribe with an identifier the one that issues. -/
def State.switchTo (s : State) (id : Nat) : State :=
  match find s.others id with
  | none => s
  | some c =>
    let rest := del s.others id
    { s with me := c, others := if s.me.run.life = .free then rest else set rest s.me.at_.id.toNat s.me }

/-- Change the issuing scribe's registers, control part, wet part or run part. -/
def State.onR (s : State) (f : Regs → Regs) : State := { s with me := { s.me with r := f s.me.r } }
def State.onCtl (s : State) (f : Ctl → Ctl) : State := { s with me := { s.me with ctl := f s.me.ctl } }
def State.onWet (s : State) (f : Wets → Wets) : State := { s with me := { s.me with wet := f s.me.wet } }
def State.onRun (s : State) (f : Run → Run) : State := { s with me := { s.me with run := f s.me.run } }

/-! ## Another scribe -/

/-- Apply a function to the state as the scribe with an identifier sees it. -/
def State.asScribe (s : State) (id : BitVec 14) (f : State → State) : State :=
  if s.me.at_.id = id ∧ s.me.run.life ≠ .free then f s
  else match find s.others id.toNat with
    | none => s
    | some _ => if s.me.run.life = .free then f (s.switchTo id.toNat) else (f (s.switchTo id.toNat)).switchTo s.me.at_.id.toNat

/-! ## Launch and team of a scribe -/

def State.team (s : State) (id : BitVec 14) : Option Team := find s.teams id.toNat
def State.setTeam (s : State) (t : Team) : State := { s with teams := set s.teams t.id.toNat t }

/-- The field [lo + w - 1 : lo] of a LAUNCH packet (Table 18-2). -/
def pktField (p : BitVec 1024) (lo w : Nat) : Nat := bits p.toNat lo w

/-- CORR of the launch of a scribe. -/
def State.corrOf (s : State) (launch : Nat) : BitVec 32 :=
  match find s.launches launch with
  | some l => BitVec.ofNat 32 (pktField l.packet 32 32)
  | none => 0

/-! ## Trace records (R376, R377) -/

/-- A record of Table 24-3. -/
def traceRec (type scribe : Nat) (corr : BitVec 32) (time payload : Nat) : BitVec 128 :=
  BitVec.ofNat 128 (type % 64 * 2 ^ 122 + scribe % 2 ^ 14 * 2 ^ 108 + corr.toNat % 2 ^ 24 * 2 ^ 84
    + time % 2 ^ 20 * 2 ^ 64 + payload % 2 ^ 64)

/-- R379: a record joins a folio, or is dropped and counted for its session when 4,096 wait to be drained. -/
def Cluster.log (c : Cluster) (asid : BitVec 14) (r : BitVec 128) : Cluster :=
  if 4096 ≤ c.folio.length then { c with dropped := put 0 c.dropped asid.toNat (look 0 c.dropped asid.toNat + 1) }
  else { c with folio := c.folio ++ [(asid, r)] }

/-- A session records a type (Table 24-2). -/
def Session.records (ss : Session) (type : Nat) : Bool := bits ss.types.toNat type 1 = 1

/-- R377: the TIMEHI that goes before a record whose upper time differs from the session's last one in the cluster. One that the full
folio drops is still owed. -/
def Cluster.timeHi (c : Cluster) (ss : Session) (asid : BitVec 14) (time : Nat) : Cluster :=
  let hi := time / 2 ^ 20 + 1
  if look 0 c.lastHi asid.toNat = hi then c
  else if ss.records 1 = false then { c with lastHi := put 0 c.lastHi asid.toNat hi }
  else if 4096 ≤ c.folio.length then c.log asid 0
  else { c.log asid (traceRec 1 0 0 time time) with lastHi := put 0 c.lastHi asid.toNat hi }

/-- R379: when the folio has room again, a LOST record with the count of what it dropped comes first. -/
def Cluster.regain (c : Cluster) (ss : Session) (asid : BitVec 14) (time : Nat) : Cluster :=
  let n := look 0 c.dropped asid.toNat
  let c1 := if ss.records 15 then c.timeHi ss asid time else c
  if n = 0 ∨ 4096 ≤ c1.folio.length then c
  else { (if ss.records 15 then c1.log asid (traceRec 0x0F 0 0 time n) else c1) with dropped := put 0 c.dropped asid.toNat 0 }

/-- Write a record into the folio of a cluster, when an open session of the context records its type and cluster. -/
def State.trace (s : State) (asid : BitVec 14) (cluster type scribe : Nat) (corr : BitVec 32) (payload : Nat) : State :=
  match find s.sessions asid.toNat with
  | none => s
  | some ss =>
    if ss.records type ∧ bits ss.clusters.toNat cluster 1 = 1 then
      let c := ((look {} s.clusters cluster).regain ss asid s.time).timeHi ss asid s.time
      { s with clusters := put {} s.clusters cluster (c.log asid (traceRec type scribe corr s.time payload)) }
    else s

/-- The lowest cluster a session lists: where records that no scribe causes go. -/
def State.firstCluster (s : State) (asid : BitVec 14) : Nat :=
  match find s.sessions asid.toNat with
  | some ss => ((List.range 64).find? fun c => bits ss.clusters.toNat c 1 = 1).getD 0
  | none => 0

/-- A record that a packet causes. -/
def State.tracePkt (s : State) (asid : BitVec 14) (type scribe : Nat) (corr : BitVec 32) (payload : Nat) : State :=
  s.trace asid (s.firstCluster asid) type scribe corr payload

/-- A record that the issuing scribe causes. -/
def State.traceMe (s : State) (type payload : Nat) : State :=
  s.trace s.me.at_.asid (clusterOf s.me.at_.id) type s.me.at_.id.toNat (s.corrOf s.me.at_.launch) payload

/-! ## Logs (R342, R364) -/

/-- Log numbers: 0-7 the array logs of layer `2·die + layer`, 8-9 those of the I/O dies, 10-13 the
vertical-bus logs, 14-17 the scribe logs. -/
def arrayLog (die layer : Nat) : Nat := 2 * die + layer
def ioLog (io : Nat) : Nat := 8 + io
def busLog (die : Nat) : Nat := 10 + die
def scribeLog (die : Nat) : Nat := 14 + die

/-- A record of Table 20-2. -/
def logRec (time place kind retries agent channel layer wordNo : Nat) : BitVec 128 :=
  BitVec.ofNat 128 (time % 2 ^ 48 * 2 ^ 80 + place % 64 * 2 ^ 68 + kind % 16 * 2 ^ 64 + retries % 4 * 2 ^ 62
    + agent % 2 ^ 14 * 2 ^ 42 + channel % 16 * 2 ^ 38 + layer % 2 * 2 ^ 37 + wordNo % 2 ^ 37)

/-- Append a record to a log: a ring of 1,024 records. -/
def Log.add (l : Log) (r : BitVec 128) : Log :=
  { ring := set l.ring (l.count % 1024) r, count := l.count + 1, lost := if 1024 ≤ l.count then l.lost + 1 else l.lost }

/-- R371: a notice for the host, with MSI-X vector 0. The ring lies in host memory. -/
def State.notice (s : State) (kind asid value : Nat) : State :=
  let s := { s with mgmt := { s.mgmt with msix := put 0 s.mgmt.msix 0 (look 0 s.mgmt.msix 0 + 1) } }
  match s.mgmt.notice with
  | none => s
  | some (base, n) =>
    let v := kind % 256 + asid % 2 ^ 14 * 2 ^ 8 + value % 2 ^ 32 * 2 ^ 32 + s.time % 2 ^ 64 * 2 ^ 64
    { s with host := writeBits s.host (base.toNat + 128 * (s.mgmt.notices % n)) 128 v, mgmt := { s.mgmt with notices := s.mgmt.notices + 1 } }

/-- Write a log record for a context; kinds 2, 4, 5, 9, 10 and 11 also notify the host (R371, R383). -/
def State.logFor (s : State) (asid : BitVec 14) (log place kind retries agent channel layer wordNo : Nat) : State :=
  let l := look {} s.logs log
  let s := { s with logs := set s.logs log (l.add (logRec s.time place kind retries agent channel layer wordNo)) }
  if kind = 2 ∨ kind = 4 ∨ kind = 5 ∨ kind = 9 ∨ kind = 10 ∨ kind = 11 then s.notice 2 asid.toNat (l.count % 1024) else s

/-- A record that no context causes. -/
def State.log (s : State) (log place kind retries agent channel layer wordNo : Nat) : State :=
  s.logFor 0 log place kind retries agent channel layer wordNo

/-- The index the next record of a log gets. -/
def State.logIndex (s : State) (log : Nat) : Nat := (look {} s.logs log).count % 1024

/-- R174: raise a deliverable cause: pending, or one more coalesced raising. With no handler it is
discarded, with a record of kind 12. DEADLINE_RISK notes STEPID as it stands (R360); of coalesced raisings the newest
counts, the model's choice (log 104). -/
def Scribe.raise (c : Scribe) (cause : Nat) : Scribe :=
  { c with run := { c.run with pending := put 0 c.run.pending cause (min 256 (look 0 c.run.pending cause + 1)),
                               riskInfo := if cause = 0x21 then c.ctl.stepId.setWidth 64 else c.run.riskInfo } }

/-- R173, R174: a deliverable cause is pending and may enter: not in a handler, and not while a scroll halts or a counted CK arrival
waits. -/
def Scribe.eventDue (c : Scribe) : Bool :=
  c.run.pending ≠ [] && !c.ctl.handler && c.run.ckWait.isNone && !c.run.jobs.any fun j => j.halt ≠ 0

def State.raise (s : State) (id : BitVec 14) (cause : Nat) : State :=
  match s.scribe id with
  | none => s
  | some c =>
    if c.run.life = .exited ∨ c.run.life = .killed ∨ c.run.life = .free then s
    else if c.ctl.tvec = 0 then s.log (scribeLog (dieOf id)) cause 12 0 id.toNat 0 0 0
    else s.setScribe (c.raise cause)

/-- R364: ERROR_REPORT for a record; TINFO holds its index, its log and its die. -/
def State.raiseError (s : State) (id : BitVec 14) (index logKind die : Nat) : State :=
  let s := s.raise id 0x24
  match s.scribe id with
  | some c => if c.ctl.tvec = 0 then s
    else s.setScribe { c with run := { c.run with errorInfo := word (index + logKind * 1024 + die * 4096) } }
  | none => s

/-! ## Scalar registers (R19, R87, R149, R177) -/

/-- The key of a scalar code in `Regs.x`: g by number, s through the window at depth `d`. -/
def xKey (d code : Nat) : Nat := if code < 8 then code else code + 16 * d

def Scribe.getS (c : Scribe) (code : Nat) : Word := look 0 c.r.x (xKey c.ctl.depth code)

/-- Whether some record still carries a tag. -/
def Wets.carried (w : Wets) (tag : Nat) : Bool :=
  w.s.any (fun p => p.2.tag = tag) || w.v.any (fun p => p.2.tag = tag)

/-- R150, R158: after a carrier is gone. A faulted tag that nothing carries is discarded and counted
in WETS; a pending one stays until its access completes. -/
def Scribe.releaseTag (c : Scribe) (tag : Nat) : Scribe :=
  if c.wet.carried tag then c
  else match find c.wet.tags tag with
    | none => c
    | some t =>
      if t.fault.isSome then
        { c with
          wet := { c.wet with tags := del c.wet.tags tag },
          ctl := { c.ctl with wets := if c.ctl.wets = 0xFFFFFFFF#32 then c.ctl.wets else c.ctl.wets + 1 } }
      else c

/-- Drop the record of a scalar register that is overwritten. -/
def Scribe.dropS (c : Scribe) (key : Nat) : Scribe :=
  match find c.wet.s key with
  | none => c
  | some r => { c with wet := { c.wet with s := del c.wet.s key } }.releaseTag r.tag

/-- Drop a v register's record in the lanes that are overwritten. A write in some of the lanes of a wet mask shrinks the mask and
waits for nothing: the model's reading of R154 (log 103). -/
def Scribe.dropV (c : Scribe) (reg : Nat) (lanes : Word) : Scribe :=
  match find c.wet.v reg with
  | none => c
  | some r =>
    let m := r.mask &&& ~~~lanes
    if m = 0 then { c with wet := { c.wet with v := del c.wet.v reg } }.releaseTag r.tag
    else { c with wet := { c.wet with v := set c.wet.v reg { r with mask := m } } }

/-- Write a word of the scalar file: an ordinary value, not wet, not poisoned. -/
def Scribe.setX (c : Scribe) (key : Nat) (v : Word) : Scribe :=
  let c := c.dropS key
  { c with r := { c.r with x := put 0 c.r.x key v, ps := put false c.r.ps key false } }

def Scribe.setS (c : Scribe) (code : Nat) (v : Word) : Scribe := c.setX (xKey c.ctl.depth code) v

def State.getS (s : State) (code : Nat) : Word := s.me.getS code
def State.setS (s : State) (code : Nat) (v : Word) : State := { s with me := s.me.setS code v }

/-! ## Capability registers, predicates, lane registers, rectangles -/

def emptyCap : Cap := ⟨false, 0⟩
def Scribe.getC (c : Scribe) (n : Nat) : Cap :=
  let k := look emptyCap c.r.c n
  if look false c.r.pcap n then { k with tag := false } else k
def State.getC (s : State) (n : Nat) : Cap := s.me.getC n
def State.setC (s : State) (n : Nat) (v : Cap) : State :=
  s.onR fun r => { r with c := put emptyCap r.c n v, pcap := put false r.pcap n false }

/-- The mask of a predicate; q0 holds in every lane (R17, R114). -/
def Scribe.getQ (c : Scribe) (n : Nat) : Word :=
  if n = 0 then maskOf c.at_.lanes fun _ => true else look 0 c.r.q n
def State.getQ (s : State) (n : Nat) : Word := s.me.getQ n
/-- Write a predicate in the lanes of `m`; a write to q0 is ignored (R114). -/
def State.setQ (s : State) (n : Nat) (m v : Word) : State :=
  if n = 0 then s else s.onR fun r => { r with q := put 0 r.q n ((look 0 r.q n &&& ~~~m) ||| (v &&& m)) }

def vKey (reg lane : Nat) : Nat := 64 * reg + lane
def Scribe.getV (c : Scribe) (reg lane : Nat) : Lane := look 0 c.r.v (vKey reg lane)
def State.getV (s : State) (reg lane : Nat) : Lane := s.me.getV reg lane

/-- Write a lane register word, with its poison mark (0 for none). -/
def Regs.setV (r : Regs) (reg lane : Nat) (v : Lane) (poison : Nat) : Regs :=
  { r with v := put 0 r.v (vKey reg lane) v, pv := put 0 r.pv (vKey reg lane) poison }

/-- Write one lane register in the listed lanes, in order. -/
def writeLanes (reg : Nat) (f : Nat → Lane × Nat) : List Nat → Regs → Regs
  | [], r => r
  | l :: ls, r => writeLanes reg f ls (r.setV reg l (f l).1 (f l).2)

/-- The lanes of a mask, of the first 64, in ascending order. -/
def lanesOf (m : Word) : List Nat := (List.range 64).filter (bitOf m)

/-- Write an ordinary value to a lane register in the lanes of `m`. -/
def State.setV (s : State) (reg : Nat) (m : Word) (f : Nat → Lane) : State :=
  let s := { s with me := s.me.dropV reg m }
  s.onR (writeLanes reg (fun l => (f l, 0)) (lanesOf m))

def State.getE (s : State) (n : Nat) : Word := look 0 s.me.r.e n
def State.setE (s : State) (n : Nat) (v : Word) : State := s.onR fun r => { r with e := put 0 r.e n v }

/-- A tile element: row m, column n is element 8·m + n (R208). -/
def zKey (tile lane elem : Nat) : Nat := 64 * (64 * tile + lane) + elem
def Scribe.getZ (c : Scribe) (tile lane elem : Nat) : Lane := look 0 c.r.z (zKey tile lane elem)
def Regs.setZ (r : Regs) (tile lane elem : Nat) (v : Lane) : Regs := { r with z := put 0 r.z (zKey tile lane elem) v }
def zpKey (tile lane : Nat) : Nat := 64 * tile + lane

/-- R71: the register a lane-register field names: t0-t3 are registers 64-67. -/
def laneReg (temps : Bool) (field : Nat) : Nat := if temps ∧ 60 ≤ field then field + 4 else field

def Ctl.temps (c : Ctl) : Bool := (headerOf c.header).temps
def State.vr (s : State) (field : Nat) : Nat := laneReg s.me.ctl.temps field

/-! ## Stops -/

/-- A trap with its report (Table 08-1). `next` marks the causes whose TPC names the next word;
`replay` the tag of a WET_FAULT. -/
structure Trap where
  code : Nat
  detail : Nat := 0
  tinfo : Nat := 0
  taddr : Nat := 0
  next : Bool := false
  replay : Option Nat := none
  deriving DecidableEq, Repr

/-- Why a word did not complete: it traps, or its scribe parks before it. -/
inductive Stop where
  | trap (t : Trap)
  | park (p : Park)
  /-- a trap whose access already left log records or a fault-queue entry -/
  | trapIn (s : State) (t : Trap)
  | parkIn (s : State) (p : Park)
  deriving DecidableEq, Repr

/-- The work of an instruction: a state in which it has taken its effect, or a stop before it. -/
abbrev Res (α : Type) := Except Stop α

def trap {α : Type} (t : Trap) : Res α := .error (.trap t)
def parkOn {α : Type} (p : Park) : Res α := .error (.park p)

/-- Check a condition, or trap. -/
def require (c : Prop) [Decidable c] (t : Trap) : Res Unit := if c then .ok () else .error (.trap t)
/-- Go on when the condition holds, or park. -/
def await (c : Prop) [Decidable c] (p : Park) : Res Unit := if c then .ok () else .error (.park p)

/-- Cause codes (Table 08-1). -/
def cILLEGAL : Nat := 0x01
def cILLEGAL_CLAUSE : Nat := 0x02
def cCAP_TAG : Nat := 0x03
def cCAP_BOUNDS : Nat := 0x04
def cCAP_PERM : Nat := 0x05
def cALIGN : Nat := 0x06
def cOWNERSHIP : Nat := 0x07
def cUNIFORM : Nat := 0x08
def cWET_FAULT : Nat := 0x09
def cPOISON : Nat := 0x0A
def cTRANSLATION : Nat := 0x0B
def cWINDOW_SPILL : Nat := 0x0C
def cBARRIER_MASK : Nat := 0x0D
def cBARRIER_BROKEN : Nat := 0x0E
def cSCROLL_FAULT : Nat := 0x0F
def cNIB_FAULT : Nat := 0x10
def cQUILL_FAULT : Nat := 0x11
def cDOUBLE_FAULT : Nat := 0x12
def cHOLE_ACCESS : Nat := 0x13
def cREACH : Nat := 0x14
def cSOFTWARE : Nat := 0x15
def cBREAKPOINT : Nat := 0x16

/-- R82: the address of the word that issues: the XIM's for a widened word. -/
def Ctl.wordAt (c : Ctl) : Word := if c.xim.isSome then c.pc - 32 else c.pc

/-- R22: TSTATUS for a stop before the word that issues. -/
def Ctl.stopStatus (c : Ctl) : Word :=
  if c.remain = 0 then 0
  else word (c.header.toNat + (c.remain + if c.xim.isSome then 1 else 0) % 16 * 2 ^ 32)

/-- A scribe that waits for nothing any more. -/
def Run.calm (r : Run) : Run :=
  { r with park := none, retry := false, waitEntry := 0, ckWait := none, heldArr := none, waitOn := none, woken := false, brokenBy := none, watch := none }

/-- The word of a parked scribe has issued and waits to complete, its permit drawn (R252, R265, R271, R273, R346). -/
def Run.began (r : Run) : Bool := r.watch.isSome || r.heldArr.isSome || r.ckWait.isSome || r.jobs.any (·.halt ≠ 0)

/-- The object that a parked scribe waits on. -/
def Run.object (r : Run) : Option Nat := (r.waitOn.orElse fun _ => r.heldArr.map (·.1)).orElse fun _ => r.ckWait.map (·.1)

/-- A parked scribe whose event is taken before its word: a BARRIER_BROKEN that it is owed comes when the word issues again (R173, R264; the
model's reading, log 33). -/
def Run.keepBroken (r : Run) : Run :=
  match r.object, r.brokenBy with
  | some a, some by_ => { r with brokenAt := some (a, by_) }
  | _, _ => r

/-- BARRIER_BROKEN that the word on object `a` owes its scribe: the identifier to report. -/
def Scribe.brokenFor (c : Scribe) (a : Nat) : Option (BitVec 14) :=
  c.run.brokenBy.orElse fun _ => if c.ctl.handler then none else (c.run.brokenAt.filter fun b => b.1 = a).map (·.2)

/-- R231: what a word waits for at the scoreboard, which is no park: a tile, an operand line of its scribe's own loop, or a line that its
own scroll or fill holds (R193, R223, R224). -/
def atScoreboard : Park → Bool
  | .tile => true
  | .loopLine => true
  | .line => true
  | .operand => true
  | _ => false

/-- The run part as a scribe enters its handler: a hold run is over and does not come back with the clause at TRET, of which R233 says nothing
(the model's choice, log 149), and a YIELD of the interrupted clause is held for it (R113). -/
def Run.enter (r : Run) (replay : Option Nat) : Run :=
  { r with hold := 0, yielded := false, heldYield := r.yielded, replayTag := replay }

/-- After the word that issues: the next word, or the next header position (R66). At the end of a
clause the stamp becomes the slot's issue count `now`, unless the word has issued before and only completes, and a YIELD takes
effect (R232). -/
def Scribe.advance (c : Scribe) (now : Nat) : Scribe :=
  let last := c.ctl.remain ≤ 1
  { c with
    ctl := { c.ctl with pc := c.ctl.pc + 32, remain := c.ctl.remain - 1, xim := none },
    run := { c.run with stamp := if last && !c.run.began then now else c.run.stamp, ready := 0, urgent := false, deferred := (if last then c.run.yielded else false),
                        yielded := if last then false else c.run.yielded, brokenAt := if c.ctl.handler then c.run.brokenAt else none }.calm }

def State.advance (s : State) : State :=
  { s with me := s.me.advance (look {} s.islands (islandOf s.me.at_.id)).issues }

/-- A control transfer: the clause is left and the next word is the header at `t`. -/
def State.jump (s : State) (t : Word) : State := (s.advance).onCtl fun c => { c with pc := t, remain := 0 }

/-- R94: a transfer target is checked for alignment and against the code capability. -/
def targetCheck (code : Cap) (t : Word) : Res Unit :=
  if t.toNat % 32 ≠ 0 then trap { code := cALIGN, detail := 2, tinfo := 31 * 16, taddr := t.toNat }
  else if t.toNat < code.base ∨ code.top < t.toNat + 32 then
    trap { code := cCAP_BOUNDS, detail := 2, tinfo := 31 * 16, taddr := t.toNat }
  else .ok ()

/-- R168: an entry can run when TVEC names a place the code capability covers. -/
def Ctl.entryRuns (c : Ctl) : Bool :=
  c.tvec ≠ 0 && (match targetCheck c.codeCap c.tvec with | .ok _ => true | .error _ => false)

/-! ## Taking a trap (R168, R175, R176) -/

/-- R175: the scribe stops; its context holds the DOUBLE_FAULT report; its team acts at ROLLBACK.
`code`, `cause` and `at_` are the second trap's code, TCAUSE value and TPC, `first` the TCAUSE of the
first: what the register TCAUSE holds, though the handler may have written it (the model's reading, log 105). -/
def State.doubleFault (s : State) (code cause : Nat) (at_ : Word) (first : Word) : State :=
  let id := s.me.at_.id
  let s := s.log (scribeLog (dieOf id)) code 13 0 id.toNat 0 0 0
  let s := s.traceMe 0x0A (cause % 65536 + first.toNat % 65536 * 65536)
  let s := s.onCtl fun c => { c with tcause := word (cDOUBLE_FAULT + code * 256), tinfo := first, taddr := at_ }
  let s := s.onRun fun r => { r with life := .failed, stopCause := cDOUBLE_FAULT, pending := [], park := none }
  match s.team s.me.at_.team with
  | some t => s.setTeam { t with failing := true }
  | none => s

/-- The interrupted clause has T set. -/
def Ctl.inTemps (c : Ctl) : Bool := c.remain ≠ 0 && c.temps

/-- R168: enter the handler with the stop point that the control part holds. -/
def Ctl.enter (c : Ctl) (cause tinfo taddr : Nat) : Ctl :=
  let held := c.inTemps
  let st := c.stopStatus
  { c with
    tcause := word cause, tinfo := word tinfo, taddr := word taddr,
    tpc := c.wordAt,
    tstatus := if held then st + word (2 ^ 36) else st,
    savedPc := c.wordAt, savedHeader := (if c.remain = 0 then 0 else c.header),
    savedRemain := (if c.remain = 0 then 0 else c.remain + if c.xim.isSome then 1 else 0),
    handler := true, pc := c.tvec, remain := 0, xim := none }

/-- A lane register with no words, marks or record. -/
def Scribe.wipeV (c : Scribe) (reg : Nat) : Scribe :=
  let c := c.dropV reg (BitVec.allOnes 64)
  let out := fun (k : Nat) => k < vKey reg 0 || vKey reg 64 ≤ k
  { c with r := { c.r with v := c.r.v.filter fun p => out p.1, pv := c.r.pv.filter fun p => out p.1 } }

def Scribe.wipeTemps (c : Scribe) : Scribe := [64, 65, 66, 67].foldl Scribe.wipeV c
def Scribe.wipeHeld (c : Scribe) : Scribe := [68, 69, 70, 71].foldl Scribe.wipeV c

/-- Move the entries of four consecutive registers, from register `f` on, to registers from `t` on. -/
def moveRegs {α : Type} (per f t : Nat) (tb : Tbl α) : Tbl α :=
  tb.map fun p => if per * f ≤ p.1 ∧ p.1 < per * (f + 4) then (p.1 - per * f + per * t, p.2) else p

def Scribe.moveTemps (c : Scribe) (f t : Nat) : Scribe :=
  { c with r := { c.r with v := moveRegs 64 f t c.r.v, pv := moveRegs 64 f t c.r.pv },
           wet := { c.wet with v := moveRegs 1 f t c.wet.v } }

/-- R168: hold t0-t3 aside, with their records and marks; and bring them back (R170). -/
def Scribe.holdTemps (c : Scribe) : Scribe := c.wipeHeld.moveTemps 64 68
def Scribe.bringTemps (c : Scribe) : Scribe := c.wipeTemps.moveTemps 68 64

/-- The issuing scribe leaves its wait: an arrival of its own that is held is withdrawn. -/
def State.calmMe (s : State) : State :=
  let id := s.me.at_.id
  let s1 := match s.me.run.heldArr with
    | some (a, _, _) => (match find s.bars a with
      | some b => { s with bars := set s.bars a { b with held := b.held.filter (· ≠ id) } }
      | none => s)
    | none => s
  s1.onRun Run.calm

/-- Take the trap `t` at the word that issues: enter the handler, or a double fault (R168, R175);
an uncorrectable error that a team with a checkpoint consumes stops its scribe instead (R176). -/
def State.takeTrap (s : State) (t : Trap) : State :=
  let s := if t.next then s.advance else s
  let cause := t.code + t.detail * 256
  let fatal := t.code = cPOISON || (t.code = cWET_FAULT && t.detail = 2)
  let ckpt := match s.team s.me.at_.team with
    | some tm => decide (tm.interval ≠ .noCheckpoint)
    | none => false
  if fatal && ckpt then
    let s := s.onRun fun r => { r with life := .failed, stopCause := t.code, park := none }
    match s.team s.me.at_.team with
    | some tm => s.setTeam { tm with failing := true }
    | none => s
  else if s.me.ctl.handler then s.doubleFault t.code cause s.me.ctl.wordAt s.me.ctl.tcause
  else if s.me.ctl.entryRuns then
    let s := if s.me.ctl.inTemps then { s with me := s.me.holdTemps } else s
    let s := s.onCtl fun c => c.enter cause t.tinfo t.taddr
    s.calmMe.onRun fun r => r.enter t.replay
  else s.doubleFault t.code cause s.me.ctl.wordAt (word cause)

/-- Park the issuing scribe before its word (R231). -/
def State.parkMe (s : State) (p : Park) : State := s.onRun fun r => { r with park := some p }

/-- An outcome is always a next state: the word's effect with the program counter moved on, the trap
it takes, or the scribe parked before it. -/
def finish (s : State) (r : Res State) : Host.Outcome State Fault Refusal :=
  match r with
  | .ok s' => .next s'.advance
  | .error (.trap t) => .next (s.takeTrap t)
  | .error (.park p) => .next (s.parkMe p)
  | .error (.trapIn s' t) => .next (s'.takeTrap t)
  | .error (.parkIn s' p) => .next (s'.parkMe p)

/-- As `finish`, for a word that sets the program counter itself. -/
def finishAt (s : State) (r : Res State) : Host.Outcome State Fault Refusal :=
  match r with
  | .ok s' => .next s'
  | .error (.trap t) => .next (s.takeTrap t)
  | .error (.park p) => .next (s.parkMe p)
  | .error (.trapIn s' t) => .next (s'.takeTrap t)
  | .error (.parkIn s' p) => .next (s'.parkMe p)

/-- A step that has no encoding: it happens when it is enabled, and cannot be taken otherwise. -/
def event (ok : Bool) (f : State → State) (s : State) : Host.Outcome State Fault Refusal :=
  if ok then .next (f s) else .refused .notEnabled

/-- ILLEGAL raised by an instruction's own description (R164): DETAIL 9, the word in TINFO. -/
def illegal9 (w : Nat) : Trap := { code := cILLEGAL, detail := 9, tinfo := w }

end Sys2Proof.Machine
end

