-- ==== Sys2Proof/Machine/Num.lean ====
section
/-! DEFINITION. Numbers (file 02): formats, exact values, rounding with its flags, the narrow scaled
family, and sums. The exact value of an operand or result is a `Val`; every result is rounded once
by `round` or `roundNarrow`. -/

namespace Sys2Proof.Machine

open Sys2Proof

/-- The floating-point formats of Table 02-1. -/
inductive Fmt where
  | f32 | f16 | bf16 | e4m3 | e5m2
  deriving DecidableEq, Repr

/-- Exponent bits, mantissa bits and bias (Table 02-1). -/
def Fmt.eb : Fmt → Nat
  | .f32 => 8
  | .f16 => 5
  | .bf16 => 8
  | .e4m3 => 4
  | .e5m2 => 5

def Fmt.mb : Fmt → Nat
  | .f32 => 23
  | .f16 => 10
  | .bf16 => 7
  | .e4m3 => 3
  | .e5m2 => 2

def Fmt.bias : Fmt → Nat
  | .f32 => 127
  | .f16 => 15
  | .bf16 => 127
  | .e4m3 => 7
  | .e5m2 => 15

def Fmt.width (f : Fmt) : Nat := 1 + f.eb + f.mb

/-- The canonical NaN (Table 02-1). -/
def Fmt.canon : Fmt → Nat
  | .f32 => 0x7FC00000
  | .f16 => 0x7E00
  | .bf16 => 0x7FC0
  | .e4m3 => 0x7F
  | .e5m2 => 0x7E

/-- The encoding of +∞, in the formats that have one. -/
def Fmt.infBits (f : Fmt) : Nat := (2 ^ f.eb - 1) * 2 ^ f.mb

/-- The encoding of the largest finite value. -/
def Fmt.maxBits : Fmt → Nat
  | .e4m3 => 0x7E
  | f => f.infBits - 1

/-- The exponent of the smallest subnormal: every finite value is a multiple of 2 to this power. -/
def Fmt.qmin (f : Fmt) : Int := 1 - (f.bias : Int) - f.mb

/-- An exact value. In `fin` the magnitude is m·2^e, or with `sticky` a value strictly between m·2^e
and (m + 1)·2^e. -/
inductive Val where
  | nan
  | inf (neg : Bool)
  | fin (neg : Bool) (m : Nat) (e : Int) (sticky : Bool)
  deriving DecidableEq, Repr

/-- The value of an encoding (R25). -/
def fval (f : Fmt) (n : Nat) : Val :=
  let s := bits n (f.width - 1) 1 = 1
  let ex := bits n f.mb f.eb
  let m := bits n 0 f.mb
  if ex = 2 ^ f.eb - 1 ∧ (f ≠ .e4m3 ∨ m = 7) then
    if m = 0 then .inf s else .nan
  else if ex = 0 then .fin s m f.qmin false
  else .fin s (2 ^ f.mb + m) (f.qmin + (ex - 1 : Nat)) false

/-- R37: a subnormal encoding read as the zero of its sign. -/
def dazBits (daz : Bool) (f : Fmt) (n : Nat) : Nat :=
  if daz ∧ bits n f.mb f.eb = 0 then bits n (f.width - 1) 1 * 2 ^ (f.width - 1) else n

/-- The value of an operand, with DAZ. -/
def opval (daz : Bool) (f : Fmt) (n : Nat) : Val := fval f (dazBits daz f n)

/-- The sticky flags, in the order of FPM [21:16]: SV NX UF OF DZ NV from the top. -/
abbrev Flags := BitVec 6
def fNV : Flags := 1
def fDZ : Flags := 2
def fOF : Flags := 4
def fUF : Flags := 8
def fNX : Flags := 16
def fSV : Flags := 32

/-- What an instruction captures of FPM at its issue (R39), with its own rounding mode. -/
structure Rm where
  mode : Nat
  daz : Bool
  ftz : Bool
  sat : Bool
  deriving DecidableEq, Repr

/-- A rounded result: the encoding, the flags, and whether a narrow block becomes a NaN block. -/
structure Rounded where
  code : Nat
  flags : Flags := 0
  nanBlock : Bool := false
  deriving DecidableEq, Repr

/-- Whether the magnitude n + r/2^d (more when `sticky`) between two candidates goes up to n + 1, in
mode m for a value of sign `neg` with draw u (R34, R33). `odd` says that candidate n has an odd code. -/
def goesUp (m : Nat) (neg odd : Bool) (r d : Nat) (sticky : Bool) (u : Nat) : Bool :=
  let half := 2 ^ d
  match m with
  | 0 => half < 2 * r || (2 * r = half && (sticky || odd))
  | 1 => false
  | 2 => neg
  | 3 => !neg
  | 4 => half ≤ 2 * r
  | _ => if neg then !decide (u * 2 ^ d < (2 ^ d - r) * 2 ^ 32) else decide (u * 2 ^ d < r * 2 ^ 32)

/-- R36: the result of a value beyond the largest finite one; `fromInf` when the value itself is
infinite. -/
def overflow (f : Fmt) (neg fromInf : Bool) (m : Nat) (sat : Bool) : Rounded :=
  let sign := if neg then 2 ^ (f.width - 1) else 0
  let fl : Flags := if fromInf then 0 else fOF ||| fNX
  let finite := !fromInf && (m = 1 || (m = 2 && !neg) || (m = 3 && neg))
  if finite then { code := sign + f.maxBits, flags := fl }
  else match f with
    | .e4m3 =>
      if sat then { code := sign + f.maxBits, flags := fl ||| fSV }
      else { code := f.canon, flags := fl ||| (if fromInf then fNV else 0) }
    | .e5m2 =>
      if sat then { code := sign + f.maxBits, flags := fl ||| fSV } else { code := sign + f.infBits, flags := fl }
    | _ => { code := sign + f.infBits, flags := fl }

/-- R34: round an exact value to a format; `u` is the draw of mode 5. `rm.ftz` is set when FTZ applies. -/
def round (x : Val) (f : Fmt) (rm : Rm) (u : Nat) : Rounded :=
  match x with
  | .nan => { code := f.canon }
  | .inf neg => overflow f neg true rm.mode rm.sat
  | .fin neg m e sticky =>
    let sign := if neg then 2 ^ (f.width - 1) else 0
    if m = 0 ∧ sticky = false then { code := sign }
    else
      let top : Int := (Nat.log2 m : Nat) + e
      let q : Int := max (top - f.mb) f.qmin
      let d := (q - e).toNat
      let n := if q < e then m * 2 ^ (e - q).toNat else m / 2 ^ d
      let r := if q < e then 0 else m % 2 ^ d
      let exact := r = 0 && !sticky
      let n' := if !exact && goesUp rm.mode neg (n % 2 = 1) r d sticky u then n + 1 else n
      let k := (q - f.qmin).toNat
      let code := k * 2 ^ f.mb + n'
      let fl : Flags := if exact then 0 else if code < 2 ^ f.mb then fNX ||| fUF else fNX
      if f.maxBits < code then
        let o := overflow f neg false rm.mode rm.sat
        { o with flags := fl ||| o.flags }
      else if rm.ftz ∧ code ≠ 0 ∧ code < 2 ^ f.mb then { code := sign, flags := fl ||| fUF ||| fNX }
      else { code := sign + code, flags := fl }

/-! ## Integers -/

/-- A value rounded to an integer in a mode, and whether that changed it (R33). -/
def roundInt (neg : Bool) (m : Nat) (e : Int) (mode u : Nat) : Int × Bool :=
  if 0 ≤ e then ((if neg then -1 else 1) * (m * 2 ^ e.toNat : Nat), false)
  else
    let d := (-e).toNat
    let n := m / 2 ^ d
    let r := m % 2 ^ d
    let n' := if r ≠ 0 && goesUp mode neg (n % 2 = 1) r d false u then n + 1 else n
    ((if neg then -1 else 1) * (n' : Int), r ≠ 0)

/-- R33: conversion to an integer of the range lo .. hi: it saturates with NV alone. -/
def toInt (x : Val) (lo hi : Int) (mode u : Nat) : Int × Flags :=
  match x with
  | .nan => (0, fNV)
  | .inf neg => (if neg then lo else hi, fNV)
  | .fin neg m e _ =>
    let (i, inexact) := roundInt neg m e mode u
    if i < lo then (lo, fNV) else if hi < i then (hi, fNV) else (i, if inexact then fNX else 0)

/-- An integer as an exact value. -/
def Val.ofInt (i : Int) : Val := .fin (i < 0) i.natAbs 0 false

/-! ## Arithmetic on exact values -/

def Val.negate : Val → Val
  | .nan => .nan
  | .inf n => .inf (!n)
  | .fin n m e st => .fin (!n) m e st

/-- The product, with NV for 0 × ∞ (R26). -/
def Val.mul (a b : Val) : Val × Flags :=
  match a, b with
  | .nan, _ => (.nan, 0)
  | _, .nan => (.nan, 0)
  | .inf n, .inf n' => (.inf (n != n'), 0)
  | .inf n, .fin n' m _ _ => if m = 0 then (.nan, fNV) else (.inf (n != n'), 0)
  | .fin n m _ _, .inf n' => if m = 0 then (.nan, fNV) else (.inf (n != n'), 0)
  | .fin n m e _, .fin n' m' e' _ => (.fin (n != n') (m * m') (e + e') false, 0)

def Val.isNan : Val → Bool
  | .nan => true
  | _ => false

def Val.isInf (neg : Bool) : Val → Bool
  | .inf n => n = neg
  | _ => false

def Val.isZero (neg : Bool) : Val → Bool
  | .fin n m _ _ => n = neg && m = 0
  | _ => false

/-- The least exponent of a list of finite values. -/
def minExp : List Val → Int
  | [] => 0
  | [.fin _ _ e _] => e
  | .fin _ _ e _ :: t => min e (minExp t)
  | _ :: t => minExp t

/-- The terms of a list of finite values over a common exponent. -/
def sumAt (q : Int) : List Val → Int
  | [] => 0
  | .fin n m e _ :: t => (if n then -1 else 1) * (m * 2 ^ (e - q).toNat : Nat) + sumAt q t
  | _ :: t => sumAt q t

/-- The exact sum of the terms (R26, R116). The terms whose zero signs decide the sign of a zero sum are the addends, a product as one:
the model's reading of R116 (log 100). -/
def Val.sum (mode : Nat) (l : List Val) : Val × Flags :=
  if l.any Val.isNan then (.nan, 0)
  else if l.any (Val.isInf true) ∧ l.any (Val.isInf false) then (.nan, fNV)
  else if l.any (Val.isInf true) then (.inf true, 0)
  else if l.any (Val.isInf false) then (.inf false, 0)
  else
    let q := minExp l
    let t := sumAt q l
    if t = 0 then
      (.fin (if l.all (Val.isZero true) then true else if l.all (Val.isZero false) then false else mode = 2) 0 q false, 0)
    else (.fin (t < 0) t.natAbs q false, 0)

/-- Order of two numbers, -0 and +0 equal: -1, 0 or 1. Not for NaN. -/
def Val.cmp (a b : Val) : Int :=
  match a, b with
  | .inf n, .inf n' => if n = n' then 0 else if n then -1 else 1
  | .inf n, _ => if n then -1 else 1
  | _, .inf n => if n then 1 else -1
  | a, b =>
    let q := minExp [a, b]
    let d := sumAt q [a] - sumAt q [b]
    if d < 0 then -1 else if d = 0 then 0 else 1

/-- R27: the smaller (or larger) of two encodings, -0 below +0, a NaN giving way to a number. -/
def fminmax (isMax : Bool) (f : Fmt) (a b : Nat) : Nat :=
  match fval f a, fval f b with
  | .nan, .nan => f.canon
  | .nan, _ => b
  | _, .nan => a
  | x, y =>
    let c := x.cmp y
    let aNeg := bits a (f.width - 1) 1 = 1
    let aFirst := if c = 0 then aNeg else c < 0
    if aFirst = isMax then b else a

/-! ## The narrow scaled family (R29 to R32) -/

/-- Element formats of a scaled block: m3, m4, m6 with a width, or e4m3. -/
def narrowWidth : Nat → Nat
  | 0 => 3
  | 1 => 4
  | _ => 6

/-- The magnitude, in sixteenths, of magnitude field k of type T and width w (Table 02-3). -/
def mag16 (t w k : Nat) : Nat :=
  match t with
  | 0 => 16 * k
  | 1 =>
    if w = 3 then 8 * k
    else if w = 4 then (if k < 2 then 8 * k else (2 + k % 2) * 2 ^ (k / 2 - 1) * 8)
    else (if k < 8 then 2 * k else 2 ^ (k / 8 - 1) * (16 + 2 * (k % 8)))
  | 2 =>
    if w = 3 then (if k = 0 then 0 else 4 * 2 ^ k)
    else if w = 4 then (if k = 0 then 0 else 2 ^ k)
    else (if k < 4 then k else 2 ^ (k / 4 - 1) * (4 + k % 4))
  | _ =>
    if w = 3 then 16 * k
    else if w = 4 then (if k < 5 then 16 * k else if k = 5 then 96 else if k = 6 then 128 else 192)
    else (if k < 16 then 16 * k else 16 * (2 * k - 16))

/-- Codes of the magnitude field; for T = 00 the positive count. -/
def magCount (w : Nat) : Nat := 2 ^ (w - 1)

/-- maxmag of R32, in sixteenths. -/
def maxmag16 (t w : Nat) : Nat := mag16 t w (magCount w - 1)

/-- R30 with R29: the value of a code in a block with scale byte s (T and X). -/
def narrowVal (s w c : Nat) : Val :=
  let t := bits s 6 2
  let x := bits s 0 6
  if x = 63 then .nan
  else if t = 0 then
    let i := signed w c
    .fin (i < 0) i.natAbs ((x : Int) - 32) false
  else .fin (bits c (w - 1) 1 = 1) (mag16 t w (bits c 0 (w - 1))) ((x : Int) - 36) false

/-- The value of an e4m3 element of a scaled block (R136). -/
def scaledE4m3 (x c : Nat) : Val :=
  if x = 63 then .nan
  else match fval .e4m3 c with
    | .fin n m e st => .fin n m (e + (x : Int) - 32) st
    | v => v

/-- Whether |v| ≤ lim/16 · 2^(X - 32). -/
def fits (lim16 x : Nat) : Val → Bool
  | .nan => false
  | .inf _ => false
  | .fin _ m e _ => decide ((Val.fin false m e false).cmp (.fin false lim16 ((x : Int) - 36) false) ≤ 0)

/-- The first X of a list that fits every value, else 62. -/
def fitFrom (lim16 : Nat) (v : List Val) : List Nat → Nat
  | [] => 62
  | x :: xs => if v.all (fits lim16 x) then x else fitFrom lim16 v xs

/-- R32: fit_scale, for a largest magnitude in sixteenths. -/
def fitScale (lim16 : Nat) (v : List Val) : Nat :=
  if v.any Val.isNan then 63
  else if v.all (fun y => y.isZero true || y.isZero false) then 0
  else fitFrom lim16 v (List.range 63)

/-- The largest k of `n`, n - 1, … whose magnitude is at most y/d sixteenths. -/
def magBelow (t w y d : Nat) : Nat → Nat
  | 0 => 0
  | k + 1 => if mag16 t w (k + 1) * d ≤ y then k + 1 else magBelow t w y d k

/-- R34 on the set of a narrow type (R32): magnitude y/d sixteenths, with the set extended beyond its
largest magnitude. Answers the magnitude field chosen and whether the value was inexact. -/
def narrowField (t w y d mode : Nat) (neg : Bool) (u : Nat) : Nat × Bool :=
  let last := magCount w - 1
  let top := mag16 t w last
  let gap := top - mag16 t w (last - 1)
  let ext := fun k => if k ≤ last then mag16 t w k else top + (k - last) * gap
  let k := if top * d ≤ y then last + (y / d - top) / gap else magBelow t w y d last
  let lo := ext k * d
  let step := (ext (k + 1) - ext k) * d
  if y = lo then (k, false)
  else
    let r := y - lo
    let up := match mode with
      | 0 => decide (step < 2 * r) || (decide (2 * r = step) && decide (k % 2 = 1))
      | 1 => false
      | 2 => neg
      | 3 => !neg
      | 4 => decide (step ≤ 2 * r)
      | _ => if neg then !decide (u * step < (step - r) * 2 ^ 32) else decide (u * step < r * 2 ^ 32)
    (if up then k + 1 else k, true)

/-- The code of magnitude field k. -/
def narrowCode (t w : Nat) (neg : Bool) (k : Nat) : Nat :=
  if t = 0 then (if neg then (2 ^ w - k) % 2 ^ w else k) else k + (if neg then 2 ^ (w - 1) else 0)

/-- R32, encode_narrow: a value in a block with exponent X. -/
def roundNarrow (v : Val) (t x w mode : Nat) (sat : Bool) (u : Nat) : Rounded :=
  let lim := fun (neg : Bool) => if t = 0 ∧ neg then magCount w else magCount w - 1
  let above := fun (neg fromInf : Bool) (fl : Flags) =>
    let finite := !fromInf && (mode = 1 || (mode = 2 && !neg) || (mode = 3 && neg))
    let fl := if fromInf then fl else fl ||| fOF ||| fNX
    if finite then { code := narrowCode t w neg (lim neg), flags := fl }
    else if sat then { code := narrowCode t w neg (lim neg), flags := fl ||| fSV }
    else ({ code := 0, flags := if fromInf then fl ||| fNV else fl, nanBlock := true } : Rounded)
  match v with
  | .nan => { code := 0, nanBlock := true }
  | .inf neg => above neg true 0
  | .fin neg m e _ =>
    let sh : Int := e - ((x : Int) - 36)
    let y := if 0 ≤ sh then m * 2 ^ sh.toNat else m
    let d := if 0 ≤ sh then 1 else 2 ^ (-sh).toNat
    let (k, inexact) := narrowField t w y d mode neg u
    let fl : Flags := if inexact then (if k = 0 then fNX ||| fUF else fNX) else 0
    if lim neg < k then above neg false fl else { code := narrowCode t w neg k, flags := fl }

/-! ## The stochastic states (R35) -/

/-- The next state from a state. R35 reduces x modulo 2^32 where it stores it, and nowhere before: the bits that x << 13 moves above 31 come
back with x >> 17 (the model's reading, log 133). -/
def rngNext (v : Lane) : Lane :=
  let x := v.toNat ^^^ (v.toNat * 2 ^ 13)
  let x := x ^^^ (x / 2 ^ 17)
  BitVec.ofNat 32 (x ^^^ (x * 2 ^ 5))

/-- The seeded state of a lane. -/
def rngSeed (seed : Lane) (l : Nat) : Lane :=
  let v := seed + BitVec.ofNat 32 l
  if v = 0 then 0x80000000#32 else v

end Sys2Proof.Machine
end

