-- ==== Sys2Proof/Machine/Global.lean ====
section
/-! DEFINITION. Memory through capabilities: the checks of an access (R61), encoding bounds (R60),
translation (R328 to R332), the two tiers with their error handling (R339 to R344), host, peer and
argument memory, and the fault queue (R410). -/

namespace Sys2Proof

/-- Whether a capability grants all the permissions of a mask. -/
def Cap.has (c : Cap) (p : Nat) : Bool := c.perm &&& p = p

/-- R56: what every tagged capability holds. -/
def Cap.sound (c : Cap) : Bool := !c.tag || (Sys2Proof.bits c.bits.toNat 126 2 = 0 && c.e ≤ 45 && Sys2Proof.bits c.perm 8 4 = 0)

/-- R59: a capability with another cursor; the tag stays while the cursor is in the representable
region. -/
def Cap.withCursor (c : Cap) (v : Nat) : Cap :=
  let n : Cap := ⟨c.tag, BitVec.ofNat 128 (c.bits.toNat / 2 ^ 64 * 2 ^ 64 + v % 2 ^ 64)⟩
  let e := c.e
  let region : Nat := 2 ^ (e + 19)
  let cw : Int := ((c.cursor / region : Nat) : Int)
  let bw : Int := if c.cursor / region % 2 = c.b / 2 ^ 19 then cw else cw - 1
  let start : Int := bw * (region : Nat)
  let off : Int := ((v % 2 ^ 64 : Nat) - start) % (2 ^ 64 : Nat)
  { n with tag := c.tag && decide (off < (2 * region : Nat)) }

end Sys2Proof

namespace Sys2Proof.Machine

open Sys2Proof

/-! ## Capabilities -/

/-- Permission bits (Table 03-4). -/
def pLoad : Nat := 1
def pStore : Nat := 2
def pLoadCap : Nat := 4
def pStoreCap : Nat := 8
def pExec : Nat := 16
def pAtomic : Nat := 32
def pEngine : Nat := 64
def pShare : Nat := 128

def spaceOk (sp : Nat) : Bool := sp ≤ 3 || sp = 5

/-- The limit of a space (Table 03-1). -/
def spaceLimit : Nat → Nat
  | 0 => 2 ^ 60
  | 1 => 2 ^ 33
  | 3 => 2 ^ 60
  | _ => 2 ^ 64

/-- Kinds of access, in the numbering of Table 18-6. -/
inductive AKind where
  | load | store | atomic | reduce | fetch
  deriving DecidableEq, Repr

def AKind.code : AKind → Nat
  | .load => 0
  | .store => 1
  | .atomic => 2
  | .reduce => 3
  | .fetch => 4

/-- R48, R50, R54, R55, R102: whether an access breaks alignment. -/
def misaligned (sp a w : Nat) (k : AKind) (capForm : Bool) : Bool :=
  (sp = 1 && 131072 < a % 131072 + w) || (capForm && a % 128 ≠ 0)
    || (k = .atomic && (if w = 32 || w = 64 then a % w ≠ 0 else 32 < a % 32 + w))
    || (sp = 2 && (k = .atomic || ((k = .store || k = .reduce) && (a % 8 ≠ 0 || w % 8 ≠ 0))))

/-- R61, cap_check: the cause of the first failing check. -/
def capCheck (c : Cap) (a w p : Nat) (k : AKind) (capForm : Bool) : Option Nat :=
  if c.tag = false then some cCAP_TAG
  else if ¬ spaceOk c.space ∨ ¬ c.has p ∨ (c.space = 5 ∧ p ≠ pLoad) ∨ (c.space = 3 ∧ ¬ c.has pShare) then some cCAP_PERM
  else if a < c.base ∨ c.top < a + w ∨ spaceLimit c.space < a + w then some cCAP_BOUNDS
  else if misaligned c.space a w k capForm then some cALIGN
  else none

/-- The least exponent from e on, of `fuel` more, at which the bounds span two windows at most (R60). -/
def encodeExp (b t : Nat) : Nat → Nat → Nat
  | 0, e => e
  | fuel + 1, e =>
    if (t + 2 ^ e - 1) / 2 ^ e / 2 ^ 19 - b / 2 ^ e / 2 ^ 19 ≤ 1 then e else encodeExp b t fuel (e + 1)

/-- R60, encode_bounds: E, B and T for bounds b .. b + len. -/
def encodeBounds (b len : Nat) : Nat × Nat × Nat :=
  let e := encodeExp b (b + len) 45 0
  let lo := b / 2 ^ e
  let hi := (b + len + 2 ^ e - 1) / 2 ^ e
  let bw := lo / 2 ^ 19
  (e, bw % 2 * 2 ^ 19 + lo % 2 ^ 19, (hi / 2 ^ 19 - bw) * 2 ^ 19 + hi % 2 ^ 19)

/-- A capability's bits from its fields (Table 03-3). -/
def capBits (cursor e b t perm sp : Nat) : BitVec 128 :=
  BitVec.ofNat 128 (cursor % 2 ^ 64 + e % 64 * 2 ^ 64 + b % 2 ^ 20 * 2 ^ 70 + t % 2 ^ 20 * 2 ^ 90
    + perm % 2 ^ 12 * 2 ^ 110 + sp % 16 * 2 ^ 122)

/-- A tagged capability over b .. b + len with its cursor at b. -/
def mkCap (b len perm sp : Nat) : Cap :=
  let (e, bb, t) := encodeBounds b len
  ⟨true, capBits b e bb t perm sp⟩

/-- TINFO of a scalar or lane access (Table 08-1, DETAIL 0 and 1). -/
def accessInfo (cr w : Nat) (k : AKind) (lane : Nat) : Nat :=
  cr % 16 + (w - 1) % 256 * 16 + (if k = .store then 2 ^ 12 else 0) + (if k = .atomic then 2 ^ 13 else 0) + lane * 2 ^ 16

/-! ## Who accesses -/

/-- The agent of an access: its AGENT code in logs, the scribe an error report goes to with its team, the context and the launch.
`quiet` when the words have been read and checked already, by the line request the access is a part of; `place` is an engine's own place
in line at a tripped layer, 0 for none. -/
structure Who where
  code : Nat := 0
  sid : Option (BitVec 14) := none
  team : BitVec 14 := 0
  asid : BitVec 14 := 0
  launch : Nat := noLaunch
  quiet : Bool := false
  place : Nat := 0
  deriving DecidableEq, Repr

/-- A scribe as the agent of its own accesses. -/
def Place.who (p : Place) : Who := { code := p.id.toNat, sid := some p.id, team := p.team, asid := p.asid, launch := p.launch }

def State.meWho (s : State) : Who := s.me.at_.who

/-- The core, 64·die + core, whose TLB an access for a scribe looks in first. -/
def Who.core (w : Who) : Option Nat := w.sid.map fun id => id.toNat / 64

/-- R364: ERROR_REPORT in the scribe behind an access, unless it has exited and another holds its context. -/
def State.report (s : State) (who : Who) (index logKind die : Nat) : State :=
  match who.sid with
  | none => s
  | some id => match s.scribe id with
    | some c => if c.at_.team = who.team then s.raiseError id index logKind die else s
    | none => s

/-! ## The two tiers (R339 to R344) -/

def inTier (p : Nat) : Bool := p < 0x3000000000 || (0x10000000000 ≤ p && p < 0x20000000000)
def stacked (p : Nat) : Bool := p < 0x3000000000

/-- Die, vertical channel and layer of a stacked address (Table 20-1). -/
def dieOfP (p : Nat) : Nat := p / 256 % 64 / 16
def chanOfP (p : Nat) : Nat := p / 256 % 16
def layerOfP (p : Nat) : Nat := p / 256 / 64 % 2
/-- The I/O die of an LPDDR address. -/
def ioOfP (p : Nat) : Nat := p / 256 % 32 / 16

/-- The array-error log of an address, and the log and die numbers that ERROR_REPORT carries (R364). -/
def logOfP (p : Nat) : Nat := if stacked p then arrayLog (dieOfP p) (layerOfP p) else ioLog (ioOfP p)
def logKindOfP (p : Nat) : Nat := if stacked p then layerOfP p else 3
def logDieOfP (p : Nat) : Nat := if stacked p then dieOfP p else ioOfP p

/-- R343: whether the layer of an address serves no access. -/
def State.tripped (s : State) (p : Nat) : Bool :=
  stacked p && (let d := look {} s.dies (dieOfP p); if layerOfP p = 0 then d.trip0 else d.trip1)

/-- Write a record that an access caused, and report it to the scribe behind the access. -/
def State.errorRec (s : State) (who : Who) (log kind place retries chan layer word logKind die : Nat) : State :=
  let i := s.logIndex log
  let s := s.logFor who.asid log place kind retries who.code chan layer word
  if kind ≤ 4 then s.report who i logKind die else s

/-- Records of kind 3 or 4 for lane groups, in order. -/
def State.groupRecs (s : State) (who : Who) (p retries : Nat) : List (Nat × Nat) → State
  | [] => s
  | (g, n) :: rest =>
    let s := s.errorRec who (busLog (dieOfP p)) (if 4 ≤ n then 4 else 3) g retries (chanOfP p) (layerOfP p) (p / 256 * 8) 2 (dieOfP p)
    s.groupRecs who p retries rest

/-- R341: one beat through a vertical channel. Answers whether the data arrive. -/
def State.beat (s : State) (who : Who) (p : Nat) : State × Bool :=
  let key := dieOfP p * 16 + chanOfP p
  let ch := look {} s.channels key
  if ch.failed then (s, false)
  else if ch.bad = [] then (s, true)
  else
    let worst := ch.bad.foldl (fun m g => max m g.2) 0
    let s1 := s.groupRecs who p (min worst 3) ch.bad
    let retired := ch.retired ++ (ch.bad.filter fun g => 4 ≤ g.2).map (·.1)
    if 4 < retired.length ∧ 4 ≤ worst then
      let s2 := s1.errorRec who (busLog (dieOfP p)) 5 0 0 (chanOfP p) (layerOfP p) (p / 256 * 8) 2 (dieOfP p)
      ({ s2 with channels := put {} s2.channels key { bad := [], retired := retired, failed := true } }, false)
    else ({ s1 with channels := put {} s1.channels key { ch with bad := [], retired := retired } }, true)

/-- R340: the check of one 256-bit word on a read. Answers whether the word is uncorrectable. -/
def State.checkWord (s : State) (who : Who) (w : Nat) : State × Bool :=
  let p := 32 * w
  let chan := if stacked p then chanOfP p else p / 256 % 16
  let layer := if stacked p then layerOfP p else 0
  let hard := look 0 s.eccHard w
  let soft := look 0 s.eccSoft w
  if hard ≠ 0 then
    (s.errorRec who (logOfP p) 2 (hard - 1) 0 chan layer w (logKindOfP p) (logDieOfP p), true)
  else if soft ≠ 0 then
    let s := s.errorRec who (logOfP p) 1 (soft - 1) 0 chan layer w (logKindOfP p) (logDieOfP p)
    ({ s with eccSoft := put 0 s.eccSoft w 0 }, false)
  else (s, false)

/-- Send the beat of word w's granule. A read through a failed channel is uncorrectable, with one record (R340). -/
def State.sendBeat (s : State) (who : Who) (read : Bool) (w : Nat) : State × Bool :=
  let p := 32 * w
  let (s, ok) := s.beat who p
  if ok ∨ read = false then (s, ok)
  else (s.errorRec who (logOfP p) 2 0 0 (chanOfP p) (layerOfP p) (w / 8 * 8) (logKindOfP p) (logDieOfP p), false)

/-- R341, R365: the beat of word w's granule, one for all the words an access takes from it: `last` is the
granule whose beat the access sent last and whether its data arrived. -/
def State.wordBeat (s : State) (who : Who) (read : Bool) (last : Option (Nat × Bool)) (w : Nat) : State × Bool :=
  if ¬ stacked (32 * w) then (s, true)
  else
    match last with
    | some (g, ok) => if g = w / 8 then (s, ok) else s.sendBeat who read w
    | none => s.sendBeat who read w

/-- The words of 256 bits that bits a .. a + n - 1 touch. -/
def wordsOf (a n : Nat) : List Nat := (List.range ((a % 256 + n + 255) / 256)).map (· + a / 256)

/-- Read the words an access touches; answers those that are uncorrectable. -/
def State.readWords (s : State) (who : Who) (last : Option (Nat × Bool)) : List Nat → State × List Nat
  | [] => (s, [])
  | w :: ws =>
    let (s, ok) := s.wordBeat who true last w
    let (s, p) := if ok then s.checkWord who w else (s, true)
    let (s, q) := s.readWords who (some (w / 8, ok)) ws
    (s, if p then w :: q else q)

/-- R340, R341: what a write that reaches the arrays does to one word's marks before its bits land: a whole
word clears the marks, a merge reads the word first. -/
def State.writeHome (s : State) (who : Who) (a n w : Nat) : State :=
  if a ≤ 256 * w ∧ 256 * w + 256 ≤ a + n then
    { s with eccHard := put 0 s.eccHard w 0, eccSoft := put 0 s.eccSoft w 0 }
  else if who.quiet then s
  else (s.checkWord who w).1

/-- The part of bits a .. a + n - 1 in word w, as a bit address and width. -/
def partIn (a n w : Nat) : Nat × Nat :=
  let lo := max a (256 * w)
  (lo, min (a + n) (256 * w + 256) - lo)

/-- Clear the tags of 128-bit units from `u` on. -/
def clearTags : Nat → Nat → Tbl Bool → Tbl Bool
  | 0, _, t => t
  | n + 1, u, t => clearTags n (u + 1) (put false t u false)

/-- The 128-bit units that bits a .. a + n - 1 touch: the first, and how many. -/
def unitsOf (a n : Nat) : Nat × Nat := (a / 128, (a % 128 + n + 127) / 128)

/-- Write bits of the two tiers, word by word; tags of the units written clear (R63). A write through a
failed channel is dropped (R341). -/
def State.writeWords (s : State) (who : Who) (a n v : Nat) (last : Option (Nat × Bool)) : List Nat → State
  | [] => s
  | w :: ws =>
    let (s0, ok) := s.wordBeat who false last w
    let (lo, k) := partIn a n w
    let s2 := if ok = false then s0 else
      let s1 := s0.writeHome who a n w
      { s1 with dram := writeBits s1.dram lo k (v / 2 ^ (lo - a)),
                dramTags := clearTags (unitsOf lo k).2 (unitsOf lo k).1 s1.dramTags }
    s2.writeWords who a n v (some (w / 8, ok)) ws

/-! ## Translation (R328 to R332) -/

/-- What a leaf gives an access: the physical byte address of the byte, and the page's permissions. -/
structure Leaf where
  phys : Nat
  dev : Bool
  x : Bool
  wr : Bool
  rd : Bool
  deriving DecidableEq, Repr

/-- The levels of a walk: bits of the byte address below the index, bits of the index, level. -/
def walkLevels : List (Nat × Nat × Nat) := [(39, 18, 3), (30, 9, 2), (21, 9, 1), (16, 5, 0)]

/-- The size of the table of a level. -/
def tableSize : Nat → Nat
  | 3 => 2 ^ 21
  | 0 => 256
  | _ => 4096

/-- R328, R329: the walk from the table at `table`; 0 not mapped, 2 walk error. An entry in an uncorrectable word, which `dead` tells,
is a walk error: the spec gives no outcome of its own (the model's choice, log 112). -/
def walk (m : List Host.Cell) (dead : Nat → Bool) (b : Nat) : List (Nat × Nat × Nat) → Nat → Except Nat Leaf
  | [], _ => .error 2
  | (sh, n, lvl) :: rest, table =>
    let at_ := table + 8 * bits b sh n
    if ¬ inTier at_ ∨ dead (at_ / 32) then .error 2
    else
      let e := readBytes m at_ 8
      let addr := bits e 8 48 * 256
      if bits e 0 1 = 0 then .error 0
      else if bits e 56 8 ≠ 0 ∨ bits e 7 1 ≠ 0 then .error 2
      else if bits e 1 1 = 1 then
        if lvl = 3 ∨ 2 ≤ bits e 5 2 ∨ addr % 2 ^ sh ≠ 0 ∨ ¬ inTier addr then .error 2
        else .ok { phys := addr + b % 2 ^ sh, dev := bits e 5 2 = 1, x := bits e 4 1 = 1, wr := bits e 3 1 = 1, rd := bits e 2 1 = 1 }
      else if lvl = 0 ∨ bits e 2 5 ≠ 0 ∨ addr % tableSize (lvl - 1) ≠ 0 then .error 2
      else walk m dead b rest addr

/-- The 256-bit words that a walk reads, in order. -/
def walkWords (m : List Host.Cell) (b : Nat) : List (Nat × Nat × Nat) → Nat → List Nat
  | [], _ => []
  | (sh, n, _) :: rest, table =>
    let at_ := table + 8 * bits b sh n
    if ¬ inTier at_ then []
    else
      let e := readBytes m at_ 8
      at_ / 32 :: (if bits e 0 2 = 1 then walkWords m b rest (bits e 8 48 * 256) else [])

/-- R331: the TLBs that an access looks in, nearest first: those of its core (64·die + core), of the cluster and of the die. They are numbered
0 to 255, 256 to 319 and 320 to 323. An access for no scribe looks in that of die 0 (log 111). -/
def tlbPath : Option Nat → List Nat
  | some core => [core, 256 + core / 4, 320 + core / 64]
  | none => [320]

/-- R331: how many entries a TLB holds. -/
def tlbRoom (unit : Nat) : Nat := if unit < 256 then 64 else if unit < 320 then 1024 else 16384

/-- The key of a TLB's entry: TLB, ASID and 64 KiB page number. -/
def tlbKey (unit : Nat) (asid : BitVec 14) (b : Nat) : Nat := unit * 2 ^ 55 + asid.toNat * 2 ^ 41 + b / 65536 % 2 ^ 41

/-- The entries of a TLB. -/
def State.tlbOf (s : State) (unit : Nat) : Tbl Nat := s.tlb.filter fun e => e.1 / 2 ^ 55 = unit

/-- What an access's TLBs say of a page, the nearest first. -/
def State.tlbFind (s : State) (core : Option Nat) (asid : BitVec 14) (b : Nat) : Option Nat :=
  (tlbPath core).findSome? fun u => find s.tlb (tlbKey u asid b)

/-- A TLB with an entry more: a full one loses entry `out` of its own, modulo their number (log 111). -/
def State.tlbEnter (s : State) (out : Nat) (asid : BitVec 14) (b n unit : Nat) : State :=
  let mine := s.tlbOf unit
  let kept := if mine.length < tlbRoom unit then s.tlb else del s.tlb (mine.getD (out % mine.length) (0, 0)).1
  { s with tlb := set kept (tlbKey unit asid b) n }

/-- A TLB entry as a number: the physical page and the permissions. -/
def Leaf.pack (l : Leaf) : Nat := l.phys / 65536 * 16 + l.dev.toNat * 8 + l.x.toNat * 4 + l.wr.toNat * 2 + l.rd.toNat
def unpackLeaf (n b : Nat) : Leaf :=
  { phys := n / 16 * 65536 + b % 65536, dev := bits n 3 1 = 1, x := bits n 2 1 = 1, wr := bits n 1 1 = 1, rd := bits n 0 1 = 1 }

/-- A word behind a failed channel: writes to it are dropped (R341). -/
def State.lostWord (s : State) (w : Nat) : Bool :=
  stacked (32 * w) && (look {} s.channels (dieOfP (32 * w) * 16 + chanOfP (32 * w))).failed

/-- A word that gives no good bits: marked uncorrectable, or behind a failed channel (R340, R341). -/
def State.deadWord (s : State) (w : Nat) : Bool := look 0 s.eccHard w ≠ 0 || s.lostWord w

/-- The leaf of a byte address of a context: from a TLB, or by a walk (R331). -/
def State.leaf (s : State) (core : Option Nat) (asid : BitVec 14) (b : Nat) : Except Nat Leaf :=
  match s.tlbFind core asid b with
  | some n => .ok (unpackLeaf n b)
  | none =>
    match find s.ctxs asid.toNat with
    | some c => walk s.dram s.deadWord b walkLevels c.root.toNat
    | none => .error 0

/-- The words that the walk of a byte address reads; none when a TLB holds its page. -/
def State.walkOf (s : State) (core : Option Nat) (asid : BitVec 14) (b : Nat) : List Nat :=
  match s.tlbFind core asid b, find s.ctxs asid.toNat with
  | none, some c => walkWords s.dram b walkLevels c.root.toNat
  | _, _ => []

/-- The words that the walks for bits v .. v + w - 1 read, page by page. -/
def State.walksOf (s : State) (core : Option Nat) (asid : BitVec 14) (v w : Nat) : List Nat :=
  (List.range ((v % 2 ^ 19 + w + 2 ^ 19 - 1) / 2 ^ 19)).flatMap fun i => s.walkOf core asid ((v / 2 ^ 19 + i) * 2 ^ 19 % 2 ^ 60 / 8)

/-- R340, R341: a walk reads its entries as any read does: records, write-back and beats. -/
def State.readWalk (s : State) (who : Who) (ws : List Nat) : State := ws.foldl (fun s a => (s.readWords who none [a]).1) s

/-- The walks of an access. -/
def State.walked (s : State) (who : Who) (asid : BitVec 14) (v w : Nat) : State :=
  if who.quiet then s else s.readWalk who (s.walksOf who.core asid v w)

/-- R330: what an access needs of its leaf. -/
def Leaf.allows (l : Leaf) : AKind → Bool
  | .load => l.rd
  | .store => l.wr
  | .atomic => l.rd && l.wr
  | .reduce => l.rd && l.wr
  | .fetch => l.x

/-- A piece of an access in one page: physical bit address, width, and device type. -/
structure Piece where
  phys : Nat
  width : Nat
  dev : Bool
  deriving DecidableEq, Repr

/-- Translate bits v .. v + w - 1 page by page, before any of them is touched (R53). An error carries
its DETAIL and the virtual bit address that faulted. -/
def State.pieces (s : State) (core : Option Nat) (asid : BitVec 14) (k : AKind) : Nat → Nat → Nat → Except (Nat × Nat) (List Piece)
  | 0, _, _ => .ok []
  | fuel + 1, v, w =>
    if w = 0 then .ok []
    else
      let n := min w (2 ^ 19 - v % 2 ^ 19)
      match s.leaf core asid (v % 2 ^ 60 / 8) with
      | .error d => .error (d, v)
      | .ok l =>
        if l.allows k = false then .error (1, v)
        else match s.pieces core asid k fuel (v + n) (w - n) with
          | .error e => .error e
          | .ok rest => .ok ({ phys := 8 * l.phys + v % 8, width := n, dev := l.dev } :: rest)

/-- Translate an access of up to `w` bits at `v`. -/
def State.translate (s : State) (core : Option Nat) (asid : BitVec 14) (k : AKind) (v w : Nat) : Except (Nat × Nat) (List Piece) :=
  s.pieces core asid k (w / 2 ^ 19 + 2) v w

/-- A translation that failed (R330): in which context, its DETAIL, the virtual bit address that faulted, and where the access begins. -/
structure Miss where
  asid : BitVec 14
  detail : Nat
  addr : Nat
  first : Nat
  deriving DecidableEq, Repr

/-- The walks of an access that failed, up to the page that faulted, have read their entries (R340, R341). -/
def State.walkedTo (s : State) (who : Who) (m : Miss) : State := s.walked who m.asid m.first (m.addr - m.first + 1)

/-- The bits of translated pieces, lowest first. -/
def readPieces (m : List Host.Cell) : List Piece → Nat
  | [] => 0
  | p :: ps => readBits m p.phys p.width + 2 ^ p.width * readPieces m ps

/-- Read the words of a piece, or find those that gave no good bits when they were read. -/
def State.pieceRead (s : State) (who : Who) (p : Piece) : State × List Nat :=
  if who.quiet then (s, (wordsOf p.phys p.width).filter s.deadWord) else s.readWords who none (wordsOf p.phys p.width)

/-- Read translated pieces at their homes, the first at virtual bit address v; answers the virtual bit
addresses of the uncorrectable words. -/
def State.fetchPieces (s : State) (who : Who) (v : Nat) : List Piece → State × List Nat
  | [] => (s, [])
  | p :: ps =>
    let (s, a) := s.pieceRead who p
    let (s, b) := s.fetchPieces who (v + p.width) ps
    (s, a.map (fun w => v + 256 * w - p.phys) ++ b)

/-- Write translated pieces. -/
def State.storePieces (s : State) (who : Who) (v : Nat) : List Piece → State
  | [] => s
  | p :: ps => (s.writeWords who p.phys p.width v none (wordsOf p.phys p.width)).storePieces who (v / 2 ^ p.width) ps

/-- Whether a piece lies on a tripped layer (R343). -/
def State.trippedPieces (s : State) (ps : List Piece) : Bool :=
  ps.any fun p => (wordsOf p.phys p.width).any fun w => s.tripped (32 * w)

/-- The layer of a word: 2·die + layer. -/
def layerKey (w : Nat) : Nat := 2 * dieOfP (32 * w) + layerOfP (32 * w)

/-! ## Waiting at a tripped layer (R343) -/

/-- A tag whose access waits for room in the queue, or for a layer. -/
def noEntry : Nat := 2 ^ 70

/-- The engines that keep a place of their own in line at a layer. -/
inductive Lines where
  | copy | lcopy | stream | queue | coll | launch | drain | event
  deriving DecidableEq, Repr

/-- The place of an engine, by its key in State; of a stream, 256·step + its key, where step 0 is the head and i + 1 subscription i; of the
drain of a cluster for a context, 64·ASID + cluster; of the event word of a context, its ASID. -/
def placeOf (l : Lines) (key : Nat) : Nat :=
  16 * key + match l with
  | .copy => 1
  | .lcopy => 2
  | .stream => 3
  | .queue => 4
  | .coll => 5
  | .launch => 6
  | .drain => 7
  | .event => 8

/-- How an access is known in line: by its wet tag, an engine's by its place. -/
def Who.line (w : Who) : Option Nat := if w.place = 0 then none else some (noEntry + w.place)

/-- A subscription with a chunk to receive, of those that the head has read. -/
def Sub.waits (u : Sub) (head : Nat) : Bool := u.saved.isNone && u.queued = 0 && !u.cut && u.next < head

/-- Whether the engine of a place has an access to make. -/
def State.engineWaits (s : State) (p : Nat) : Bool :=
  let key := p / 16
  match p % 16 with
  | 1 => (find s.copies key).any fun c => c.queued = 0
  | 2 => (find s.lcopies key).any fun c => c.queued = 0
  | 3 => (find s.streams (key % 256)).any fun t => (t.pub.any fun c => (key < 256 → c.queued = 0) && (s.team c.team).all fun m => !m.saved)
        && (if key < 256 then t.head < t.total else (t.subs[key / 256 - 1]?).any (·.waits t.head))
  | 4 => (find s.queues key).any fun k => k.state < 2 && k.head ≠ k.tail && k.parked = 0 && k.handing.isNone
  | 5 => (find s.colls key).any fun c => c.queued = 0
  | 6 => (find s.launches key).isSome
  | 7 => (find s.sessions (key / 64)).isSome && (look {} s.clusters (key % 64) : Cluster).folio.any fun r => r.1.toNat = key / 64
  | 8 => s.eventsOwed.any fun e => e.1.toNat = key
  | _ => false

/-- What still waits: a word of a scribe that is parked on its layer, a tag whose access has not been performed, or an engine. -/
def State.stillWaits (s : State) (k : Waiter) : Bool :=
  if k.tag.any (noEntry < ·) then s.engineWaits (k.tag.getD 0 - noEntry)
  else match s.scribe k.sid with
  | none => false
  | some c => match k.tag with
    | none => c.run.park = some .trippedLayer || (c.run.park = some .outgoing && c.run.waitEntry = 0)
    | some t => match find c.wet.tags t with
      | some r => r.fault.isNone && noEntry ≤ r.queued
      | none => false

/-- R343: whether an access to a layer that arrived earlier still waits; `sid` and `tag` name the access itself. -/
def State.ahead (s : State) (sid : Option (BitVec 14)) (tag : Option Nat) (layer : Nat) : Bool :=
  let mine := fun (k : Waiter) => k.tag = tag && (some k.sid = sid || tag.any (noEntry < ·))
  ((look {} s.dies (layer / 2)).waiters.takeWhile fun k => !(k.layer = layer && mine k)).any fun k => k.layer = layer && s.stillWaits k

/-- R343: the layer that holds an access back, if one does: it serves no access, or serves those that arrived earlier first. -/
def State.heldAt (s : State) (sid : Option (BitVec 14)) (tag : Option Nat) (ws : List Nat) : Option Nat :=
  (ws.find? fun w => stacked (32 * w) && (s.tripped (32 * w) || s.ahead sid tag (layerKey w))).map layerKey

/-- An access takes its place among those that wait at a layer; places that nothing waits in any more are gone. -/
def State.lineUp (s : State) (sid : BitVec 14) (tag : Option Nat) (layer : Nat) : State :=
  let d : Die := look {} s.dies (layer / 2)
  let k : Waiter := ⟨sid, tag, layer⟩
  let rest := d.waiters.filter fun j => j = k || s.stillWaits j
  { s with dies := put {} s.dies (layer / 2) { d with waiters := if rest.contains k then rest else rest ++ [k] } }

/-- An engine leaves the line it stands in: it has been served, or waits for something else. It stands in one line at most. -/
def State.leaveLine (s : State) (who : Who) : State :=
  if who.place = 0 then s
  else match s.dies.find? fun d => d.2.waiters.any fun k => k.tag = who.line with
    | some (n, d) => { s with dies := put {} s.dies n { d with waiters := d.waiters.filter fun k => k.tag ≠ who.line } }
    | none => s

/-- What an engine that a layer holds back does: it takes its place there. None when it stands in that line already, keeps no place (an
access from outside: it arrives when it is tried), or waits for something else. -/
def State.standBy (s : State) (who : Who) (layer : Option Nat) : Option State :=
  match layer with
  | none => none
  | some ly =>
    if who.place = 0 ∨ (look {} s.dies (ly / 2) : Die).waiters.contains ⟨0, who.line, ly⟩ then none
    else some ((s.leaveLine who).lineUp 0 who.line ly)

/-! ## Rollback intervals (R348) -/

/-- An event that ends a team's rollbackable interval, with its trace record, which every such event writes; `why` is the place of
the event in R348's list. -/
def State.endRollback (s : State) (team : BitVec 14) (why : Nat) : State :=
  match s.team team with
  | none => s
  | some t =>
    if t.interval = .noCheckpoint then s
    else
      let s := if t.interval = .rollbackable then s.setTeam { t with interval := .notRollbackable } else s
      s.trace t.asid (t.cores.headD 0 / 64 * 16 + t.cores.headD 0 % 64 / 4) 0x0B 0 (s.corrOf t.launch) (2 + why * 256)

/-- An event whose word has had its record: it ends an interval that has begun since (R348). -/
def State.endRollbackLate (s : State) (team : BitVec 14) (why : Nat) : State :=
  if (s.team team).any fun t => t.interval = .rollbackable then s.endRollback team why else s

/-! ## Peer memory (R384, R385) -/

def peerPkg (a : Nat) : Nat := bits a 48 12

/-- R383: a package can be reached while some port towards it is up, and no request to it has waited in vain. -/
def State.pkgReachable (s : State) (pkg : Nat) : Bool := (s.ports.any fun p => p.2.up && p.2.pkg = pkg) && !s.unreachable.contains pkg

def State.peerReachable (s : State) (a : Nat) : Bool := s.pkgReachable (peerPkg a)

/-- R384: an address of the own package is served through the exported window: the context and its
virtual address. -/
def State.ownWindow (s : State) (a w : Nat) : Option (BitVec 14 × Nat) :=
  if peerPkg a = s.mgmt.pkg then
    match s.mgmt.window with
    | some (asid, lo, hi) => if lo + a % 2 ^ 48 + w ≤ hi then some (BitVec.ofNat 14 asid, lo + a % 2 ^ 48) else none
    | none => none
  else none

/-- The first word of another package that is marked uncorrectable, of those under bits a .. a + n - 1. -/
def State.peerBadWord (s : State) (a n : Nat) : Option Nat := (wordsOf a n).find? fun w => look false s.peerBad w
def State.peerPoison (s : State) (a n : Nat) : Bool := (s.peerBadWord a n).isSome

/-- The 256-bit words wholly inside bits a .. a + n - 1. -/
def wholeWords (a n : Nat) : List Nat := (wordsOf a n).filter fun w => a ≤ 256 * w ∧ 256 * w + 256 ≤ a + n

/-- Write bits of another package's memory. -/
def State.peerWrite (s : State) (a n v : Nat) : State :=
  { s with peer := writeBits s.peer a n v, peerTags := clearTags (unitsOf a n).2 (unitsOf a n).1 s.peerTags,
           peerBad := (wholeWords a n).foldl (fun t w => put false t w false) s.peerBad }

end Sys2Proof.Machine
end

