-- ==== Sys2Proof/Machine/Cells.lean ====
section
/-! DEFINITION. The plane: lines and their owners (R188 to R194), undo lines (R348), the operand lines
that matrix loops hold (R211, R215, R224), holes and edges (R195), and the checks of a lane access
(R196). -/

namespace Sys2Proof.Machine

open Sys2Proof

/-! ## Lines -/

/-- The number of a line: PE number and line index. Its plane bit address is 512 times it. -/
def lineNo (pe line : Nat) : Nat := 256 * pe + line

/-- The plane bit address of a depth in a PE (R8). -/
def planeAddr (pe depth : Nat) : Nat := 131072 * pe + depth

def peOfLine (ln : Nat) : Nat := ln / 256

/-- The lines bits a .. a + w - 1 touch, ascending. -/
def linesIn (a w : Nat) : List Nat := (List.range ((a % 512 + w + 511) / 512)).map (· + a / 512)

def State.line (s : State) (ln : Nat) : LineMeta := look {} s.lines ln
def State.setLine (s : State) (ln : Nat) (m : LineMeta) : State := { s with lines := put {} s.lines ln m }

/-- The 512 bits of a line. -/
def State.lineBits (s : State) (ln : Nat) : BitVec 512 := BitVec.ofNat 512 (readBits s.plane (512 * ln) 512)

def OwnSt.code : OwnSt → Nat
  | .free => 0
  | .own => 1
  | .shared => 2
  | .engine => 3

/-- Engine identifiers (Table 09-3): class and index. -/
def engineId (cls index : Nat) : BitVec 14 := BitVec.ofNat 14 (cls * 1024 + index)
def engineClass (id : BitVec 14) : Nat := bits id.toNat 10 4

/-- Metadata as PROBE shows it (Table 09-2). -/
def LineMeta.word (m : LineMeta) : Nat :=
  m.owner.toNat + m.st.code * 2 ^ 14 + m.present.toNat * 2 ^ 16 + m.poison.toNat * 2 ^ 17 + m.tags.toNat * 2 ^ 18

/-- TINFO of OWNERSHIP (Table 08-1; bit 23 of R224). -/
def ownInfo (m : LineMeta) (lane : Nat) (loop : Bool) : Nat :=
  m.st.code + m.owner.toNat * 4 + m.present.toNat * 2 ^ 16 + lane * 2 ^ 17 + loop.toNat * 2 ^ 23

/-! ## Patches and allocations -/

def Place.covers (p : Place) (pe : Nat) : Bool :=
  p.ox ≤ pe % 256 && pe % 256 < p.ox + p.pw && p.oy ≤ pe / 256 && pe / 256 < p.oy + p.ph

/-- A scribe's declared lines in a PE (R185). -/
def Place.owns (p : Place) (ln : Nat) : Bool :=
  p.covers (peOfLine ln) && p.firstLine ≤ ln % 256 && ln % 256 < p.firstLine + p.lines

/-- R186: a line of a team's allocation. -/
def Team.allocated (t : Team) (ln : Nat) : Bool := t.places.any (·.owns ln)

/-- The team, and its scribe's place, whose allocation holds a line. -/
def State.allocOf (s : State) (ln : Nat) : Option (Team × Place) :=
  s.teams.findSome? fun p => if p.2.saved then none else (p.2.places.find? (·.owns ln)).map fun q => (p.2, q)

/-- Tiles rounded as Table 09-1 gives. -/
def tileGroup : Nat → Nat
  | 0 => 0
  | 1 => 1
  | 2 => 2
  | _ => 4

/-- R347: lines of a register image. -/
def Place.imageLines (p : Place) : Nat := p.vregs / 16 + 4 * tileGroup p.tiles + 6

/-! ## Undo lines (R348) -/

/-- Before a write to a line or a flip of its owner: the first one of a rollbackable interval copies
the line into an undo line of its PE, or ends rollback when none is free. -/
def State.touchLine (s : State) (ln : Nat) : State :=
  match s.allocOf ln with
  | none => s
  | some (t, p) =>
    if t.interval = .noCheckpoint ∨ (find t.undo ln).isSome ∨ t.noUndo.contains ln then s
    else
      let used := (t.undo.filter fun q => peOfLine q.1 = peOfLine ln && p.owns q.1).length
      if used + p.imageLines < p.undo then
        s.setTeam { t with undo := set t.undo ln (s.lineBits ln, s.line ln) }
      else (s.setTeam { t with noUndo := t.noUndo ++ [ln] }).endRollback t.id 1

def State.touchLines (s : State) : List Nat → State
  | [] => s
  | l :: ls => (s.touchLine l).touchLines ls

/-! ## Reading and writing cells -/

def State.planeRead (s : State) (a w : Nat) : Nat := readBits s.plane a w

/-- Clear the tags of the units that a write of bits a .. a + w - 1 touches in a line (R63). -/
def LineMeta.clearTags (m : LineMeta) (ln a w : Nat) : LineMeta :=
  let hit := fun (u : Nat) => decide (a < 512 * ln + 128 * u + 128 ∧ 512 * ln + 128 * u < a + w)
  { m with tags := BitVec.ofNat 4 ((List.range 4).foldl (fun acc u => if bits m.tags.toNat u 1 = 1 && !hit u then acc + 2 ^ u else acc) 0) }

def State.clearLineTags (s : State) (a w : Nat) : List Nat → State
  | [] => s
  | l :: ls => (s.setLine l ((s.line l).clearTags l a w)).clearLineTags a w ls

/-- R51, R63: a store of w bits into cells, a merge at the port. -/
def State.planeStore (s : State) (a w v : Nat) : State :=
  let ls := linesIn a w
  let s := s.touchLines ls
  let s := { s with plane := writeBits s.plane a w v }
  s.clearLineTags a w ls

/-- An engine or tile writes a whole line, which sets its poison (R190). -/
def State.writeLine (s : State) (ln : Nat) (v : Nat) (poison : Bool) : State :=
  let s := s.touchLine ln
  let s := { s with plane := writeBits s.plane (512 * ln) 512 v }
  s.setLine ln { s.line ln with tags := 0, poison := poison }

/-- A line changes its owner. -/
def State.flip (s : State) (ln : Nat) (st : OwnSt) (owner : BitVec 14) : State :=
  let s := s.touchLine ln
  let m := s.line ln
  s.setLine ln { m with st := st, owner := owner, holder := 0, landShared := false, packet := false, present := true,
                        poison := if st = .free then false else m.poison }

def State.planePoison (s : State) (a w : Nat) : Bool := (linesIn a w).any fun l => (s.line l).poison

/-! ## Operand lines of matrix loops (R209 to R218, R224) -/

/-- Bits of an operand format of the nib (Table 10-1). -/
def nibBits : Nat → Nat
  | 0x04 => 16
  | 0x05 => 16
  | 0x09 => 3
  | 0x0A => 4
  | 0x0B => 6
  | _ => 8

/-- Class of an operand format: 0 float, 1 integer, 2 narrow, 3 not one of the nib's. -/
def nibClass : Nat → Nat
  | 0x00 => 1
  | 0x01 => 1
  | 0x02 => 0
  | 0x03 => 0
  | 0x04 => 0
  | 0x05 => 0
  | 0x09 => 2
  | 0x0A => 2
  | 0x0B => 2
  | _ => 3

/-- K values per cycle and step depth of a format (Table 10-1). -/
def nibK : Nat → Nat
  | 0x04 => 2
  | 0x05 => 2
  | 0x0B => 8
  | 0x0A => 16
  | 0x09 => 16
  | _ => 4

def nibKs : Nat → Nat
  | 0x04 => 4
  | 0x05 => 4
  | 0x0B => 64
  | 0x0A => 64
  | 0x09 => 64
  | _ => 8

/-- Fields of the format block (Table 10-2). -/
def Loop.afmt (l : Loop) : Nat := bits l.fb.toNat 0 5
def Loop.bfmt (l : Loop) : Nat := bits l.fb.toNat 5 5
def Loop.la (l : Loop) : Nat := 8 * 2 ^ bits l.fb.toNat 13 2
def Loop.lb (l : Loop) : Nat := 8 * 2 ^ bits l.fb.toNat 15 2
def Loop.asd (l : Loop) : Nat := bits l.fb.toNat 32 17
def Loop.bsd (l : Loop) : Nat := bits l.fb.toNat 49 17
def Loop.sinc (l : Loop) : Nat := bits l.fb.toNat 66 16
def Loop.narrow (l : Loop) : Bool := nibClass l.afmt = 2

/-- R210. -/
def Loop.k (l : Loop) : Nat := min (nibK l.afmt) (nibK l.bfmt)
def Loop.ks (l : Loop) : Nat := max (nibKs l.afmt) (nibKs l.bfmt)
def Loop.linesA (l : Loop) : Nat := l.ks * nibBits l.afmt / 64
def Loop.linesB (l : Loop) : Nat := l.ks * nibBits l.bfmt / 64

/-- R218: the PE that supplies B to a lane of a loop: the lane's own, or the bus source of its column. -/
def Loop.bPe (l : Loop) (p : Place) (lane : Nat) : Nat :=
  if l.bsrc = 1 then 256 * l.bRow + p.ox + lane % p.pw else p.peOf lane

/-- The lines of n consecutive lines of a PE from a line index on. -/
def peLines (pe first n : Nat) : List Nat := (List.range n).map fun i => lineNo pe (first + i)

/-- R211: depth of the scale bytes of step s, and their bits. -/
def Loop.aScale (l : Loop) (s : Nat) : Nat := l.asd + s * l.sinc
def Loop.bScale (l : Loop) (s : Nat) : Nat := l.bsd + s * l.sinc
def Loop.aScaleBits (l : Loop) : Nat := 64 * (l.ks / l.la)
def Loop.bScaleBits (l : Loop) : Nat := 64 * (l.ks / l.lb)

/-- R215: the operand lines of step s in a lane. -/
def Loop.stepLines (l : Loop) (p : Place) (lane s : Nat) : List Nat :=
  let pe := p.peOf lane
  let bpe := l.bPe p lane
  (if l.aRegs then [] else peLines pe (l.aDepth / 512 + s * l.ia) l.linesA)
    ++ (if l.bsrc = 2 then [] else peLines bpe (l.bDepth / 512 + s * l.ib) l.linesB)
    ++ (if l.narrow then linesIn (planeAddr pe (l.aScale s)) l.aScaleBits else [])
    ++ (if l.narrow ∧ l.bsrc ≠ 2 then linesIn (planeAddr bpe (l.bScale s)) l.bScaleBits else [])

/-- Steps of a loop a lane has run. -/
def Loop.ran (l : Loop) (lane : Nat) : Nat := look 0 l.progress lane

/-- R224: whether a loop still holds a line in some lane. -/
def Loop.holds (l : Loop) (p : Place) (ln : Nat) : Bool :=
  (lanesOf l.lanes).any fun lane =>
    (List.range l.steps).any fun s => l.ran lane ≤ s && (l.stepLines p lane s).contains ln

/-- The scribes whose loops, or copies and streams that read it (R287), hold a line. -/
def State.loopHolders (s : State) (ln : Nat) : List (BitVec 14) :=
  (s.loops.filter fun q =>
    match s.scribe q.2.sid with
    | some c => q.2.holds c.at_ ln
    | none => false).map (·.2.sid) ++ (s.copies.filter fun q => q.2.srcLines.contains ln).map (·.2.sid)
    ++ (s.lcopies.filter fun q => q.2.srcLines.contains ln).map (·.2.sid)
    ++ (s.streams.filterMap fun q => q.2.pub).filterMap fun c => if c.srcLines.contains ln then some c.sid else none

/-- R262: whether bits a .. a + w - 1 of the plane cover a bit of a live barrier object. -/
def State.barHit (s : State) (a w : Nat) : Bool := s.bars.any fun b => a < b.1 + 256 && b.1 < a + w

/-- TINFO of OWNERSHIP for a write over a live object. -/
def barInfo (m : LineMeta) (lane : Nat) : Nat := ownInfo m lane false + 2 ^ 24

/-- R262: the report of a line that refuses an access of bits a .. a + w - 1: a store that would change a bit of a live object in
the line says so too. -/
def State.refusal (s : State) (store : Bool) (a w ln tinfo : Nat) : Nat :=
  let lo := max a (512 * ln)
  if store && s.barHit lo (min (a + w) (512 * ln + 512) - lo) then tinfo + 2 ^ 24 else tinfo

/-! ## Who may touch a line (R191 to R193, R224) -/

/-- What a line says to an access. -/
inductive LineSay where
  | ok
  /-- a load of a line that is landing for the scribe -/
  | landing
  /-- the access waits until the line flips, a loop has read it, or its island has left retention -/
  | waits (p : Park)
  | bad (tinfo : Nat)
  deriving DecidableEq, Repr

/-- R192: a line that is landing for a scribe. -/
def State.landsFor (s : State) (m : LineMeta) (id team : BitVec 14) : Bool :=
  !m.packet && (m.holder = id || (m.landShared && (match s.team team with
    | some t => t.scribes.contains m.holder
    | none => false)))

/-- Table 09-4 for a load or store by a scribe, without loops. -/
def State.tableSay (s : State) (id team : BitVec 14) (store : Bool) (m : LineMeta) (lane : Nat) : LineSay :=
  match m.st with
  | .free => .bad (ownInfo m lane false)
  | .own => if m.owner = id then .ok else .bad (ownInfo m lane false)
  | .shared => if m.owner = team ∧ store = false then .ok else .bad (ownInfo m lane false)
  | .engine =>
    if m.present = false then
      if s.landsFor m id team ∧ store = false then .landing else .bad (ownInfo m lane false)
    else if m.holder = id ∧ (engineClass m.owner = 1 ∨ engineClass m.owner = 2) then .waits .line
    else .bad (ownInfo m lane false)

/-- The island that holds a line. -/
def islandOfLine (ln : Nat) : Nat :=
  let x := peOfLine ln % 256
  let y := peOfLine ln / 256
  4 * pkgCoreAt x y + x % 16 / 8 + 2 * (y % 16 / 8)

/-- R353: whether the island of a line is in retention. -/
def State.retained (s : State) (ln : Nat) : Bool := (look {} s.islands (islandOfLine ln)).retention

/-- An access waits for the island of a line to wake. -/
def State.want (s : State) (ln : Nat) : State :=
  let i : Island := look {} s.islands (islandOfLine ln)
  { s with islands := put {} s.islands (islandOfLine ln) { i with wanted := true } }

/-- The stop of a word that waits for a line. -/
def State.lineWait (s : State) (p : Park) (ln : Nat) : Stop := if p = .retention then .parkIn (s.want ln) p else .park p

/-- R191 with R224: what a line says to a load, or to a store or atomic, by a scribe. An island in retention
wakes first (R353). -/
def State.lineSay (s : State) (id team : BitVec 14) (store : Bool) (lane ln : Nat) : LineSay :=
  let m := s.line ln
  if s.retained ln then .waits .retention else
  let say := s.tableSay id team store m lane
  if store then
    let hs := s.loopHolders ln
    if hs.any (· ≠ id) then .bad (ownInfo m lane true)
    else match say with
      | .ok => if hs = [] then .ok else .waits .loopLine
      | _ => say
  else say

/-- What the lines of an access say together: the first refusal with its line, else a wait, else
landing, else served. -/
def State.linesSay (s : State) (id team : BitVec 14) (store : Bool) (lane : Nat) : List Nat → LineSay × Nat
  | [] => (.ok, 0)
  | l :: ls =>
    match s.lineSay id team store lane l, s.linesSay id team store lane ls with
    | .waits p, _ => (.waits p, l)
    | _, (.waits p, k) => (.waits p, k)
    | .bad t, _ => (.bad t, l)
    | _, (.bad t, k) => (.bad t, k)
    | .landing, _ => (.landing, l)
    | .ok, r => r

/-! ## Holes and edges (R195) -/

/-- The wait of the first access of a list that waits. -/
def State.firstWait (s : State) (l : List (LineSay × Nat)) : Option Stop :=
  l.findSome? fun q => match q.1 with
    | .waits p => some (s.lineWait p q.2)
    | _ => none

/-- Set HOLEF bits. -/
def State.setHolef (s : State) (m : Nat) : State := s.onCtl fun c => { c with holef := c.holef ||| word m }

/-- FILLV as the w bits a load of a hole receives: in each word of 32 bits. -/
def fillBits (fillv : Lane) (w : Nat) : Nat :=
  fillv.toNat * (1 + 2 ^ 32 + 2 ^ 64 + 2 ^ 96) % 2 ^ w

/-! ## Lane access to the plane (R196) -/

/-- Where a lane's access goes: cells at a plane bit address, perhaps landing, or nowhere with the
HOLEF bits of a load and of a store. -/
inductive Target where
  | cell (a : Nat) (landing : Bool)
  | none (load store : Nat)
  deriving DecidableEq, Repr

/-- What the check of one lane gives: a target, a wait, or a failure with its rank in the order of R196. -/
inductive LaneCheck where
  | go (t : Target)
  | waits (p : Park) (ln : Nat)
  | fails (rank : Nat) (t : Trap)
  deriving DecidableEq, Repr

def int16 (i : Int) : Nat := modw 16 i

/-- TINFO of a lane access (Table 08-1, DETAIL 1); a VAMO is a lane store as well as an atomic (R207). -/
def laneInfo (wd : Nat) (store amo : Bool) (lane : Nat) : Nat :=
  (wd - 1) % 256 * 16 + (if store then 2 ^ 12 else 0) + (if amo then 2 ^ 13 else 0) + lane * 2 ^ 16

/-- R196: the check of one lane. `store` for stores and VAMO, `amo` for VAMO. -/
def State.laneCheck (s : State) (store amo : Bool) (dx dy : Int) (wd : Nat) (depth : Int) (lane : Nat) : LaneCheck :=
  let p := s.me.at_
  let x : Int := (p.peOf lane % 256 : Nat)
  let y : Int := (p.peOf lane / 256 : Nat)
  let tx := x + dx
  let ty := y + dy
  let bad := depth < 0 || 131072 < depth + wd
    || (amo && (if wd = 32 || wd = 64 then depth.toNat % wd ≠ 0 else 32 < depth.toNat % 32 + wd))
  if bad then
    .fails 0 { code := cALIGN, detail := 1, tinfo := laneInfo wd store amo lane,
               taddr := modw 33 ((y * 256 + x) * 131072 + depth) }
  else
    let off := tx < 0 || 255 < tx || ty < 0 || 255 < ty
    let pe := (ty * 256 + tx).toNat
    if off then
      if p.strict then
        .fails 1 { code := cREACH, detail := if store then 1 else 0, tinfo := lane,
                   taddr := int16 tx + int16 ty * 2 ^ 16 + depth.toNat * 2 ^ 32 }
      else .go (.none 4 8)
    else if s.hole pe then
      if p.strict then
        .fails 1 { code := cHOLE_ACCESS, detail := if store then 1 else 0, tinfo := lane, taddr := planeAddr pe depth.toNat }
      else .go (.none 1 2)
    else
      let a := planeAddr pe depth.toNat
      match s.linesSay p.id p.team store lane (linesIn a wd) with
      | (.ok, _) =>
        if store && s.barHit a wd then
          .fails 2 { code := cOWNERSHIP, detail := 1, tinfo := barInfo (s.line (a / 512)) lane, taddr := 512 * (a / 512) }
        else .go (.cell a false)
      | (.landing, _) => .go (.cell a true)
      | (.waits q, l) => .waits q l
      | (.bad t, l) => .fails 2 { code := cOWNERSHIP, detail := if store then 1 else 0, tinfo := s.refusal store a wd l t, taddr := 512 * l }

/-- The trap of the first failing lane of the lowest rank. -/
def firstFail (l : List (Nat × LaneCheck)) : Option Trap :=
  let at_ := fun (r : Nat) => l.findSome? fun p => match p.2 with
    | .fails k t => if k = r then some t else none
    | _ => none
  (at_ 0).orElse fun _ => (at_ 1).orElse fun _ => at_ 2

/-- R196: check every active lane; waiting comes before trapping, and any failure stops every lane. -/
def State.lanePlane (s : State) (store amo : Bool) (dx dy : Int) (w : Nat) (depth : Nat → Int) (lanes : List Nat) : Res (List (Nat × Target)) :=
  let l := lanes.map fun i => (i, s.laneCheck store amo dx dy w (depth i) i)
  match l.findSome? fun q => match q.2 with
    | .waits p ln => some (s.lineWait p ln)
    | _ => none with
  | some e => .error e
  | none => match firstFail l with
    | some t => trap t
    | none => .ok (l.filterMap fun p => match p.2 with
        | .go t => some (p.1, t)
        | _ => none)

end Sys2Proof.Machine
end

