-- ==== Sys2Proof/Machine/Flags.lean ====
section
/-! DEFINITION. The FPM register (R38 to R40): what an instruction captures, the sticky flags it
sends, and the draws of mode 5 (R35). -/

namespace Sys2Proof.Machine

open Sys2Proof

def Ctl.rmField (c : Ctl) : Nat := bits c.fpm.toNat 0 3
def Ctl.daz (c : Ctl) : Bool := bits c.fpm.toNat 3 1 = 1
def Ctl.ftz (c : Ctl) : Bool := bits c.fpm.toNat 4 1 = 1
def Ctl.sat (c : Ctl) : Bool := bits c.fpm.toNat 5 1 = 1

/-- R39: what an instruction without a rounding field captures. -/
def Ctl.rm (c : Ctl) : Rm := { mode := c.rmField, daz := c.daz, ftz := c.ftz, sat := c.sat }

/-- The same with a mode of its own. -/
def Ctl.rmWith (c : Ctl) (mode : Nat) : Rm := { c.rm with mode := mode }

/-- R132: the 2-bit RND field: FPM.RM, nearest even, toward zero, stochastic. -/
def Ctl.rnd (c : Ctl) (r : Nat) : Rm :=
  match r with
  | 0 => c.rm
  | 1 => c.rmWith 0
  | 2 => c.rmWith 1
  | _ => c.rmWith 5

/-- R40: flags reach FPM, each bit only set. -/
def Ctl.addFlags (c : Ctl) (f : Flags) : Ctl := { c with fpm := c.fpm ||| word (f.toNat * 2 ^ 16) }

def State.addFlags (s : State) (f : Flags) : State := s.onCtl fun c => c.addFlags f

/-- A draw in mode 5: the new state, and the value u; no draw in any other mode. -/
def draw (mode : Nat) (st : Lane) : Lane × Nat :=
  if mode = 5 then (rngNext st, (rngNext st).toNat) else (st, 0)

/-- What a lane's computation gives: the word, its flags and the lane's stochastic state after it. -/
structure LaneOut where
  v : Lane
  flags : Flags := 0
  rng : Lane
  deriving DecidableEq, Repr

/-- Round once in a lane: the encoding of an exact value with the flags raised on the way to it. -/
def roundLane (x : Val × Flags) (f : Fmt) (rm : Rm) (st : Lane) : LaneOut :=
  let (st', u) := draw rm.mode st
  let r := round x.1 f rm u
  { v := BitVec.ofNat 32 r.code, flags := x.2 ||| r.flags, rng := st' }

/-- Two 16-bit halves, the low half computed first (R116). -/
def packHalves (f : Bool → Lane → LaneOut) (st : Lane) : LaneOut :=
  let lo := f false st
  let hi := f true lo.rng
  { v := BitVec.ofNat 32 (lo.v.toNat % 65536 + hi.v.toNat % 65536 * 65536), flags := lo.flags ||| hi.flags, rng := hi.rng }

/-- The half of a register word. -/
def half (h : Bool) (v : Lane) : Nat := bits v.toNat (if h then 16 else 0) 16

/-- The stochastic states after the lanes have run. -/
def putRngs : List (Nat × LaneOut) → Tbl Lane → Tbl Lane
  | [], t => t
  | (l, o) :: rest, t => putRngs rest (put 0 t l o.rng)

/-- The flags of all lanes. -/
def orFlags (l : List (Nat × LaneOut)) : Flags := l.foldl (fun a p => a ||| p.2.flags) 0

/-- Write the outputs of the lanes of `m` to a register, with their draws and flags. -/
def State.putOuts (s : State) (reg : Nat) (m : Word) (outs : List (Nat × LaneOut)) : State :=
  let s1 := s.setV reg m fun l => (look { v := 0, rng := 0 } outs l).v
  (s1.onR fun r => { r with rng := putRngs outs r.rng }).addFlags (orFlags outs)

/-- Compute each lane of `m` and write the results to a register, with draws and flags. -/
def State.runLanes (s : State) (reg : Nat) (m : Word) (f : Nat → Lane → LaneOut) : State :=
  s.putOuts reg m ((lanesOf m).map fun l => (l, f l (look 0 s.me.r.rng l)))

end Sys2Proof.Machine
end

