-- ==== Sys2Proof/Machine/Operands.lean ====
section
/-! DEFINITION. Operand forms: dry uses of scalar, capability, predicate and lane registers with what
they raise or wait for (R88, R153, R156, R159, R177), active lanes (R13, R14), immediates that the
word XIM widens (R82), and writes of capability registers (R107). -/

namespace Sys2Proof.Machine

open Sys2Proof

/-! ## Wet and poisoned operands -/

/-- WET_FAULT of a faulted record (R156). -/
def Scribe.wetFault (c : Scribe) (r : WetRec) (cause : Nat) : Trap :=
  match find c.wet.tags r.tag with
  | some t => { code := cWET_FAULT, detail := cause, tinfo := t.pc.toNat, taddr := t.addr, replay := some r.tag }
  | none => { code := cWET_FAULT, detail := cause, replay := some r.tag }

/-- R153: a use that needs the bits: a pending record parks, a faulted one traps. -/
def Scribe.needDry (c : Scribe) (r : WetRec) : Res Unit :=
  match r.fault with
  | some cause => trap (c.wetFault r cause)
  | none => parkOn .wetOperand

def Scribe.wetS (c : Scribe) (code : Nat) : Option WetRec := find c.wet.s (xKey c.ctl.depth code)
def Scribe.wetV (c : Scribe) (reg : Nat) : Option WetRec := find c.wet.v reg

/-- POISON of a scalar word (R177). -/
def poisonS (code : Nat) : Trap := { code := cPOISON, detail := 0, tinfo := 1, taddr := code + 64 }

/-- A dry use of a scalar register: its value. -/
def State.sval (s : State) (code : Nat) : Res Word :=
  match s.me.wetS code with
  | some r => (match s.me.needDry r with
    | .error e => .error e
    | .ok _ => .ok (s.getS code))
  | none =>
    if look false s.me.r.ps (xKey s.me.ctl.depth code) then trap (poisonS code) else .ok (s.getS code)

/-- The scalars of a list are dry and clean; the first in field order that is not decides whether the word parks or traps (the model's choice,
log 137). -/
def State.sdry (s : State) : List Nat → Res Unit
  | [] => .ok ()
  | c :: cs => (match s.sval c with
    | .error e => .error e
    | .ok _ => s.sdry cs)

/-- POISON of a capability register (R177). -/
def poisonC (n : Nat) : Trap := { code := cPOISON, detail := 0, tinfo := 1, taddr := n + 128 }

/-- A use of a capability register: its content. -/
def State.cval (s : State) (n : Nat) : Res Cap :=
  if look false s.me.r.pcap n then trap (poisonC n) else .ok (s.getC n)

/-- The lanes of a mask in which a register's word is poisoned; `wetToo` counts lanes that resolved from
a poisoned line (R159). -/
def Scribe.poisonLanes (c : Scribe) (reg : Nat) (m : Word) (wetToo : Bool) : Word :=
  word ((lanesOf m).foldl (fun acc l =>
    let p := look 0 c.r.pv (vKey reg l)
    if p = 1 ∨ p = 3 ∨ (wetToo ∧ p = 2) then acc + 2 ^ l else acc) 0)

/-- The lanes of a mask whose word carries a mark that something has set: errors that nothing has found are not among them. -/
def Scribe.markedLanes (c : Scribe) (reg : Nat) (m : Word) : Word :=
  word ((lanesOf m).foldl (fun acc l => if look 0 c.r.pv (vKey reg l) = 1 ∨ look 0 c.r.pv (vKey reg l) = 2 then acc + 2 ^ l else acc) 0)

/-- POISON of a lane register over a mask of lanes (Table 08-1). -/
def Scribe.poisonV (c : Scribe) (reg : Nat) (m : Word) : Trap :=
  let low := (lanesOf m).headD 0
  { code := cPOISON, detail := if look 0 c.r.pv (vKey reg low) = 2 then 2 else 0, tinfo := m.toNat,
    taddr := if 64 ≤ reg then reg - 4 else reg }

/-- A dry use of a lane register in the lanes of a mask. -/
def State.vdry (s : State) (reg : Nat) (m : Word) : Res Unit :=
  match s.me.wetV reg with
  | some r =>
    if r.mask &&& m ≠ 0 then s.me.needDry r
    else if s.me.poisonLanes reg m true = 0 then .ok () else trap (s.me.poisonV reg (s.me.poisonLanes reg m true))
  | none =>
    if s.me.poisonLanes reg m true = 0 then .ok () else trap (s.me.poisonV reg (s.me.poisonLanes reg m true))

/-- The same for each register of a list: the first of it that is poisoned or wet decides, as the word names them (log 101). -/
def State.vdryAll (s : State) (m : Word) : List Nat → Res Unit
  | [] => .ok ()
  | r :: rs => (match s.vdry r m with
    | .error e => .error e
    | .ok _ => s.vdryAll m rs)

/-- An affine use (Table 07-1): a lane that resolved from a poisoned line passes; another poisoned word
does not. -/
def State.vclean (s : State) (reg : Nat) (m : Word) : Res Unit :=
  if s.me.poisonLanes reg m false = 0 then .ok () else trap (s.me.poisonV reg (s.me.poisonLanes reg m false))

/-- A register carries a record or a wet-line poison in some lane of a mask. -/
def Scribe.touchedByWet (c : Scribe) (reg : Nat) (m : Word) : Bool :=
  (match c.wetV reg with
    | some r => decide (r.mask &&& m ≠ 0)
    | none => false)

/-! ## Active lanes (R13, R14, R75) -/

/-- The mask in which a guard holds. -/
def Scribe.guard (c : Scribe) (g : BitVec 4) : Word :=
  let q := c.getQ (bits g.toNat 0 3)
  if bits g.toNat 3 1 = 1 then ~~~q else q

/-- The active lanes of a guarded word. -/
def State.active (s : State) (g : BitVec 4) : Word := s.liveLanes s.me.at_ &&& s.me.guard g

/-- Every lane of the patch that is not on a hole. -/
def State.live (s : State) : Word := s.liveLanes s.me.at_

/-! ## Widened immediates (R82) -/

/-- A signed immediate of n bits with the payload of a word XIM above it. -/
def State.simm (s : State) (n v : Nat) : Int :=
  match s.me.ctl.xim with
  | some p => signed (n + 26) (p.toNat * 2 ^ n + v)
  | none => signed n v

/-- An unsigned one. -/
def State.uimm (s : State) (n v : Nat) : Nat :=
  match s.me.ctl.xim with
  | some p => p.toNat * 2 ^ n + v
  | none => v

/-- The signed payload as an offset of its own, zero without a word XIM. -/
def State.xoff (s : State) : Int :=
  match s.me.ctl.xim with
  | some p => signed 26 p.toNat
  | none => 0

/-- Check 4 of Table 04-9: a payload of which every bit is reserved. -/
def State.noPayload (s : State) (w : Nat) : Res Unit :=
  match s.me.ctl.xim with
  | some p => if p = 0 then .ok () else trap { code := cILLEGAL, detail := 4, tinfo := w }
  | none => .ok ()

/-! ## Capability registers (R107) -/

/-- R107: whether an instruction may write capability register n. -/
def State.mayWriteC (s : State) (n : Nat) (w : Nat) : Res Unit :=
  if n = 14 ∨ (n = 15 ∧ s.me.ctl.handler = false) then trap (illegal9 w) else .ok ()

/-- The bits of the word of an instruction, for TINFO of ILLEGAL. -/
def wordBits (i : Instr) : Nat := encodeNat i

end Sys2Proof.Machine
end

