-- ==== Sys2Proof/Machine/Wet.lean ====
section
/-! DEFINITION. Wet registers: tags and records (R148 to R150), operations that keep a register wet
(R151, R152, R154), and resolution (R155, R156, R159). -/

namespace Sys2Proof.Machine

open Sys2Proof

/-! ## Records -/

/-- R149: the records a scribe holds. One whose value has come as POISON is a mark of its lanes, and no record any more (log 102). -/
def Wets.recCount (w : Wets) : Nat := w.s.length + w.v.length

/-- Put a record on a scalar register, with its offset in the register. -/
def Scribe.putWetS (c : Scribe) (key : Nat) (r : WetRec) (o : Word) : Scribe :=
  let old := find c.wet.s key
  let c := { c with wet := { c.wet with s := set c.wet.s key r },
                    r := { c.r with x := put 0 c.r.x key o, ps := put false c.r.ps key false } }
  match old with
  | some q => c.releaseTag q.tag
  | none => c

/-- A scalar result that stays wet: parks for want of a record (R149). -/
def State.wetS (s : State) (d : Nat) (r : WetRec) (o : Word) : Res State :=
  let key := xKey s.me.ctl.depth d
  if (find s.me.wet.s key).isNone ∧ 32 ≤ s.me.wet.recCount then parkOn .record
  else .ok { s with me := s.me.putWetS key r o }

/-- Put a record on a lane register; `f` gives the words of the lanes of `m`, wet or not, and their
poison marks. -/
def Scribe.putWetV (c : Scribe) (reg : Nat) (m : Word) (r : WetRec) (f : Nat → Lane × Nat) : Scribe :=
  let old := find c.wet.v reg
  let c := { c with wet := { c.wet with v := set c.wet.v reg r }, r := writeLanes reg f (lanesOf m) c.r }
  match old with
  | some q => c.releaseTag q.tag
  | none => c

/-- A lane result that stays wet (R149, R154). -/
def State.wetV (s : State) (reg : Nat) (m : Word) (r : WetRec) (f : Nat → Lane × Nat) : Res State :=
  match find s.me.wet.v reg with
  | some q =>
    if q.mask &&& ~~~r.mask ≠ 0 then s.vdry reg q.mask >>= fun _ => parkOn .wetOperand
    else .ok { s with me := s.me.putWetV reg m r f }
  | none =>
    if 32 ≤ s.me.wet.recCount then parkOn .record
    else .ok { s with me := s.me.putWetV reg m r f }

/-! ## Integer operations on wet scalars (Table 07-1) -/

/-- The affine operations of Table 07-1 with two operands. -/
inductive Affine where
  | add | sub | mul
  deriving DecidableEq, Repr

def Affine.app {w : Nat} (o : Affine) (x y : BitVec w) : BitVec w :=
  match o with
  | .add => x + y
  | .sub => x - y
  | .mul => x * y

/-- The scale and offset of `o` applied to a wet operand (a, x) and a dry y; `left` when the wet operand
stands first. -/
def Affine.wet {w : Nat} (o : Affine) (left : Bool) (a x y : BitVec w) : BitVec w × BitVec w :=
  match o with
  | .add => (a, x + y)
  | .sub => if left then (a, x - y) else (-a, y - x)
  | .mul => (a * y, x * y)

/-- An affine instruction on scalar registers (R151). -/
def State.affineS (s : State) (o : Affine) (d a b : Nat) : Res State :=
  match s.me.wetS a, s.me.wetS b with
  | none, none =>
    (match s.sval a with
    | .error e => .error e
    | .ok x => match s.sval b with
      | .error e => .error e
      | .ok y => .ok (s.setS d (o.app x y)))
  | some r, none =>
    (match s.sval b with
    | .error e => .error e
    | .ok y => let (k, x) := o.wet true r.a (s.getS a) y; s.wetS d { r with a := k } x)
  | none, some r =>
    (match s.sval a with
    | .error e => .error e
    | .ok y => let (k, x) := o.wet false r.a (s.getS b) y; s.wetS d { r with a := k } x)
  | some r, some q =>
    if r.tag = q.tag ∧ o ≠ .mul then s.wetS d { r with a := o.app r.a q.a } (o.app (s.getS a) (s.getS b))
    else (match s.sdry [a, b] with
      | .error e => .error e
      | .ok _ => .ok s)

/-- The same with a dry value as the second operand (ADDI, SHLI as a product with 2^n, MOV as + 0). -/
def State.affineI (s : State) (o : Affine) (d a : Nat) (y : Word) : Res State :=
  match s.me.wetS a with
  | none =>
    (match s.sval a with
    | .error e => .error e
    | .ok x => .ok (s.setS d (o.app x y)))
  | some r => let (k, x) := o.wet true r.a (s.getS a) y; s.wetS d { r with a := k } x

/-! ## Integer operations on wet lane registers -/

/-- Whether a register is wet in a lane. -/
def Scribe.laneWet (c : Scribe) (reg l : Nat) : Bool :=
  match c.wetV reg with
  | some r => bitOf r.mask l
  | none => false

/-- The poison mark that an affine use carries on (R159). -/
def Scribe.carry (c : Scribe) (reg l : Nat) : Nat := if look 0 c.r.pv (vKey reg l) = 2 then 2 else 0

/-- The record of an int32 register, in the lanes of a mask, if it is wet there and of kind int32. -/
def Scribe.intRec (c : Scribe) (reg : Nat) (m : Word) : Option WetRec :=
  match c.wetV reg with
  | some r => if r.mask &&& m ≠ 0 ∧ r.kind = .int32 then some r else none
  | none => none

/-- The value a register holds in every lane of a mask, if it is one. -/
def State.uniform (s : State) (reg : Nat) (m : Word) : Option Lane :=
  match lanesOf m with
  | [] => some 0
  | l :: ls => if ls.all fun k => s.getV reg k = s.getV reg l then some (s.getV reg l) else none

/-- The result of an affine operation whose first operand register is wet under `r` and whose second is
a dry value per lane. In other active lanes it computes normally. -/
def State.affineWetV (s : State) (o : Affine) (left : Bool) (d reg : Nat) (m : Word) (r : WetRec) (k : Lane) (y : Nat → Lane × Nat) : Res State :=
  s.wetV d m { r with a := ((o.wet left (r.a.setWidth 32) 0 k).1).setWidth 64, mask := r.mask &&& m }
    fun l =>
      let x := s.getV reg l
      let mark := max (s.me.carry reg l) (y l).2
      if bitOf r.mask l then ((o.wet left 0 x (y l).1).2, mark)
      else (if left then o.app x (y l).1 else o.app (y l).1 x, mark)

/-- An affine lane instruction on two registers (R151, R153). -/
def State.affineV (s : State) (o : Affine) (d a b : Nat) (m : Word) : Res State := do
  s.vclean a m
  s.vclean b m
  match s.me.touchedByWet a m, s.me.touchedByWet b m with
  | false, false =>
    if s.me.poisonLanes a m true = 0 ∧ s.me.poisonLanes b m true = 0 then
      .ok (s.setV d m fun l => o.app (s.getV a l) (s.getV b l))
    else if o = .mul ∧ ((s.me.poisonLanes a m true ≠ 0 ∧ s.uniform b m = none) ∨ (s.me.poisonLanes b m true ≠ 0 ∧ s.uniform a m = none)) then do
      s.vdry a m
      s.vdry b m
      .ok s
    else
      let s1 := { s with me := s.me.dropV d m }
      .ok (s1.onR (writeLanes d (fun l => (o.app (s.getV a l) (s.getV b l), max (s.me.carry a l) (s.me.carry b l))) (lanesOf m)))
  | true, false =>
    match s.me.intRec a m, (if o = .mul then s.uniform b m else some 0) with
    | some r, some k => s.affineWetV o true d a m r k fun l => (s.getV b l, s.me.carry b l)
    | _, _ => s.vdry a m >>= fun _ => .ok s
  | false, true =>
    match s.me.intRec b m, (if o = .mul then s.uniform a m else some 0) with
    | some r, some k => s.affineWetV o false d b m r k fun l => (s.getV a l, s.me.carry a l)
    | _, _ => s.vdry b m >>= fun _ => .ok s
  | true, true =>
    match s.me.intRec a m, s.me.intRec b m with
    | some r, some q =>
      if r.tag = q.tag ∧ r.mask = q.mask ∧ o ≠ .mul then
        s.wetV d m { r with a := (o.app (r.a.setWidth 32) (q.a.setWidth 32)).setWidth 64, mask := r.mask &&& m }
          fun l => (o.app (s.getV a l) (s.getV b l), max (s.me.carry a l) (s.me.carry b l))
      else s.vdryAll m [a, b] >>= fun _ => .ok s
    | _, _ => s.vdryAll m [a, b] >>= fun _ => .ok s

/-- An affine lane instruction on a register and one dry value (VADDI, VSHLI, VNEG as 0 - va, VMOV). -/
def State.affineVI (s : State) (o : Affine) (left : Bool) (d a : Nat) (m : Word) (y : Lane) : Res State := do
  s.vclean a m
  if s.me.touchedByWet a m then
    match s.me.intRec a m with
    | some r => s.affineWetV o left d a m r y fun _ => (y, 0)
    | none => s.vdry a m >>= fun _ => .ok s
  else if s.me.poisonLanes a m true = 0 then
    .ok (s.setV d m fun l => if left then o.app (s.getV a l) y else o.app y (s.getV a l))
  else
    let s1 := { s with me := s.me.dropV d m }
    .ok (s1.onR (writeLanes d (fun l => (if left then o.app (s.getV a l) y else o.app y (s.getV a l), s.me.carry a l)) (lanesOf m)))

/-- VMOV: a copy of the word, its record and a wet-line poison (R129, R151). -/
def State.copyV (s : State) (d a : Nat) (m : Word) : Res State := do
  s.vclean a m
  if s.me.touchedByWet a m then
    match s.me.wetV a with
    | some r =>
      s.wetV d m { r with mask := r.mask &&& m,
                          step := r.step.map fun st => { st with draws := st.draws.filter fun p => bitOf m p.1 } }
        fun l => (s.getV a l, s.me.carry a l)
    | none => .ok s
  else if s.me.poisonLanes a m true = 0 then .ok (s.setV d m fun l => s.getV a l)
  else
    let s1 := { s with me := s.me.dropV d m }
    .ok (s1.onR (writeLanes d (fun l => (s.getV a l, s.me.carry a l)) (lanesOf m)))

/-! ## The floating-point step (R152) -/

/-- A register that can take a step: an int32 record with a = 1 and o = 0 in every wet lane. -/
def State.freshRec (s : State) (reg : Nat) (m : Word) : Option WetRec :=
  match s.me.intRec reg m with
  | some r => if r.a = 1 ∧ (lanesOf r.mask).all (fun l => s.getV reg l = 0) then some r else none
  | none => none

/-- Take a step under record `r`: scale `a`, offset `o` per lane; `other` computes the lanes that are not
wet. In mode 5 the wet lanes draw now. -/
def State.stepV (s : State) (d : Nat) (m : Word) (r : WetRec) (op : StepOp) (a : Lane) (o : Nat → Lane) (other : Nat → Lane → LaneOut) : Res State :=
  let rm := s.me.ctl.rm
  let lanes := lanesOf m
  let outs := lanes.map fun l =>
    let st := look 0 s.me.r.rng l
    (l, if bitOf r.mask l then { v := o l, rng := (draw rm.mode st).1 } else other l st)
  let draws := if rm.mode = 5 then (lanes.filter (bitOf r.mask)).foldl (fun t l => put 0 t l (rngNext (look 0 s.me.r.rng l))) [] else []
  let rec' : WetRec := { r with kind := .step, a := a.setWidth 64, mask := r.mask &&& m,
                                step := some { op := op, neg := false, rm := rm.mode, daz := rm.daz, ftz := rm.ftz, draws := draws } }
  match s.wetV d m rec' (fun l => ((look { v := 0, rng := 0 } outs l).v, 0)) with
  | .error e => .error e
  | .ok s1 => .ok ((s1.onR fun g => { g with rng := putRngs outs g.rng }).addFlags (orFlags outs))

/-- resolve_step of R152, for a lane whose value X has arrived. -/
def resolveStep (st : WetStep) (a o x : Lane) (l : Nat) : Lane × Flags :=
  let xv := opval st.daz .f32 x.toNat
  let av := fval .f32 a.toNat
  let ov := fval .f32 o.toNat
  let p : Val × Flags := match st.op with
    | .add => (xv, 0)
    | _ => av.mul xv
  let y : Val × Flags := match st.op with
    | .mul => p
    | _ => let t := Val.sum st.rm [p.1, ov]; (t.1, p.2 ||| t.2)
  let r := round y.1 .f32 { mode := st.rm, daz := st.daz, ftz := st.ftz, sat := false } (look 0 st.draws l).toNat
  let code := BitVec.ofNat 32 r.code
  (if st.neg && !(y.1.isNan) then code ^^^ 0x80000000#32 else code, y.2 ||| r.flags)

/-! ## Resolution (R155) -/

/-- Every scalar register that carries a tag takes a·X + o. -/
def Scribe.resolveS (c : Scribe) (tag : Nat) (x : Word) : Scribe :=
  let hit := c.wet.s.filter fun p => p.2.tag = tag
  let r := hit.foldl (fun r p => { r with x := put 0 r.x p.1 (p.2.a * x + look 0 r.x p.1) }) c.r
  { c with r := r, wet := { c.wet with s := c.wet.s.filter (fun p => p.2.tag ≠ tag), tags := del c.wet.tags tag } }

/-- One lane of one register that carries a tag takes its value. -/
def Scribe.resolveLane (c : Scribe) (p : Nat × WetRec) (l : Nat) (x : Lane) (poison : Bool) : Scribe :=
  let o := c.getV p.1 l
  let out : Lane × Flags := match p.2.step with
    | some st => resolveStep st (p.2.a.setWidth 32) o x l
    | none => (p.2.a.setWidth 32 * x + o, 0)
  let mask := p.2.mask &&& ~~~(word (2 ^ l))
  { c with
    r := c.r.setV p.1 l out.1 (if poison then 2 else look 0 c.r.pv (vKey p.1 l)),
    ctl := c.ctl.addFlags out.2,
    wet := { c.wet with v := if mask = 0 then del c.wet.v p.1 else set c.wet.v p.1 { p.2 with mask := mask } } }

/-- One lane of every register that carries a tag. -/
def Scribe.resolveLanes (c : Scribe) (tag l : Nat) (x : Lane) (poison : Bool) : Scribe :=
  (c.wet.v.filter fun p => p.2.tag = tag && bitOf p.2.mask l).foldl (fun c p => c.resolveLane p l x poison) c

/-- A value read from memory with the extension of a form, in a lane or scalar word. -/
def extend (w : Nat) (sgn : Bool) (n : Nat) : Word := if sgn then sext64 w n else word n

/-- The lines that one lane of a lane load reads, with their keys in `seen`. -/
def TagRec.parts (t : TagRec) (p : Nat × Nat) : List (Nat × Nat) := (linesIn p.2 t.width).map fun l => (2 * p.1 + (l - p.2 / 512), l)

/-- The bits of line l that a read of w bits at a takes, in their place in the value. -/
def State.partOf (s : State) (a w l : Nat) : Nat :=
  let lo := max a (512 * l)
  s.planeRead lo (min (a + w) (512 * l + 512) - lo) * 2 ^ (lo - a)

/-- R160, R311: a lane load reads each of its lines once: at issue where the line is present, else as it lands. -/
def State.see (s : State) (t : TagRec) : TagRec :=
  { t with seen := t.lanes.foldl (fun acc p => (t.parts p).foldl (fun acc q =>
      if (find acc q.1).isNone && (s.line q.2).present then set acc q.1 (s.partOf p.2 t.width q.2, (s.line q.2).poison) else acc) acc) t.seen }

/-- Whether a lane of a tag has all its bits. -/
def TagRec.ready (t : TagRec) (p : Nat × Nat) : Bool := (t.parts p).all fun q => (find t.seen q.1).isSome

/-- The bits a lane of a tag has read, and whether a line of them was poisoned. -/
def TagRec.got (t : TagRec) (p : Nat × Nat) : Nat × Bool :=
  (t.parts p).foldl (fun r q => let v := look (0, false) t.seen q.1; (r.1 + v.1, r.2 || v.2)) (0, false)

/-- R155: the lanes of a lane tag whose lines have landed resolve; the tag frees with its last lane. -/
def State.resolveLaneTag (s : State) (c : Scribe) (tag : Nat) (t0 : TagRec) : Scribe :=
  let t := s.see t0
  let ready := t.lanes.filter t.ready
  let c1 := ready.foldl (fun c p => c.resolveLanes tag p.1 (BitVec.ofNat 32 ((extend t.width t.signed (t.got p).1).toNat / 2 ^ (32 * t.part))) (t.got p).2) c
  let rest := t.lanes.filter fun p => !(ready.any fun q => q.1 = p.1)
  { c1 with wet := { c1.wet with tags := if rest = [] then del c1.wet.tags tag else set c1.wet.tags tag { t with lanes := rest } } }

/-- The lane tags of a scribe. -/
def State.resolveLaneTags (s : State) (c : Scribe) : Scribe :=
  (c.wet.tags.filter fun t => !t.2.scalar).foldl (fun c t => s.resolveLaneTag c t.1 t.2) c

/-- R155: a lane's value arrives when its line lands. -/
def State.resolveLanded (s : State) : State := s.mapScribes s.resolveLaneTags

/-- R156: a tag's access has faulted; its records turn faulted, or the fault is dropped (R158) when
nothing carries it. -/
def Scribe.faultTag (c : Scribe) (tag cause : Nat) : Scribe :=
  match find c.wet.tags tag with
  | none => c
  | some t =>
    let mark := fun (p : Nat × WetRec) => if p.2.tag = tag then (p.1, { p.2 with fault := some cause }) else p
    ({ c with wet := { c.wet with tags := set c.wet.tags tag { t with fault := some cause },
                                  s := c.wet.s.map mark, v := c.wet.v.map mark } }).releaseTag tag

/-! ## Taking a tag (R148) -/

/-- Tags in use in the core of a scribe. -/
def State.coreTags (s : State) (id : BitVec 14) : Nat :=
  (s.allScribes.filter fun c => c.at_.id.toNat / 64 = id.toNat / 64).foldl (fun n c => n + c.wet.tags.length) 0

/-- Park until a tag is free, for an access that needs `n`. -/
def State.needTags (s : State) (n : Nat) : Res Unit :=
  if 16 < s.me.wet.tags.length + n ∨ 128 < s.coreTags s.me.at_.id + n then parkOn .tag else .ok ()

/-- Note an access under a new tag; answers the tag. -/
def State.newTag (s : State) (t : TagRec) : State × Nat :=
  (s.onWet fun w => { w with tags := set w.tags w.next t, next := w.next + 1 }, s.me.wet.next)

end Sys2Proof.Machine
end

