-- ==== Sys2Proof/Machine/Access.lean ====
section
/-! DEFINITION. Scalar memory accesses (R98 to R104, R146): the address, the checks, blocking accesses
in every space, and plain accesses that may complete wet. -/

namespace Sys2Proof.Machine

open Sys2Proof

/-- R98: the capability register's content and the bit address of a format SM word. -/
def State.scalarAddr (s : State) (cr x : Nat) : Res (Cap × Nat) :=
  match s.cval cr with
  | .error e => .error e
  | .ok c =>
    if x = 0 then .ok (c, modw 64 ((c.cursor : Int) + s.xoff))
    else match s.sval x with
      | .error e => .error e
      | .ok i => .ok (c, modw 64 ((c.cursor : Int) + signed 64 i.toNat + s.xoff))

/-- R61: cap_check, or its trap with the report of a scalar access. -/
def checkScalar (c : Cap) (cr a w p : Nat) (k : AKind) (capForm : Bool) : Res Unit :=
  match capCheck c a w p k capForm with
  | none => .ok ()
  | some code => trap { code := code, detail := 0, tinfo := accessInfo cr w k 0, taddr := a }

/-! ## The fault queue (R333, R410) -/

/-- 2^n entries of a fault queue, from the length of its capability. -/
def faultQueueSize (c : Cap) : Nat := (c.top - c.base) / 256 - 1

/-- Bits of the bytes of host memory from `a` on that a write with or without the EP bit covers. -/
def markHost (bad : Bool) (a w : Nat) (t : Tbl Bool) : Tbl Bool := (List.range (coverBytes a w)).foldl (fun t i => put false t (a / 8 + i) bad) t

/-- R294: a write to host memory; `bad` when it carries the EP bit. -/
def State.hostWrite (s : State) (a w v : Nat) (bad : Bool) : State :=
  { s with host := writeBits s.host a w v, hostBad := markHost bad a w s.hostBad }

/-- The context and virtual address that serve an address of space 0 or of the own package's window. -/
def State.served (s : State) (asid : BitVec 14) (sp a w : Nat) : Option (BitVec 14 × Nat) :=
  if sp = 0 then some (asid, a) else s.ownWindow a w

/-- Write bits an engine owns through a capability it holds, with no check beyond translation; a page that is
not there, or a package that cannot be reached, takes no write. -/
def State.engineWrite (s : State) (who : Who) (asid : BitVec 14) (sp a w v : Nat) : State :=
  if sp = 1 then s.planeStore a w v
  else if sp = 2 then s.hostWrite a w v false
  else match s.served asid sp a w with
    | some (id, va) => (match (s.walked who id va w).translate who.core id .store va w with
      | .ok ps => (s.walked who id va w).storePieces who v ps
      | .error _ => s.walked who id va w)
    | none => if s.peerReachable a then s.peerWrite a w v else s

/-- Whether a write of bits an engine owns finds a page, or a package within reach. -/
def State.takesWrite (s : State) (who : Who) (asid : BitVec 14) (sp a w : Nat) : Bool :=
  if sp = 1 ∨ sp = 2 then true
  else match s.served asid sp a w with
    | some (id, va) => (match s.translate who.core id .store va w with
      | .ok _ => true
      | .error _ => false)
    | none => s.peerReachable a

/-- What an engine's read of its own words does at their home (R340, R341). -/
def State.engineSeen (s : State) (who : Who) (asid : BitVec 14) (sp a w : Nat) : State :=
  match (if sp = 1 ∨ sp = 2 then none else s.served asid sp a w) with
  | some (id, va) => (match (s.walked who id va w).translate who.core id .load va w with
    | .ok ps => ((s.walked who id va w).fetchPieces who va ps).1
    | .error _ => s.walked who id va w)
  | none => s

/-- The bits that read gets: open ones from a word that is uncorrectable, for which the spec gives no outcome (log 113). -/
def State.engineRead (s : State) (who : Who) (asid : BitVec 14) (sp a w : Nat) : Nat :=
  if sp = 1 then readBits s.plane a w
  else if sp = 2 then readBits s.host a w
  else match s.served asid sp a w with
    | some (id, va) => (match s.translate who.core id .load va w with
      | .ok ps => if ps.any fun p => (wordsOf p.phys p.width).any s.deadWord then Config.deadBits a % 2 ^ w else readPieces s.dram ps
      | .error _ => 0)
    | none => readBits s.peer a w

/-- R343: the layer of the words of an engine's own access, where it serves nothing, or serves others first. -/
def State.farLayer (s : State) (who : Who) (asid : BitVec 14) (sp a w : Nat) : Option Nat :=
  match (if sp = 1 ∨ sp = 2 then none else s.served asid sp a w) with
  | some (id, va) => s.heldAt who.sid who.line (s.walksOf who.core id va w ++ match s.translate who.core id .load va w with
    | .ok ps => ps.flatMap fun p => wordsOf p.phys p.width
    | .error _ => [])
  | none => none

def State.farHeld (s : State) (who : Who) (asid : BitVec 14) (sp a w : Nat) : Bool := (s.farLayer who asid sp a w).isSome

/-- A fault-queue entry (Table 18-6). -/
def faultEntry (time parked source agent kind detail asid addr : Nat) : Nat :=
  time % 2 ^ 64 * 2 ^ 192 + parked % 2 * 2 ^ 112 + source % 4 * 2 ^ 110 + agent % 2 ^ 14 * 2 ^ 96 + kind % 16 * 2 ^ 88
    + detail % 256 * 2 ^ 80 + asid % 2 ^ 14 * 2 ^ 64 + addr % 2 ^ 60

/-- Whether that read gives no good bits: a word is uncorrectable, or there is no page. -/
def State.engineBlind (s : State) (who : Who) (asid : BitVec 14) (sp a w : Nat) : Bool :=
  if sp = 1 ∨ sp = 2 then false
  else match s.served asid sp a w with
    | some (id, va) => (match s.translate who.core id .load va w with
      | .ok ps => ps.any fun p => (wordsOf p.phys p.width).any s.deadWord
      | .error _ => true)
    | none => !s.peerReachable a || s.peerPoison a w

/-- R61: whether the device's own accesses through a capability that a context record names pass its checks, over all of the area and of
each kind. The device is no scribe, so no plane line is its to use (R191; the model's choice, log 146). -/
def capServes (c : Cap) (a w : Nat) : Bool :=
  c.space ≠ 1 && (capCheck c a w pLoad .load false).isNone && (capCheck c a w pStore .store false).isNone

/-- R410: write an entry and then PCNT. Answers the entry's number, or none when the queue is full, its memory serves no access, or
the context has none. A queue that its capability does not serve, or whose counters are not to be read, takes no entry, as a full one does:
the spec names no outcome (the model's choice, log 146). -/
def State.faultQ (s : State) (asid : BitVec 14) (parked source agent : Nat) (k : AKind) (detail addr : Nat) : State × Option Nat :=
  match find s.ctxs asid.toNat with
  | none => (s, none)
  | some c =>
    let q := c.faultQ
    let base := q.base
    let n := faultQueueSize q
    let who : Who := { asid := asid }
    if s.farHeld who asid q.space base 256 ∨ capServes q base (q.top - base) = false then (s, none)
    else
      let s := s.engineSeen who asid q.space (base + 64) 128
      let pcnt := s.engineRead who asid q.space (base + 64) 64
      let ccnt := s.engineRead who asid q.space (base + 128) 64
      let entry := base + 256 + 256 * (pcnt % n)
      if s.engineBlind who asid q.space (base + 64) 128 ∨ n ≤ (pcnt + 2 ^ 64 - ccnt) % 2 ^ 64 ∨ s.farHeld who asid q.space entry 256 then (s, none)
      else
        let s1 := s.engineWrite who asid q.space entry 256 (faultEntry s.time parked source agent k.code detail asid.toNat addr)
        let s2 := s1.engineWrite who asid q.space (base + 64) 64 ((pcnt + 1) % 2 ^ 64)
        ((if parked = 1 then { s2 with faulted := s2.faulted ++ [⟨asid, pcnt, source, agent⟩] } else s2), some pcnt)

/-- R410: an entry that only reports. None when it waits for room in the queue. -/
def State.faultNote (s : State) (asid : BitVec 14) (source agent : Nat) (k : AKind) (detail addr : Nat) : Option State :=
  match s.faultQ asid 0 source agent k detail addr with
  | (s1, some _) => some s1
  | (_, none) => if (find s.ctxs asid.toNat).isSome then none else some s

/-- R327: whether a context's scribes park on translation faults. -/
def State.replays (s : State) (asid : BitVec 14) : Bool :=
  match find s.ctxs asid.toNat with
  | some c => bits c.flags.toNat 1 1 = 1
  | none => false

/-! ## Waiting for the fault queue -/

/-- R358: a blocking load waits for its value; a store or a code fetch does not. -/
def AKind.park (k : AKind) (p : Park) : Park := if k = .store ∨ k = .fetch then .outgoing else p

/-- What an access waits on in the fault queue: 1 + its entry, or, when the queue is full, room for one (R410). -/
def entryOf (n : Option Nat) : Nat := n.elim noEntry (· + 1)

/-- A translation fault of a blocking access, whose walk has read its entries: TRANSLATION, or under REPLAYS an entry and a wait
(R333). -/
def State.translationStop {α : Type} (s : State) (cr : Nat) (k : AKind) (m : Miss) : Res α :=
  let s1 := s.walkedTo s.meWho m
  if s.replays s.me.at_.asid ∧ m.detail ≠ 2 then
    let (s2, n) := s1.faultQ s.me.at_.asid 1 0 s.me.at_.id.toNat k m.detail m.addr
    .error (.parkIn (s2.onRun fun r => { r with waitEntry := entryOf n }) (k.park .faultQueue))
  else
    .error (.trapIn s1 { code := cTRANSLATION, detail := m.detail, taddr := m.addr,
                         tinfo := cr % 16 + (if k = .store ∨ k = .atomic then 16 else 0) + (if k = .fetch then 32 else 0) })

/-- POISON, DETAIL 1 (R344, R385). -/
def poisonMem (a : Nat) : Trap := { code := cPOISON, detail := 1, tinfo := 1, taddr := a }

/-- The same for a poisoned plane line (Table 08-1). -/
def poisonLine (ln : Nat) : Trap := poisonMem (512 * ln)

/-- R385: a store to an unreachable package: dropped, with a record of kind 11 and a report. -/
def State.peerDropped (s : State) (who : Who) (a : Nat) : State :=
  let port := look 0 s.mgmt.lastPort (peerPkg a)
  let i := s.logIndex (ioLog (port / 18))
  (s.logFor who.asid (ioLog (port / 18)) port 11 0 who.code 0 0 0).report who i 3 (port / 18)

/-! ## Reads and writes of global and peer memory -/

/-- What a read of space 0 or 3 gives: the state after it, the bits, the underlying cause when they did
not come (2 uncorrectable, 3 unreachable) with the address, whether a page is of device type, and
the tripped layer that holds the access, if one does. -/
structure Got where
  st : State
  n : Nat
  bad : Option (Nat × Nat)
  dev : Bool
  waits : Option Nat

/-- The words of translated pieces. -/
def pieceWords (ps : List Piece) : List Nat := ps.flatMap fun p => wordsOf p.phys p.width

/-- Whether bits of a context lie on a page of device type. -/
def State.devAt (s : State) (who : Who) (asid : BitVec 14) (k : AKind) (v w : Nat) : Bool :=
  match s.translate who.core asid k v w with
  | .ok ps => ps.any (·.dev)
  | .error _ => false

/-- Read bits of another package (R384, R385). -/
def State.peerGet (s : State) (a w : Nat) : Got :=
  if s.peerReachable a then { st := s, n := readBits s.peer a w, bad := (s.peerBadWord a w).map fun x => (2, 256 * x), dev := false, waits := none }
  else { st := s, n := 0, bad := some (3, a), dev := false, waits := none }

/-- Read bits of space 0 or 3 for a context; `tag` is that of an access that is issued again. -/
def State.getFarAs (s : State) (who : Who) (tag : Option Nat) (asid : BitVec 14) (sp a w : Nat) (k : AKind) : Except Miss Got :=
  match s.served asid sp a w with
  | some (asid, v) =>
    match s.heldAt who.sid tag (s.walksOf who.core asid v w) with
    | some ly => .ok { st := s, n := 0, bad := none, dev := s.devAt who asid k v w, waits := some ly }
    | none =>
      let s0 := s.walked who asid v w
      match s0.translate who.core asid k v w with
      | .error (d, x) => .error ⟨asid, d, x, v⟩
      | .ok ps => match s0.heldAt who.sid tag (pieceWords ps) with
        | some ly => .ok { st := s, n := 0, bad := none, dev := ps.any (·.dev), waits := some ly }
        | none =>
          let (s1, bad) := s0.fetchPieces who v ps
          .ok { st := s1, n := readPieces s.dram ps, bad := bad.head?.map fun b => (2, b), dev := ps.any (·.dev), waits := none }
  | none => .ok (s.peerGet a w)

/-- The same for the issuing scribe's context. -/
def State.getFar (s : State) (who : Who) (sp a w : Nat) (k : AKind) : Except Miss Got := s.getFarAs who none s.me.at_.asid sp a w k

/-- Mark the words of a store as uncorrectable: a store of a poisoned word carries the poison on (R177). -/
def State.markPieces (s : State) (ps : List Piece) : State :=
  { s with eccHard := (ps.flatMap fun p => wordsOf p.phys p.width).foldl (fun t w => put 0 t w 1) s.eccHard }

/-- What a write to space 0 or 3 gives: the state after it, device type, and the tripped layer that holds it. -/
structure Put where
  st : State
  dev : Bool
  waits : Option Nat

/-- Write bits of space 0 or 3 for a context. -/
def State.putFarAs (s : State) (who : Who) (tag : Option Nat) (asid : BitVec 14) (sp a w v : Nat) (k : AKind) (poison : Bool) : Except Miss Put :=
  match s.served asid sp a w with
  | some (asid, va) =>
    match s.heldAt who.sid tag (s.walksOf who.core asid va w) with
    | some ly => .ok { st := s, dev := s.devAt who asid k va w, waits := some ly }
    | none =>
      let s0 := s.walked who asid va w
      match s0.translate who.core asid k va w with
      | .error (d, x) => .error ⟨asid, d, x, va⟩
      | .ok ps => match s0.heldAt who.sid tag (pieceWords ps) with
        | some ly => .ok { st := s, dev := ps.any (·.dev), waits := some ly }
        | none =>
          let s1 := s0.storePieces who v ps
          .ok { st := if poison then s1.markPieces ps else s1, dev := ps.any (·.dev), waits := none }
  | none =>
    if s.peerReachable a then
      let s1 := s.peerWrite a w v
      .ok { st := if poison then { s1 with peerBad := (wordsOf a w).foldl (fun t x => put false t x true) s1.peerBad } else s1,
            dev := false, waits := none }
    else .ok { st := s.peerDropped who a, dev := false, waits := none }

/-- The same for the issuing scribe's context. -/
def State.putFar (s : State) (who : Who) (sp a w v : Nat) (k : AKind) (poison : Bool) : Except Miss Put :=
  s.putFarAs who none s.me.at_.asid sp a w v k poison

/-- A blocking access waits at a tripped layer (R343). -/
def State.tripStop {α : Type} (s : State) (layer : Nat) (k : AKind := .load) : Res α :=
  .error (.parkIn (s.lineUp s.me.at_.id none layer) (k.park .trippedLayer))

/-! ## Scalar access to the plane (R98, R191, R195) -/

def holeTrap (detail a : Nat) : Trap := { code := cHOLE_ACCESS, detail := detail, tinfo := 0, taddr := a }

/-- The check of a scalar plane access: served, or on a hole, or a wait or trap. -/
def State.planeCheck (s : State) (store : Bool) (a w : Nat) : Res Bool :=
  if s.hole (a / 131072) then
    if s.me.at_.strict then trap (holeTrap (if store then 1 else 0) a) else .ok false
  else match s.linesSay s.me.at_.id s.me.at_.team store 0 (linesIn a w) with
    | (.ok, _) =>
      if store && s.barHit a w then
        trap { code := cOWNERSHIP, detail := 2, tinfo := barInfo (s.line (a / 512)) 0, taddr := 512 * (a / 512) }
      else .ok true
    | (.bad t, l) => trap { code := cOWNERSHIP, detail := 2, tinfo := s.refusal store a w l t, taddr := 512 * l }
    | (.waits p, l) => .error (if p = .retention ∧ store = false then .parkIn (s.want l) .wakingLoad else s.lineWait p l)
    | (.landing, _) => parkOn .landing

/-! ## Blocking accesses in every space -/

/-- A load that blocks: the state after it, the bits, and whether they came from a poisoned line. -/
def State.getBlocking (s : State) (cr : Nat) (c : Cap) (a w : Nat) : Res (State × Nat × Bool) :=
  if c.space = 1 then
    match s.planeCheck false a w with
    | .error e => .error e
    | .ok true => .ok (s, s.planeRead a w, s.planePoison a w)
    | .ok false => .ok (s.setHolef 1, fillBits s.me.ctl.fillv w, false)
  else if c.space = 2 then .ok (s, readBits s.host a w, false)
  else if c.space = 5 then
    .ok (s, readBits ((find s.launches s.me.at_.launch).elim [] (·.argMem)) a w, false)
  else match s.getFar s.meWho c.space a w .load with
    | .error m => s.translationStop cr .load m
    | .ok g => match g.waits, g.bad with
      | some ly, _ => s.tripStop ly
      | none, some (_, b) => .error (.trapIn g.st (poisonMem b))
      | none, none => .ok (g.st, g.n, false)

/-- A store, in every space it may go to. -/
def State.putBlocking (s : State) (cr : Nat) (c : Cap) (a w v : Nat) (poison : Bool) : Res State :=
  if c.space = 1 then
    match s.planeCheck true a w with
    | .error e => .error e
    | .ok true =>
      let s1 := s.planeStore a w v
      .ok (if poison then (linesIn a w).foldl (fun s l => s.setLine l { s.line l with poison := true }) s1 else s1)
    | .ok false => .ok (s.setHolef 2)
  else if c.space = 2 then .ok ((s.hostWrite a w v poison).endRollback s.me.at_.team 5)
  else match s.putFar s.meWho c.space a w v .store poison with
    | .error m => s.translationStop cr .store m
    | .ok p => match p.waits with
      | some ly => s.tripStop ly .store
      | none => .ok (if p.dev then p.st.endRollback s.me.at_.team 5 else p.st)

/-! ## Order (R104, R112) -/

/-- An acquire waits until every earlier wet access has resolved or faulted. -/
def State.acquire (s : State) (order : Nat) : Res Unit :=
  if (order = 1 ∨ order = 3) ∧ ¬ (s.me.wet.tags.all fun t => t.2.fault.isSome) then parkOn .fence else .ok ()

/-- A release waits until every earlier access has been performed: accesses that wait in the fault queue
have not; earlier scrolls and fills have completed (R249). -/
def State.release (s : State) (order : Nat) : Res Unit :=
  if (order = 2 ∨ order = 3) ∧ ¬ (s.me.wet.tags.all fun t => t.2.queued = 0) then parkOn .fence
  else if (order = 2 ∨ order = 3) ∧ s.me.run.jobs ≠ [] then parkOn .planeQueue
  else .ok ()

def State.ordered (s : State) (order : Nat) : Res Unit :=
  match s.acquire order with
  | .error e => .error e
  | .ok _ => s.release order

/-! ## Plain accesses (R146, R156) -/

/-- Whether the next plain access is back by its result latency (log 3), and the state without that turn. -/
def State.arrives (s : State) : Bool := s.arrivals.headD false
def State.popArrival (s : State) : State := { s with arrivals := s.arrivals.tail }

/-- Make scalar register d wet under a new tag. -/
def State.goWet (s : State) (d : Nat) (t : TagRec) : Res State :=
  let (s1, tag) := s.newTag t
  s1.wetS d { tag := tag, kind := .int64, a := 1, step := none, mask := 0, fault := t.fault } 0

/-- The replay record of an access. -/
def State.tagRec (s : State) (c : Cap) (a w : Nat) (sgn : Bool) (scope : Nat) : TagRec :=
  { scalar := true, cap := c, space := c.space, addr := a, width := w, signed := sgn, order := 0, scope := scope,
    pc := s.me.ctl.wordAt, amo := none, updated := false, x := 0, lanes := [], seen := [], poisoned := false, fault := none, queued := 0 }

/-! ## The operations of atomics (Tables 05-8 and 09-9) -/

/-- The operations of Tables 05-8 and 09-9. -/
inductive AmoOp where
  | add | minI | maxI | minB | maxB | and | or | xor | swap | cas
  deriving DecidableEq, Repr

/-- The new value from the old one m, the operand x and the second operand y of a CAS, of w bits. -/
def AmoOp.new (o : AmoOp) (w m x y : Nat) : Nat :=
  match o with
  | .add => (m + x) % 2 ^ w
  | .minI => if signed w m ≤ signed w x then m else x
  | .maxI => if signed w m ≤ signed w x then x else m
  | .minB => min m x
  | .maxB => max m x
  | .and => m &&& x
  | .or => m ||| x
  | .xor => m ^^^ x
  | .swap => x
  | .cas => if m = x then y else m

def AmoOp.code : AmoOp → Nat
  | .add => 0
  | .minI => 1
  | .maxI => 2
  | .and => 3
  | .or => 4
  | .xor => 5
  | .swap => 6
  | .cas => 7
  | .minB => 9
  | .maxB => 10

def amoOfCode : Nat → AmoOp
  | 0 => .add
  | 1 => .minI
  | 2 => .maxI
  | 3 => .and
  | 4 => .or
  | 5 => .xor
  | 6 => .swap
  | 7 => .cas
  | 9 => .minB
  | _ => .maxB

/-- Whether the old value reaches the register sign-extended (Table 05-8). -/
def AmoOp.signedOld : AmoOp → Bool
  | .minI => true
  | .maxI => true
  | _ => false

/-- The update at the home in space 0 or 3, after the read that `g` describes; `late` when it is not at the word's issue. -/
def State.amoWrite (s : State) (sp a w new : Nat) (late : Bool) (g : Got) : State :=
  match g.st.putFar s.meWho sp a w new .atomic false with
  | .ok p => if late then p.st.endRollbackLate s.me.at_.team 2 else p.st.endRollback s.me.at_.team 2
  | .error _ => g.st

/-! ## Accesses to one atom (R104, R160) -/

/-- Whether bits a .. a + w - 1 and b .. b + n - 1 share an atom. -/
def meetAtom (a w b n : Nat) : Bool := a / 32 ≤ (b + n - 1) / 32 && b / 32 ≤ (a + w - 1) / 32

/-- The pieces of bits of a context, whichever way its pages may be accessed. -/
def State.anyPieces (s : State) (asid : BitVec 14) (v w : Nat) : List Piece :=
  match s.translate s.meWho.core asid .load v w, s.translate s.meWho.core asid .store v w with
  | .ok ps, _ => ps
  | .error _, .ok ps => ps
  | _, _ => []

/-- Whether two accesses of the issuing scribe outside the plane share an atom: by address, through the own package's window, or at their
homes (R160). -/
def State.sameAtoms (s : State) (sp a w sq b n : Nat) : Bool :=
  let far := fun (x : Nat) => x = 0 || x = 3
  (sp = sq && meetAtom a w b n)
    || (far sp && far sq && (match s.served s.me.at_.asid sp a w, s.served s.me.at_.asid sq b n with
      | some (i, v), some (j, u) => (i = j && meetAtom v w u n)
          || (s.anyPieces i v w).any fun p => (s.anyPieces j u n).any fun q => meetAtom p.phys p.width q.phys q.width
      | _, _ => false))

/-- A faulted access of the issuing scribe is performed now, if it can be: its value, and the update of an atomic, are those of its place in
program order, and its replay gives them. A load whose page may not be read keeps what it would have read there (R160). -/
def State.keepTag (s : State) (tag : Nat) (t : TagRec) : State :=
  let keep := fun (u : State) (n : Nat) => u.onWet fun w => { w with tags := set w.tags tag { t with kept := true, x := extend t.width t.signed n } }
  match s.getFar s.meWho t.space t.addr t.width (if t.amo.isSome then .atomic else .load), t.amo with
  | .ok g, amo =>
    if g.waits.isSome ∨ g.bad.isSome then s
    else match amo with
      | some (o, x, y) => keep (s.amoWrite t.space t.addr t.width ((amoOfCode o).new t.width g.n x.toNat y.toNat) true g) g.n
      | none => keep g.st g.n
  | .error m, none => (match s.translate s.meWho.core m.asid .store m.first t.width with
    | .ok ps => keep s (readPieces s.dram ps)
    | .error _ => s)
  | .error _, some _ => s

/-- R104, R160, R310: an access waits while one of the scribe's accesses under the tags `mine` to one of its atoms has not been performed;
one that has faulted is performed first, if it can be. -/
def State.afterTags (s : State) (mine : Nat → Bool) (sp a w : Nat) : Res State :=
  let l := s.me.wet.tags.filter fun t => mine t.1 && t.2.scalar && s.sameAtoms t.2.space t.2.addr t.2.width sp a w
  if l.any fun t => t.2.queued ≠ 0 && t.2.fault.isNone then parkOn .queuedAccess
  else .ok ((l.filter fun t => t.2.fault.isSome && !t.2.updated && !t.2.kept).foldl (fun s t => s.keepTag t.1 t.2) s)

/-- The same of all earlier accesses, for one that a word makes as it issues. -/
def State.afterOwn (s : State) (sp a w : Nat) : Res State := s.afterTags (fun _ => true) sp a w

/-! ## Plain loads and stores -/

/-- What a plain access in space 0 or 3 leaves in its register: `t` is its record, `r` the outcome at the
home, `fin` turns the bits read into the state after the access. -/
def State.plain (s : State) (d : Nat) (t : TagRec) (k : AKind) (r : Except Miss Got) (fin : Got → State) : Res State :=
  let wet := fun (u : State) (t : TagRec) => match s.needTags 1 with
    | .error e => .error e
    | .ok _ => u.goWet d t
  match r with
  | .error m =>
    let s1 := s.walkedTo s.meWho m
    if s.replays s.me.at_.asid ∧ m.detail ≠ 2 then
      let (s2, n) := s1.faultQ s.me.at_.asid 1 0 s.me.at_.id.toNat k m.detail m.addr
      wet s2 { t with queued := entryOf n }
    else wet s1 { t with fault := some 1 }
  | .ok g => match g.waits, g.bad with
    | some ly, _ => wet (s.lineUp s.me.at_.id (some s.me.wet.next) ly) { t with queued := noEntry }
    | none, some (cause, _) => wet g.st { t with fault := some cause }
    | none, none =>
      let x := extend t.width t.signed g.n
      if s.arrives then .ok ((fin g).popArrival.setS d x) else wet (fin g).popArrival { t with x := x, updated := t.amo.isSome }

/-- R99: LD. -/
def State.load (s : State) (d cr x w order : Nat) (sgn : Bool) (scope : Nat) : Res State :=
  match s.scalarAddr cr x with
  | .error e => .error e
  | .ok (c, a) =>
    match s.acquire order with
    | .error e => .error e
    | .ok _ =>
      match checkScalar c cr a w pLoad .load false with
      | .error e => .error e
      | .ok _ => match s.afterOwn c.space a w with
        | .error e => .error e
        | .ok s =>
        let far := c.space = 0 ∨ c.space = 3
        let r := s.getFar s.meWho c.space a w .load
        let dev := match r with
          | .ok g => g.dev
          | .error _ => false
        if far ∧ order = 0 ∧ dev = false then s.plain d (s.tagRec c a w sgn scope) .load r (·.st)
        else match s.getBlocking cr c a w with
          | .error e => .error e
          | .ok (s1, n, poison) =>
            let s2 := s1.setS d (extend w sgn n)
            .ok (if poison then s2.onR fun r => { r with ps := put false r.ps (xKey s.me.ctl.depth d) true } else s2)

/-- A store operand: its value, and whether it is poisoned: a handler's stores carry the poison on (R177). -/
def State.storeVal (s : State) (t : Nat) : Res (Word × Bool) :=
  if s.me.ctl.handler ∧ (s.me.wetS t).isNone ∧ look false s.me.r.ps (xKey s.me.ctl.depth t) then .ok (s.getS t, true)
  else match s.sval t with
    | .error e => .error e
    | .ok v => .ok (v, false)

/-- R100: ST. -/
def State.store (s : State) (t cr x w order : Nat) : Res State :=
  match s.scalarAddr cr x with
  | .error e => .error e
  | .ok (c, a) =>
    match s.storeVal t with
    | .error e => .error e
    | .ok (v, poison) =>
      match s.release order with
      | .error e => .error e
      | .ok _ =>
        match checkScalar c cr a w pStore .store false with
        | .error e => .error e
        | .ok _ => match s.afterOwn c.space a w with
          | .error e => .error e
          | .ok s => s.putBlocking cr c a w (v.toNat % 2 ^ w) poison

/-! ## Atomics (R102, R103) -/

/-- An atomic that has issued ends rollback, though its update is still to come (R348). -/
def State.amoIssued (s : State) (r : Res State) : Res State :=
  match r with
  | .ok u => .ok (u.endRollback s.me.at_.team 2)
  | .error e => .error e

/-- R102, R103: a scalar atomic; `y` is the new value of a CAS. -/
def State.amo (s : State) (o : AmoOp) (d cr x w order scope : Nat) : Res State :=
  match s.scalarAddr cr x with
  | .error e => .error e
  | .ok (c, a) =>
    match s.sdry (if o = .cas then [d, d + 1] else [d]) with
    | .error e => .error e
    | .ok _ =>
      match s.ordered order with
      | .error e => .error e
      | .ok _ =>
        match checkScalar c cr a w (pLoad + pStore + pAtomic) .atomic false with
        | .error e => .error e
        | .ok _ =>
          let xv := (s.getS d).toNat % 2 ^ w
          let yv := (s.getS (d + 1)).toNat % 2 ^ w
          if c.space = 1 then
            match s.planeCheck true a w with
            | .error e => .error e
            | .ok true =>
              let m := s.planeRead a w
              let s1 := (s.planeStore a w (o.new w m xv yv)).endRollback s.me.at_.team 2
              let s2 := s1.setS d (extend w o.signedOld m)
              .ok (if s.planePoison a w then s2.onR fun r => { r with ps := put false r.ps (xKey s.me.ctl.depth d) true } else s2)
            | .ok false => .ok (((s.setHolef 3).endRollback s.me.at_.team 2).setS d (extend w o.signedOld (fillBits s.me.ctl.fillv w)))
          else match s.afterOwn c.space a w with
            | .error e => .error e
            | .ok s =>
            let r := s.getFar s.meWho c.space a w .atomic
            let t := { s.tagRec c a w o.signedOld scope with amo := some (o.code, word xv, word yv), order := order }
            let fin := fun (g : Got) => s.amoWrite c.space a w (o.new w g.n xv yv) false g
            match r with
            | .ok g =>
              if order = 0 ∧ g.dev = false then
                (if g.waits.isNone ∧ g.bad.isNone then s.plain d t .atomic r fin else s.amoIssued (s.plain d t .atomic r fin))
              else (match g.waits, g.bad with
                | some ly, _ => s.tripStop ly
                | none, some (_, b) => .error (.trapIn g.st (poisonMem b))
                | none, none => .ok ((fin g).setS d (extend w o.signedOld g.n)))
            | .error m => if order = 0 then s.amoIssued (s.plain d t .atomic r fin) else s.translationStop cr .atomic m

/-! ## Capabilities in memory (R62 to R64) -/

/-- The tag beside a 128-bit unit, in every space; a unit that carries poison has none. -/
def State.tagAtAs (s : State) (who : Who) (asid : BitVec 14) (launch : Nat) (c : Cap) (a : Nat) : Bool :=
  if c.space = 1 then
    bits (s.line (a / 512)).tags.toNat (a % 512 / 128) 1 = 1 && !(s.line (a / 512)).poison && !s.holeFor launch (a / 131072)
  else if c.space = 2 then false
  else if c.space = 5 then look false ((find s.launches launch).elim [] (·.argTags)) (a / 128)
  else match s.served asid c.space a 128 with
    | some (asid, v) => (match s.translate who.core asid .load v 128 with
      | .ok ps => look false s.dramTags ((ps.headD ⟨0, 0, false⟩).phys / 128)
      | .error _ => false)
    | none => look false s.peerTags (a / 128)

def State.tagAt (s : State) (c : Cap) (a : Nat) : Bool := s.tagAtAs s.meWho s.me.at_.asid s.me.at_.launch c a

/-- Set the tag beside a unit just written (R62, R63): only of a whole unit, not in host space, and in peer space
only with share-out; a write that a failed channel dropped stores no tag (R341). The write found its page in the state `before`. -/
def State.setTagAtAs (s before : State) (who : Who) (asid : BitVec 14) (c v : Cap) (a : Nat) : State :=
  if v.tag = false ∨ a % 128 ≠ 0 then s
  else if c.space = 1 then
    if s.hole (a / 131072) then s
    else
      let l := a / 512
      let m := s.line l
      s.setLine l { m with tags := m.tags ||| BitVec.ofNat 4 (2 ^ (a % 512 / 128)) }
  else if c.space = 2 then s
  else if c.space = 3 ∧ v.has pShare = false then s
  else match before.served asid c.space a 128 with
    | some (asid, va) => (match before.translate who.core asid .store va 128 with
      | .ok ps =>
        let p := (ps.headD ⟨0, 0, false⟩).phys
        if s.lostWord (p / 256) then s else { s with dramTags := put false s.dramTags (p / 128) true }
      | .error _ => s)
    | none => if s.peerReachable a then { s with peerTags := put false s.peerTags (a / 128) true } else s

def State.setTagAt (s before : State) (c v : Cap) (a : Nat) : State := s.setTagAtAs before s.meWho s.me.at_.asid c v a

end Sys2Proof.Machine
end

