-- ==== Sys2Proof/Machine/Fetch.lean ====
section
/-! DEFINITION. Fetching a word (R65, R94), the clause header (R66, R67, R85), the checks 4 to 7 of
Table 04-9 that need the clause or the scribe (R69, R70, R83, R18), and permits (R235, R182). -/

namespace Sys2Proof.Machine

open Sys2Proof

/-! ## Fetching -/

/-- The 32 bits at an address of the code capability's space. -/
def State.codeWord (s : State) (a : Nat) : BitVec 32 :=
  let sp := s.me.ctl.codeCap.space
  BitVec.ofNat 32 (
    if sp = 1 then s.planeRead a 32
    else if sp = 2 then readBits s.host a 32
    else match s.getFar s.meWho sp a 32 .fetch with
      | .ok g => g.n
      | .error _ => 0)

/-- R94, R47: the checks of every fetch, in order: bounds and the limit of the space, then translation. Answers the state after the read
with the word. POISON of a fetch from global memory names the code word's own bit address (the model's choice, log 113), from the plane its
line's (Table 08-1). Code in an island in retention waits for it to wake (R353). -/
def State.fetch (s : State) : Res (State × BitVec 32) :=
  let c := s.me.ctl.codeCap
  let a := s.me.ctl.pc.toNat
  if a < c.base ∨ c.top < a + 32 ∨ spaceLimit c.space < a + 32 then trap { code := cCAP_BOUNDS, detail := 4, taddr := a }
  else if c.space = 1 then
    if s.retained (a / 512) then .error (s.lineWait .retention (a / 512))
    else if s.planePoison a 32 then trap (poisonLine (a / 512)) else .ok (s, s.codeWord a)
  else if c.space = 2 then .ok (s, s.codeWord a)
  else match s.getFar s.meWho c.space a 32 .fetch with
    | .error m => s.translationStop 0 .fetch m
    | .ok g => match g.waits with
      | some ly => s.tripStop ly .fetch
      | none => if g.bad.isSome then .error (.trapIn g.st (poisonMem a)) else .ok (g.st, s.codeWord a)

/-- R85, check 1: the header `w` is fetched and checked, and its clause begins, with t0-t3 zero (R21). -/
def execClauseHeaderFetch (w : BitVec 32) (s : State) : Host.Outcome State Fault Refusal :=
  if s.me.run.life ≠ .running ∨ s.me.ctl.remain ≠ 0 then .refused .notEnabled
  else finishAt s (
    match s.fetch with
    | .error e => .error e
    | .ok (s0, _) =>
      if headerOk w = false then .error (.trapIn s0 { code := cILLEGAL, detail := 1, tinfo := w.toNat })
      else
        let s1 := { s0 with me := s0.me.wipeTemps }
        .ok ((s1.onCtl fun c => { c with pc := c.pc + 32, header := w, remain := (headerOf w).n }).onRun fun r => { r with hold := 0 }))

/-! ## Words that are no instruction (R408) -/

/-- Check 3 of Table 04-9: whether the form selector of a word is assigned. -/
def selectorAssigned (n : Nat) : Bool :=
  match bits n 26 6 with
  | 0x01 => bits n 0 11 ≤ 0x14
  | 0x03 => bits n 14 2 ≤ 2
  | 0x04 => bits n 13 3 ≤ 6
  | 0x05 => bits n 0 11 ≤ 6
  | 0x06 => bits n 0 11 = 0
  | 0x08 => bits n 22 4 ≤ 8
  | 0x09 => bits n 22 4 ≤ 3
  | 0x0A => bits n 22 4 ≤ 3
  | 0x0B => bits n 0 3 ≤ 2
  | 0x0C => bits n 0 3 ≤ 1
  | 0x0E => bits n 0 11 ≤ 8
  | 0x0F => bits n 0 4 ≤ 6
  | 0x10 => bits n 0 5 ≤ 10
  | 0x12 => bits n 0 2 ≤ 2
  | 0x14 => bits n 0 4 ≤ 14
  | 0x16 => bits n 0 4 ≤ 3
  | 0x17 => bits n 0 4 ≤ 7
  | 0x18 => bits n 0 4 ≤ 8
  | 0x19 => bits n 0 3 ≠ 6
  | 0x1A => bits n 0 2 ≠ 3 && bits n 2 2 ≠ 3
  | 0x1B => if bits n 19 1 = 1 then bits n 0 4 ≤ 6 else bits n 0 4 ≤ 9
  | 0x1C => bits n 0 4 ≤ 9
  | 0x1D => bits n 0 4 ≠ 3 && bits n 0 4 ≠ 5 && bits n 0 4 ≠ 7 && bits n 0 4 ≠ 13
  | 0x1E => bits n 0 4 ≤ 7
  | 0x1F => bits n 0 4 ≤ 9
  | 0x22 => bits n 4 6 ≤ 2
  | 0x23 => bits n 4 6 ≤ 10
  | 0x25 => bits n 0 3 ≤ 5
  | 0x27 => bits n 0 3 ≤ 3
  | 0x28 => bits n 0 2 ≤ 2
  | 0x29 => bits n 0 2 ≤ 1
  | 0x2B => bits n 0 4 ≤ 6
  | 0x2D => bits n 0 3 ≤ 4
  | 0x2E => bits n 0 3 ≤ 2
  | 0x2F => bits n 0 11 ≤ 3
  | 0x30 => bits n 0 3 ≤ 3
  | 0x31 => bits n 0 4 = 0
  | 0x32 => bits n 0 2 ≤ 1
  | 0x33 => bits n 0 4 = 0
  | _ => true

/-- Check 2: a major that no row has. -/
def majorReserved (mj : Nat) : Bool :=
  mj = 0 || mj = 0x07 || mj = 0x13 || mj = 0x26 || mj = 0x2C || 0x34 ≤ mj

/-- R164: the check a word that is no instruction fails first. -/
def illegalDetail (n : Nat) : Nat :=
  if majorReserved (bits n 26 6) then 2 else if selectorAssigned n then 4 else 3

/-- R408: a word that matches no row raises ILLEGAL. -/
def execIllegalWord (w : BitVec 32) (s : State) : Host.Outcome State Fault Refusal :=
  if s.me.run.life ≠ .running ∨ s.me.ctl.remain = 0 then .refused .notEnabled
  else finish s (trap { code := cILLEGAL, detail := illegalDetail w.toNat, tinfo := w.toNat })

/-- R82, R83: XIM holds its payload for the word after it, which issues in the same step (Schedule). -/
def execXim (p : BitVec 26) (s : State) : Host.Outcome State Fault Refusal :=
  finishAt s (
    if s.me.ctl.xim.isSome then trap { code := cILLEGAL, detail := 4, tinfo := encodeNat (.xim p) }
    else if s.me.ctl.remain ≤ 1 then trap { code := cILLEGAL_CLAUSE, detail := 6, tinfo := encodeNat (.xim p) }
    else .ok (s.onCtl fun c => { c with pc := c.pc + 32, remain := c.remain - 1, xim := some p }))

/-! ## Checks that need the clause -/

/-- R82: the majors a word XIM may stand before; of 0x0A only CALL. -/
def widens (n : Nat) : Bool :=
  match bits n 26 6 with
  | 0x02 => true
  | 0x03 => true
  | 0x04 => true
  | 0x08 => true
  | 0x09 => true
  | 0x0A => bits n 22 4 = 0
  | 0x0B => true
  | 0x0C => true
  | 0x0D => true
  | 0x12 => true
  | 0x15 => true
  | 0x20 => true
  | 0x21 => true
  | 0x22 => true
  | 0x23 => true
  | 0x2A => true
  | 0x32 => true
  | _ => false

/-- R70: control-transfer words. -/
def isTransfer (n : Nat) : Bool :=
  match bits n 26 6 with
  | 0x08 => true
  | 0x09 => true
  | 0x0A => true
  | 0x10 => bits n 0 5 = 2 || bits n 0 5 = 3 || bits n 0 5 = 6
  | _ => false

/-- The lane-register fields of a word (R71). -/
def laneFields : Instr → List Nat
  | .vadd _ d a b => [d.toNat, a.toNat, b.toNat]
  | .vsub _ d a b => [d.toNat, a.toNat, b.toNat]
  | .vand _ d a b => [d.toNat, a.toNat, b.toNat]
  | .vor _ d a b => [d.toNat, a.toNat, b.toNat]
  | .vxor _ d a b => [d.toNat, a.toNat, b.toNat]
  | .vandn _ d a b => [d.toNat, a.toNat, b.toNat]
  | .vnot _ d a => [d.toNat, a.toNat]
  | .vabs _ d a => [d.toNat, a.toNat]
  | .vneg _ d a => [d.toNat, a.toNat]
  | .vminI _ d a b => [d.toNat, a.toNat, b.toNat]
  | .vminB _ d a b => [d.toNat, a.toNat, b.toNat]
  | .vmaxI _ d a b => [d.toNat, a.toNat, b.toNat]
  | .vmaxB _ d a b => [d.toNat, a.toNat, b.toNat]
  | .vaddsatI _ d a b => [d.toNat, a.toNat, b.toNat]
  | .vaddsatB _ d a b => [d.toNat, a.toNat, b.toNat]
  | .vsubsatI _ d a b => [d.toNat, a.toNat, b.toNat]
  | .vsubsatB _ d a b => [d.toNat, a.toNat, b.toNat]
  | .vaddi _ d a _ => [d.toNat, a.toNat]
  | .vandi _ d a _ => [d.toNat, a.toNat]
  | .vori _ d a _ => [d.toNat, a.toNat]
  | .vshli _ d a _ => [d.toNat, a.toNat]
  | .vmul _ d a b => [d.toNat, a.toNat, b.toNat]
  | .vmulhI _ d a b => [d.toNat, a.toNat, b.toNat]
  | .vmulhB _ d a b => [d.toNat, a.toNat, b.toNat]
  | .vmad _ d a b => [d.toNat, a.toNat, b.toNat]
  | .vshl _ d a b => [d.toNat, a.toNat, b.toNat]
  | .vshr _ d a b => [d.toNat, a.toNat, b.toNat]
  | .vsar _ d a b => [d.toNat, a.toNat, b.toNat]
  | .vclz _ d a => [d.toNat, a.toNat]
  | .vpopc _ d a => [d.toNat, a.toNat]
  | .vbfx _ d a b => [d.toNat, a.toNat, b.toNat]
  | .vbfxI _ d a b => [d.toNat, a.toNat, b.toNat]
  | .vbfi _ d a b => [d.toNat, a.toNat, b.toNat]
  | .fadd _ d a b => [d.toNat, a.toNat, b.toNat]
  | .fsub _ d a b => [d.toNat, a.toNat, b.toNat]
  | .fmul _ d a b => [d.toNat, a.toNat, b.toNat]
  | .fmin _ d a b => [d.toNat, a.toNat, b.toNat]
  | .fmax _ d a b => [d.toNat, a.toNat, b.toNat]
  | .fabs _ d a => [d.toNat, a.toNat]
  | .fneg _ d a => [d.toNat, a.toNat]
  | .frnd _ d a _ => [d.toNat, a.toNat]
  | .fclass _ d a => [d.toNat, a.toNat]
  | .faddPacked _ d a b _ => [d.toNat, a.toNat, b.toNat]
  | .fsubPacked _ d a b _ => [d.toNat, a.toNat, b.toNat]
  | .fmulPacked _ d a b _ => [d.toNat, a.toNat, b.toNat]
  | .fminPacked _ d a b _ => [d.toNat, a.toNat, b.toNat]
  | .fmaxPacked _ d a b _ => [d.toNat, a.toNat, b.toNat]
  | .fabsPacked _ d a _ => [d.toNat, a.toNat]
  | .fnegPacked _ d a _ => [d.toNat, a.toNat]
  | .fclassPacked _ d a _ => [d.toNat, a.toNat]
  | .frndPacked _ d a _ _ => [d.toNat, a.toNat]
  | .fdot2 _ d a b _ => [d.toNat, a.toNat, b.toNat]
  | .fma _ d a b _ => [d.toNat, a.toNat, b.toNat]
  | .fms _ d a b _ => [d.toNat, a.toNat, b.toNat]
  | .fnma _ d a b _ => [d.toNat, a.toNat, b.toNat]
  | .vcmp _ _ a b _ => [a.toNat, b.toNat]
  | .vcmpF _ _ a b _ => [a.toNat, b.toNat]
  | .fcmpu _ _ a b => [a.toNat, b.toNat]
  | .vsel _ d a b => [d.toNat, a.toNat, b.toNat]
  | .vmov _ d a => [d.toNat, a.toNat]
  | .vmovi _ d _ => [d.toNat]
  | .vfromg _ d _ => [d.toNat]
  | .vlane _ d _ => [d.toNat]
  | .cvtF32ToX _ d a _ _ => [d.toNat, a.toNat]
  | .cvtI32ToX _ d a _ _ => [d.toNat, a.toNat]
  | .cvtXToF32 _ d a _ _ => [d.toNat, a.toNat]
  | .cvtXToI32 _ d a _ _ => [d.toNat, a.toNat]
  | .vunpack _ d a _ _ => [d.toNat, a.toNat]
  | .vquant _ d a _ _ _ _ => [d.toNat, a.toNat]
  | .vdequant _ d a _ => [d.toNat, a.toNat]
  | .vpackF16 _ d a b => [d.toNat, a.toNat, b.toNat]
  | .vpackBf16 _ d a b => [d.toNat, a.toNat, b.toNat]
  | .frcp _ d a => [d.toNat, a.toNat]
  | .frsqrt _ d a => [d.toNat, a.toNat]
  | .fsqrt _ d a => [d.toNat, a.toNat]
  | .fexp2 _ d a => [d.toNat, a.toNat]
  | .flog2 _ d a => [d.toNat, a.toNat]
  | .fsin _ d a => [d.toNat, a.toNat]
  | .fcos _ d a => [d.toNat, a.toNat]
  | .ftanh _ d a => [d.toNat, a.toNat]
  | .vperm _ d a b => [d.toNat, a.toNat, b.toNat]
  | .vpermM _ d a b => [d.toNat, a.toNat, b.toNat]
  | .vshufx _ d a _ _ => [d.toNat, a.toNat]
  | .vshufy _ d a _ _ => [d.toNat, a.toNat]
  | .vbcast _ d a _ => [d.toNat, a.toNat]
  | .vred _ d a _ => [d.toNat, a.toNat]
  | .vscan _ d a _ => [d.toNat, a.toNat]
  | .vmatch _ d a => [d.toNat, a.toNat]
  | .vpick _ _ a => [a.toNat]
  | .ldw _ d a _ _ _ => [d.toNat, a.toNat]
  | .stw _ s a _ _ _ => [s.toNat, a.toNat]
  | .ldeB _ d a _ => [d.toNat, a.toNat]
  | .ldeI _ d a _ => [d.toNat, a.toNat]
  | .ste _ s a _ => [s.toNat, a.toNat]
  | .vamoAdd _ d a _ => [d.toNat, a.toNat]
  | .vamoMinI _ d a _ => [d.toNat, a.toNat]
  | .vamoMaxI _ d a _ => [d.toNat, a.toNat]
  | .vamoAnd _ d a _ => [d.toNat, a.toNat]
  | .vamoOr _ d a _ => [d.toNat, a.toNat]
  | .vamoXor _ d a _ => [d.toNat, a.toNat]
  | .vamoSwap _ d a _ => [d.toNat, a.toNat]
  | .vamoCas _ d a _ => [d.toNat, a.toNat]
  | .vamoBfadd _ d a _ => [d.toNat, a.toNat]
  | .vamoMinB _ d a _ => [d.toNat, a.toNat]
  | .vamoMaxB _ d a _ => [d.toNat, a.toNat]
  | .lcopy _ _ v d _ _ => [v.toNat, d.toNat]
  | .mloop _ a _ _ _ _ _ => if a = 63 then [] else [a.toNat]
  | .zcvtReg d _ _ _ _ => [d.toNat]
  | .dry r k => if k = 0 then [r.toNat] else []
  | .wetq _ r k => if k = 0 then [r.toNat] else []
  | _ => []

/-- The tiles a word names (R18). -/
def tileFields : Instr → List Nat
  | .mloop z _ _ _ _ _ _ => [z.toNat]
  | .zclr z => [z.toNat]
  | .zld _ z => [z.toNat]
  | .zst _ z => [z.toNat]
  | .zmov m n => [m.toNat, n.toNat]
  | .zcvt _ _ _ _ z => [z.toNat]
  | .zcvtReg _ _ _ _ z => [z.toNat]
  | _ => []

/-- R18, R71: a lane-register field names a declared register or a temporary. -/
def regOk (vregs : Nat) (temps : Bool) (f : Nat) : Bool := (temps && 60 ≤ f) || f < vregs

/-- R82, R91, R120, R163, R355: the words that a word XIM may stand before but that leave bits of its payload reserved, and whether the
payload `p` has such a bit set. -/
def payloadBad (i : Instr) (n p : Nat) : Bool :=
  match bits n 26 6 with
  | 0x04 => p ≠ 0
  | 0x12 => p ≠ 0
  | 0x32 => bits p 20 6 ≠ 0
  | 0x15 => (match i with
    | .vshli _ _ _ _ => p ≠ 0
    | _ => false)
  | _ => false

/-- The first of the checks 4 (the placing of the word XIM and its reserved bits), 5, 6 and 7 of Table 04-9 that the
word `n` of instruction `i` fails. -/
def State.clauseCheck (s : State) (n : Nat) (i : Instr) : Option Trap :=
  let c := s.me.ctl
  let mj := bits n 26 6
  let h := (headerOf c.header).cls
  if c.xim.isSome ∧ widens n = false then some { code := cILLEGAL, detail := 4, tinfo := n }
  else if c.xim.isNone ∧ mj = 0x2A then some { code := cILLEGAL, detail := 4, tinfo := n }
  else if payloadBad i n (c.xim.getD 0).toNat then some { code := cILLEGAL, detail := 4, tinfo := n }
  else if mj = 0x11 then none
  else if classOfMajor mj ≠ 0 ∧ h ≠ 7 ∧ classOfMajor mj ≠ h then some { code := cILLEGAL_CLAUSE, detail := 5, tinfo := n }
  else if isTransfer n ∧ 1 < c.remain then some { code := cILLEGAL_CLAUSE, detail := 6, tinfo := n }
  else if ¬ ((laneFields i).all (regOk s.me.at_.vregs c.temps)) ∨ ¬ ((tileFields i).all (· < s.me.at_.tiles)) then
    some { code := cILLEGAL, detail := 7, tinfo := n }
  else none

/-! ## Permits (R235, R361, R182) -/

/-- The counter a word draws from: 1 vector, 2 special function, 3 memory, 0 none (Table 11-1). -/
def permitClass (mj : Nat) : Nat :=
  if mj = 0x1E then 2
  else if mj = 0x12 ∨ (0x14 ≤ mj ∧ mj ≤ 0x1D) ∨ mj = 0x1F then 1
  else if (0x0B ≤ mj ∧ mj ≤ 0x0D) ∨ (0x20 ≤ mj ∧ mj ≤ 0x25) ∨ (0x27 ≤ mj ∧ mj ≤ 0x29) ∨ (0x2D ≤ mj ∧ mj ≤ 0x31) then 3
  else 0

def Island.has (i : Island) : Nat → Bool
  | 1 => i.vector ≠ 0
  | 2 => i.special ≠ 0
  | 3 => i.memory ≠ 0
  | _ => true

/-! ## The clock of an island (R352, R361) -/

/-- R352: 64ths of a cycle that an island has run and not taken: its clock makes 5 of them in a nanosecond for each step. -/
def Island.due (i : Island) (time : Nat) : Nat := i.phase + 5 * i.clock * (time - i.since)

/-- The count of an island's cycles up to a device time. -/
def Island.clockTo (i : Island) (time : Nat) : Island := { i with phase := i.due time, since := time }

/-- Whole permits and sixteenths after a counter has gained `rate` sixteenths. -/
def refilled (cap count frac rate : Nat) : Nat × Nat :=
  let v := min (16 * cap) (16 * count + frac + rate)
  (v / 16, v % 16)

/-- R361: the refills of n cycles. -/
def Island.refill (i : Island) (n : Nat) : Island :=
  let m := refilled 64 i.matrix i.fracM (n * i.refillM)
  let v := refilled 64 i.vector i.fracV (n * i.refillV)
  let f := refilled 16 i.special i.fracS (n * i.refillS)
  { i with matrix := m.1, fracM := m.2, vector := v.1, fracV := v.2, special := f.1, fracS := f.2, memory := min 64 (i.memory + n) }

/-- The cycles that an island without scribes has run, all taken at once; in retention it ran none. -/
def Island.catchUp (i : Island) (time : Nat) : Island :=
  if i.retention then { i with phase := 0, since := time }
  else { (i.refill (i.due time / 64)).clockTo time with phase := i.due time % 64 }

/-- One permit of a class is drawn. -/
def Island.draw (i : Island) (k : Nat) : Island :=
  match k with
  | 1 => { i with vector := i.vector - 1, used := i.used + 1 }
  | 2 => { i with special := i.special - 1, used := i.used + 1 }
  | 3 => { i with memory := i.memory - 1, used := i.used + 1 }
  | _ => i

def State.island (s : State) : Island := look {} s.islands (islandOf s.me.at_.id)

/-! ## Packing (R72, R234) -/

/-- The PEs of a patch. -/
def Place.pes (p : Place) : List Nat := (List.range p.lanes).map p.peOf

/-- The header class of a scribe's clause. -/
def Scribe.cls (c : Scribe) : Nat := (headerOf c.ctl.header).cls

/-- R234: a narrow scribe whose clause has the class of the issue under way and whose patch is disjoint from it may join the issue. -/
def Scribe.joins (k : Pack) (c : Scribe) : Bool :=
  k.cls ≠ 7 && c.at_.width ≠ 2 && c.ctl.remain ≠ 0 && c.cls = k.cls && !k.members.contains c.at_.id
    && c.at_.pes.all fun pe => !k.pes.contains pe

/-- The issue with one more scribe in it. A 64-lane scribe, and one in a clause of class 7, issues alone. -/
def Pack.add (k : Pack) (c : Scribe) : Pack :=
  { k with cls := if c.at_.width = 2 then 7 else c.cls, members := k.members ++ [c.at_.id], pes := k.pes ++ c.at_.pes }

/-- The issuing scribe joins the issue under way in its slot. -/
def State.joining (s : State) : Bool := s.me.joins s.island.pack

/-- The island with the scribe in its issue: the one under way, or a new issue cycle (R231). -/
def State.issueCycle (s : State) : Island :=
  let i := s.island
  if s.joining then { i with pack := i.pack.add s.me } else { i with issues := i.issues + 1, pack := ({} : Pack).add s.me }

/-! ## Hold runs (R233) -/

/-- R232: ready for 32 issue cycles without issuing. -/
def Scribe.isUrgent (c : Scribe) : Bool := c.run.urgent || 32 ≤ c.run.ready

/-- Whether another scribe of the issuing scribe's slot is urgent and may issue. -/
def State.otherUrgent (s : State) : Bool :=
  s.others.any fun p => islandOf p.2.at_.id = islandOf s.me.at_.id && p.2.run.life = .running && p.2.isUrgent && (p.2.run.park.isNone || p.2.run.retry)

/-- The hold run of the issuing scribe as its word issues: it begins at the clause's first word, or, when another scribe was urgent
then, at the first word at which none is. -/
def State.holdNow (s : State) : Nat :=
  let c := s.me.ctl
  let h := headerOf c.header
  if h.hold = false then 0
  else if c.remain + c.xim.isSome.toNat = h.n then (if s.otherUrgent then 1 else 2)
  else if s.me.run.hold = 1 ∧ s.otherUrgent = false then 2
  else s.me.run.hold

/-! ## What an issue takes -/

/-- R182: no reserve word of a class has issued in the 63 issue cycles before the one numbered `now`. -/
def reserveFree (last : Option Nat) (now : Nat) : Bool :=
  match last with
  | some n => n + 64 ≤ now
  | none => true

/-- What issuing the word `n` takes: a permit, one of each class for an issue (R234), or the reserve; none when it must
wait. -/
def State.pay (s : State) (n : Nat) : Option State :=
  let mj := bits n 26 6
  let k := permitClass mj
  let key := islandOf s.me.at_.id
  let i := s.issueCycle
  let held := s.onRun fun r => { r with hold := s.holdNow }
  let takes := fun (j : Island) => some { held with islands := put {} s.islands key j }
  if s.me.run.began then some s
  else if i.pack.drawn.contains k then takes i
  else if i.has k then takes { i.draw k with pack := { i.pack with drawn := i.pack.drawn ++ [k] } }
  else if s.me.ctl.handler ∧ classOfMajor mj = 0 ∧ reserveFree i.reserveScalar i.issues then takes { i with reserveScalar := some i.issues }
  else if s.me.ctl.handler ∧ classOfMajor mj = 1 ∧ reserveFree i.reserveLane i.issues then takes { i with reserveLane := some i.issues }
  else none

end Sys2Proof.Machine
end

