-- ==== Sys2Proof/Machine/Scalar.lean ====
section
/-! DEFINITION. Scalar arithmetic: majors 0x01 to 0x06 (R89 to R93). -/

namespace Sys2Proof.Machine

open Sys2Proof

/-! ## Values -/

/-- Leading zeros of an n of w bits. -/
def clzNat (w n : Nat) : Nat := if n = 0 then w else w - 1 - Nat.log2 n

/-- Trailing zeros of n, at most `fuel`. -/
def ctzNat : Nat → Nat → Nat
  | 0, _ => 0
  | fuel + 1, n => if n % 2 = 1 then 0 else 1 + ctzNat fuel (n / 2)

/-- One bits of n among the low `fuel`. -/
def popcNat : Nat → Nat → Nat
  | 0, _ => 0
  | fuel + 1, n => n % 2 + popcNat fuel (n / 2)

def flag64 (c : Bool) : Word := if c then 1 else 0

/-- R92, Table 05-4: quotients truncate toward zero. -/
def divI64 (x y : Word) : Word := if y = 0 then BitVec.allOnes 64 else BitVec.ofInt 64 (x.toInt.tdiv y.toInt)
def remI64 (x y : Word) : Word := if y = 0 then x else BitVec.ofInt 64 (x.toInt.tmod y.toInt)
def divB64 (x y : Word) : Word := if y = 0 then BitVec.allOnes 64 else word (x.toNat / y.toNat)
def remB64 (x y : Word) : Word := if y = 0 then x else word (x.toNat % y.toNat)

/-- The bits pos .. pos + len - 1 of a word. -/
def field64 (v : Word) (pos len : Nat) : Nat := bits v.toNat pos len

/-! ## Shapes -/

/-- A form with two dry sources. -/
def State.scalar2 (s : State) (d a b : BitVec 5) (f : Word → Word → Word) : Res State :=
  match s.sval a.toNat with
  | .error e => .error e
  | .ok x => match s.sval b.toNat with
    | .error e => .error e
    | .ok y => .ok (s.setS d.toNat (f x y))

/-- A form with one dry source. -/
def State.scalar1 (s : State) (d a : BitVec 5) (f : Word → Word) : Res State :=
  match s.sval a.toNat with
  | .error e => .error e
  | .ok x => .ok (s.setS d.toNat (f x))

/-! ## Major 0x01 (R89) -/

def execAdd (d a b : BitVec 5) (s : State) : Host.Outcome State Fault Refusal := finish s (s.affineS .add d.toNat a.toNat b.toNat)
def execSub (d a b : BitVec 5) (s : State) : Host.Outcome State Fault Refusal := finish s (s.affineS .sub d.toNat a.toNat b.toNat)
def execAnd (d a b : BitVec 5) (s : State) : Host.Outcome State Fault Refusal := finish s (s.scalar2 d a b fun x y => x &&& y)
def execOr (d a b : BitVec 5) (s : State) : Host.Outcome State Fault Refusal := finish s (s.scalar2 d a b fun x y => x ||| y)
def execXor (d a b : BitVec 5) (s : State) : Host.Outcome State Fault Refusal := finish s (s.scalar2 d a b fun x y => x ^^^ y)
def execAndn (d a b : BitVec 5) (s : State) : Host.Outcome State Fault Refusal := finish s (s.scalar2 d a b fun x y => x &&& ~~~y)
def execShl (d a b : BitVec 5) (s : State) : Host.Outcome State Fault Refusal := finish s (s.scalar2 d a b fun x y => x <<< (y.toNat % 64))
def execShr (d a b : BitVec 5) (s : State) : Host.Outcome State Fault Refusal := finish s (s.scalar2 d a b fun x y => x >>> (y.toNat % 64))
def execSar (d a b : BitVec 5) (s : State) : Host.Outcome State Fault Refusal := finish s (s.scalar2 d a b fun x y => x.sshiftRight (y.toNat % 64))
def execMinI (d a b : BitVec 5) (s : State) : Host.Outcome State Fault Refusal := finish s (s.scalar2 d a b fun x y => if x.toInt ≤ y.toInt then x else y)
def execMaxI (d a b : BitVec 5) (s : State) : Host.Outcome State Fault Refusal := finish s (s.scalar2 d a b fun x y => if x.toInt ≤ y.toInt then y else x)
def execMinB (d a b : BitVec 5) (s : State) : Host.Outcome State Fault Refusal := finish s (s.scalar2 d a b fun x y => if x.toNat ≤ y.toNat then x else y)
def execMaxB (d a b : BitVec 5) (s : State) : Host.Outcome State Fault Refusal := finish s (s.scalar2 d a b fun x y => if x.toNat ≤ y.toNat then y else x)
def execSlt (d a b : BitVec 5) (s : State) : Host.Outcome State Fault Refusal := finish s (s.scalar2 d a b fun x y => flag64 (x.toInt < y.toInt))
def execSltb (d a b : BitVec 5) (s : State) : Host.Outcome State Fault Refusal := finish s (s.scalar2 d a b fun x y => flag64 (x.toNat < y.toNat))
def execSeq (d a b : BitVec 5) (s : State) : Host.Outcome State Fault Refusal := finish s (s.scalar2 d a b fun x y => flag64 (x = y))
def execSne (d a b : BitVec 5) (s : State) : Host.Outcome State Fault Refusal := finish s (s.scalar2 d a b fun x y => flag64 (x ≠ y))
/-- SEL reads the old sd as well. -/
def execSel (d a b : BitVec 5) (s : State) : Host.Outcome State Fault Refusal :=
  finish s (match s.sval d.toNat with
    | .error e => .error e
    | .ok z => s.scalar2 d a b fun x y => if z ≠ 0 then x else y)
def execClz (d a : BitVec 5) (s : State) : Host.Outcome State Fault Refusal := finish s (s.scalar1 d a fun x => word (clzNat 64 x.toNat))
def execCtz (d a : BitVec 5) (s : State) : Host.Outcome State Fault Refusal := finish s (s.scalar1 d a fun x => word (ctzNat 64 x.toNat))
def execPopc (d a : BitVec 5) (s : State) : Host.Outcome State Fault Refusal := finish s (s.scalar1 d a fun x => word (popcNat 64 x.toNat))

/-! ## Majors 0x02 and 0x03 (R90) -/

/-- The 14-bit immediate, 40 bits after the word XIM, sign-extended. -/
def State.imm14 (s : State) (i : BitVec 14) : Word := BitVec.ofInt 64 (s.simm 14 i.toNat)

def execAddi (d a : BitVec 5) (i : BitVec 14) (s : State) : Host.Outcome State Fault Refusal := finish s (s.affineI .add d.toNat a.toNat (s.imm14 i))
def execSlti (d a : BitVec 5) (i : BitVec 14) (s : State) : Host.Outcome State Fault Refusal := finish s (s.scalar1 d a fun x => flag64 (x.toInt < (s.imm14 i).toInt))
def execLi (d : BitVec 5) (i : BitVec 14) (s : State) : Host.Outcome State Fault Refusal := finish s (.ok (s.setS d.toNat (s.imm14 i)))
def execLih (d a : BitVec 5) (i : BitVec 14) (s : State) : Host.Outcome State Fault Refusal :=
  finish s (s.scalar1 d a fun x => word (x.toNat % 2 ^ 32 + s.uimm 14 i.toNat % 2 ^ 32 * 2 ^ 32))
def execAndi (d a : BitVec 5) (i : BitVec 14) (s : State) : Host.Outcome State Fault Refusal := finish s (s.scalar1 d a fun x => x &&& s.imm14 i)
def execOri (d a : BitVec 5) (i : BitVec 14) (s : State) : Host.Outcome State Fault Refusal := finish s (s.scalar1 d a fun x => x ||| s.imm14 i)
def execXori (d a : BitVec 5) (i : BitVec 14) (s : State) : Host.Outcome State Fault Refusal := finish s (s.scalar1 d a fun x => x ^^^ s.imm14 i)

/-! ## Major 0x04 (R91) -/

/-- After the payload check of major 0x04. -/
def State.noPay (s : State) (i : Instr) (r : Res State) : Res State :=
  match s.noPayload (encodeNat i) with
  | .error e => .error e
  | .ok _ => r

def execShli (d a : BitVec 5) (n : BitVec 6) (s : State) : Host.Outcome State Fault Refusal :=
  finish s (s.noPay (.shli d a n) (s.affineI .mul d.toNat a.toNat (1#64 <<< n.toNat)))
def execShri (d a : BitVec 5) (n : BitVec 6) (s : State) : Host.Outcome State Fault Refusal :=
  finish s (s.noPay (.shri d a n) (s.scalar1 d a fun x => x >>> n.toNat))
def execSari (d a : BitVec 5) (n : BitVec 6) (s : State) : Host.Outcome State Fault Refusal :=
  finish s (s.noPay (.sari d a n) (s.scalar1 d a fun x => x.sshiftRight n.toNat))

/-- R91: a field of len = l + 1 bits at p that passes bit 63 is ILLEGAL. -/
def State.fieldOk (s : State) (i : Instr) (l p : BitVec 6) (r : Res State) : Res State :=
  s.noPay i (if 64 < p.toNat + l.toNat + 1 then trap (illegal9 (encodeNat i)) else r)

def execBfx (d a : BitVec 5) (l p : BitVec 6) (s : State) : Host.Outcome State Fault Refusal :=
  finish s (s.fieldOk (.bfx d a l p) l p (s.scalar1 d a fun x => word (field64 x p.toNat (l.toNat + 1))))
def execBfxI (d a : BitVec 5) (l p : BitVec 6) (s : State) : Host.Outcome State Fault Refusal :=
  finish s (s.fieldOk (.bfxI d a l p) l p (s.scalar1 d a fun x => sext64 (l.toNat + 1) (field64 x p.toNat (l.toNat + 1))))
def execBfi (d a : BitVec 5) (l p : BitVec 6) (s : State) : Host.Outcome State Fault Refusal :=
  finish s (s.fieldOk (.bfi d a l p) l p (match s.sval d.toNat with
    | .error e => .error e
    | .ok z => s.scalar1 d a fun x =>
        let m := word ((2 ^ (l.toNat + 1) - 1) * 2 ^ p.toNat)
        (z &&& ~~~m) ||| ((x <<< p.toNat) &&& m)))
def execSext (d a : BitVec 5) (n : BitVec 6) (s : State) : Host.Outcome State Fault Refusal :=
  finish s (s.noPay (.sext d a n) (s.scalar1 d a fun x => sext64 (n.toNat + 1) x.toNat))
def execZext (d a : BitVec 5) (n : BitVec 6) (s : State) : Host.Outcome State Fault Refusal :=
  finish s (s.noPay (.zext d a n) (s.scalar1 d a fun x => word (x.toNat % 2 ^ (n.toNat + 1))))

/-! ## Majors 0x05 and 0x06 (R92, R93) -/

def execMul (d a b : BitVec 5) (s : State) : Host.Outcome State Fault Refusal := finish s (s.affineS .mul d.toNat a.toNat b.toNat)
def execMulhI (d a b : BitVec 5) (s : State) : Host.Outcome State Fault Refusal := finish s (s.scalar2 d a b fun x y => BitVec.ofInt 64 (x.toInt * y.toInt / 2 ^ 64))
def execMulhB (d a b : BitVec 5) (s : State) : Host.Outcome State Fault Refusal := finish s (s.scalar2 d a b fun x y => word (x.toNat * y.toNat / 2 ^ 64))
def execDivI (d a b : BitVec 5) (s : State) : Host.Outcome State Fault Refusal := finish s (s.scalar2 d a b divI64)
def execDivB (d a b : BitVec 5) (s : State) : Host.Outcome State Fault Refusal := finish s (s.scalar2 d a b divB64)
def execRemI (d a b : BitVec 5) (s : State) : Host.Outcome State Fault Refusal := finish s (s.scalar2 d a b remI64)
def execRemB (d a b : BitVec 5) (s : State) : Host.Outcome State Fault Refusal := finish s (s.scalar2 d a b remB64)
def execMov (d a : BitVec 5) (s : State) : Host.Outcome State Fault Refusal := finish s (s.affineI .add d.toNat a.toNat 0)

end Sys2Proof.Machine
end

