-- ==== Sys2Proof/Machine/System.lean ====
section
/-! DEFINITION. System words: the control registers (R110, R111), traps and returns (R170 to R172),
fences and the small forms of major 0x10 (R112, R113), but for EXIT; and major 0x12 (R163). -/

namespace Sys2Proof.Machine

open Sys2Proof

/-! ## Reading control registers (Table 05-12) -/

/-- Table 05-13. -/
def Scribe.status (c : Scribe) : Nat :=
  c.ctl.depth % 65536 + c.ctl.handler.toNat * 2 ^ 16 + c.at_.width % 4 * 2 ^ 18 + (c.at_.vregs / 16 - 1) % 4 * 2 ^ 20
    + c.at_.tiles % 8 * 2 ^ 22 + c.at_.persist.toNat * 2 ^ 25

/-- A value saturated to 32-bit two's complement. -/
def sat32 (i : Int) : Lane := BitVec.ofInt 32 (max (-2 ^ 31) (min (2 ^ 31 - 1) i))

/-- DEADLINE − TIME, read as two's complement (R355). -/
def Ctl.toDeadline (c : Ctl) (time : Nat) : Int := (c.deadline - word time).toInt

/-- R356: the work left. -/
def Ctl.left (c : Ctl) : Nat := c.work - c.done

/-- Table 21-3. -/
def Ctl.slack (c : Ctl) (time : Nat) : Nat :=
  if c.stepOpen then
    2 ^ 63 + c.risked.toNat * 2 ^ 62 + min c.left (2 ^ 30 - 1) * 2 ^ 32
      + (sat32 (c.toDeadline time - ((4 * c.left + 4) / 5 : Nat))).toNat
  else c.risked.toNat * 2 ^ 62 + c.slackNs.toNat

/-- Table 21-4, as of the latest decision. -/
def Die.tallow (d : Die) : Nat := d.hotBits.toNat + d.trip.toNat * 4 + d.temp.toNat * 2 ^ 16 + d.pwr % 65536 * 2 ^ 32

/-- The value of a control register of a scribe, if the number names one. -/
def State.cregOf (s : State) (x : Scribe) (n : Nat) : Option Word :=
  let c := x.ctl
  match n with
  | 0x000 => some (word x.status)
  | 0x001 => some c.fpm
  | 0x002 => some c.part
  | 0x003 => some (c.seed.setWidth 64)
  | 0x010 => some c.tcause
  | 0x011 => some c.tpc
  | 0x012 => some c.tinfo
  | 0x013 => some c.taddr
  | 0x014 => some c.tstatus
  | 0x015 => some c.tvec
  | 0x020 => some c.scs
  | 0x021 => some (c.wets.setWidth 64)
  | 0x022 => some c.holef
  | 0x023 => some (c.fillv.setWidth 64)
  | 0x030 => some c.qring
  | 0x040 => some (c.stepId.setWidth 64)
  | 0x041 => some c.deadline
  | 0x042 => some (word (c.slack s.time))
  | 0x043 => some (word (look {} s.dies (dieOf x.at_.id)).tallow)
  | 0x050 => some (word s.time)
  | 0x051 => some (x.at_.id.setWidth 64)
  | 0x052 => some (x.at_.team.setWidth 64)
  | 0x053 => some x.at_.launchPos
  | _ => none

def State.creg (s : State) (n : Nat) : Option Word := s.cregOf s.me n

/-- R81: a number that names no register. -/
def noCreg (i : Instr) : Trap := { code := cILLEGAL, detail := 8, tinfo := encodeNat i }

def execGetc (r : BitVec 10) (d : BitVec 5) (s : State) : Host.Outcome State Fault Refusal :=
  finish s (match s.creg r.toNat with
    | some v => .ok (s.setS d.toNat v)
    | none => trap (noCreg (.getc r d)))

/-! ## Writing control registers -/

/-- R38. -/
def fpmOk (v : Nat) : Bool := bits v 0 3 < 6 && bits v 6 10 = 0 && bits v 22 42 = 0

/-- R16: segments no larger than the patch. -/
def partOk (p : Place) (v : Nat) : Bool := bits v 4 60 = 0 && 2 ^ bits v 0 2 ≤ p.pw && 2 ^ bits v 2 2 ≤ p.ph

/-- R166. -/
def tstatusOk (old v : Nat) : Bool :=
  bits v 37 27 = 0 && bits v 36 1 = bits old 36 1 && !(bits v 32 4 = 0 && bits v 0 32 ≠ 0)

/-- A 9-bit two's complement field. -/
def s9 (v lo : Nat) : Int := signed 9 (bits v lo 9)

/-- Whether a completed displacement lies between 0 and the whole one. -/
def partWay (done whole : Int) : Bool := if 0 ≤ whole then 0 ≤ done && done ≤ whole else whole ≤ done && done ≤ 0

/-- R253. -/
def scsOk (v : Nat) : Bool :=
  bits v 45 18 = 0 && s9 v 0 ≠ -256 && s9 v 9 ≠ -256 && partWay (s9 v 18) (s9 v 0) && partWay (s9 v 27) (s9 v 9)
    && !(s9 v 27 ≠ 0 && s9 v 18 ≠ s9 v 0) && bits v 36 3 < 4

/-- The control part after a SETC; none when it raises ILLEGAL by a register's access or map. -/
def Scribe.setCreg (c : Scribe) (n : Nat) (v : Word) : Option Ctl :=
  let k := c.ctl
  let x := v.toNat
  let when := fun (ok : Bool) (k' : Ctl) => if ok then some k' else none
  match n with
  | 0x001 => when (fpmOk x) { k with fpm := v }
  | 0x002 => when (partOk c.at_ x) { k with part := v }
  | 0x010 => when (k.handler && x < 2 ^ 16) { k with tcause := v }
  | 0x011 => when k.handler { k with tpc := v }
  | 0x012 => when k.handler { k with tinfo := v }
  | 0x013 => when k.handler { k with taddr := v }
  | 0x014 => when (k.handler && tstatusOk k.tstatus.toNat x) { k with tstatus := v }
  | 0x020 => when (scsOk x) { k with scs := v }
  | 0x021 => when (x < 2 ^ 32) { k with wets := v.setWidth 32 }
  | 0x022 => when (x < 2 ^ 5) { k with holef := v }
  | 0x023 => when (x < 2 ^ 32) { k with fillv := v.setWidth 32 }
  | 0x030 => when (bits x 8 24 = 0) { k with qring := v }
  | _ => none

def execSetc (r : BitVec 10) (sreg : BitVec 5) (s : State) : Host.Outcome State Fault Refusal :=
  finish s (match s.creg r.toNat with
    | none => trap (noCreg (.setc r sreg))
    | some _ =>
      match s.sval sreg.toNat with
      | .error e => .error e
      | .ok v => match s.me.setCreg r.toNat v with
        | some k => .ok (s.onCtl fun _ => k)
        | none => trap (illegal9 (encodeNat (.setc r sreg))))

/-- R35: the lanes that are not on holes start again from SEED. -/
def seedLanes (seed : Lane) : List Nat → Tbl Lane → Tbl Lane
  | [], t => t
  | l :: ls, t => seedLanes seed ls (put 0 t l (rngSeed seed l))

def execSetcRngs (sreg : BitVec 5) (s : State) : Host.Outcome State Fault Refusal :=
  finish s (match s.sval sreg.toNat with
    | .error e => .error e
    | .ok v =>
      if 2 ^ 32 ≤ v.toNat then trap (illegal9 (encodeNat (.setcRngs sreg)))
      else
        let s1 := s.onCtl fun c => { c with seed := v.setWidth 32 }
        .ok (s1.onR fun r => { r with rng := seedLanes (v.setWidth 32) (lanesOf s.live) r.rng }))

/-! ## Traps and returns -/

/-- R172: TRAP stands last in its clause, so its TPC is a header position. -/
def execTrap (n : BitVec 10) (s : State) : Host.Outcome State Fault Refusal :=
  finish s (trap { code := cSOFTWARE, tinfo := n.toNat, next := true })

/-- R378: break capture is set for the context. -/
def State.breakCapture (s : State) : Bool :=
  match find s.sessions s.me.at_.asid.toNat with
  | some t => t.brkcap
  | none => false

def cDEBUG_STOP : Nat := 0x23

/-- (pc − code base)/32 of the word that issues. -/
def State.codeWordNo (s : State) : Nat := (s.me.ctl.wordAt - s.me.at_.codeBase).toNat / 32

/-- R378: the issuing scribe stops for the host, with STOP, STOPPC and a notice. -/
def State.debugStop (s : State) : State :=
  let s1 := s.onRun fun r => { r with life := .debugHeld, stopCause := cDEBUG_STOP, stepOne := false }
  ((s1.traceMe 0x05 (s1.liveLanes s1.me.at_).toNat).traceMe 0x06 (s1.codeWordNo % 2 ^ 32 * 2 ^ 32 + cDEBUG_STOP)).notice 5 s1.me.at_.asid.toNat 0

/-- R172: BRK enters the handler, or stops the scribe for the host after its word. -/
def execBrk (n : BitVec 10) (s : State) : Host.Outcome State Fault Refusal :=
  if s.breakCapture then .next s.advance.debugStop
  else finish s (trap { code := cBREAKPOINT, tinfo := n.toNat, next := true })

/-- R170: whether TRET may resume inside the interrupted clause. -/
def State.resumeOk (s : State) : Bool :=
  let c := s.me.ctl
  let remain := bits c.tstatus.toNat 32 4
  let skip := c.savedRemain - remain
  remain ≤ c.savedRemain && bits c.tstatus.toNat 0 32 = c.savedHeader.toNat && c.tpc = c.savedPc + word (32 * skip)
    && !(skip ≠ 0 && bits (s.codeWord (c.tpc - 32).toNat).toNat 26 6 = 0x11)

/-- R170: leave the handler. No hold run is under way in the clause it resumes (R233), and a YIELD of it counts again (R113). The program counter holds a multiple of 32 (R65): the low bits that a handler may have written to TPC drop, for
which the spec gives no outcome (the model's choice, log 114). -/
def State.leave (s : State) : State :=
  let c := s.me.ctl
  let remain := bits c.tstatus.toNat 32 4
  let saved := bits c.tstatus.toNat 36 1 = 1
  let s1 := if saved then { s with me := if remain ≠ 0 then s.me.bringTemps else s.me.wipeHeld } else s
  let s2 := s1.onCtl fun c => { c with handler := false, pc := word (c.tpc.toNat / 32 * 32), remain := remain, xim := none,
                                       header := if remain = 0 then c.header else BitVec.ofNat 32 (bits c.tstatus.toNat 0 32) }
  s2.onRun fun r => { r with park := none, replayTag := none, hold := 0, yielded := remain ≠ 0 && r.heldYield, heldYield := false }

/-- What TRET checks first. -/
def State.tretCheck (s : State) (i : Instr) : Res Unit :=
  if s.me.ctl.handler = false then trap (illegal9 (encodeNat i))
  else if bits s.me.ctl.tstatus.toNat 32 4 ≠ 0 ∧ s.resumeOk = false then
    trap { code := cILLEGAL_CLAUSE, detail := 7, tinfo := encodeNat i }
  else .ok ()

def execTret (s : State) : Host.Outcome State Fault Refusal :=
  finishAt s (match s.tretCheck .tret with
    | .error e => .error e
    | .ok _ => .ok (s.advance.leave))

/-- R157: perform the access of a faulted tag again, after the scribe's earlier ones to its atoms (R103, R104); its records resolve, or turn
faulted again. A load that has had its value since keeps it (R160), but its access must succeed. -/
def State.replayTag (s : State) (tag : Nat) (t : TagRec) : Res State :=
  if t.kept ∧ t.amo.isSome then .ok { s with me := s.me.resolveS tag t.x }
  else if t.updated then .ok s
  else
    let k : AKind := if t.amo.isSome then .atomic else .load
    match s.afterTags (· < tag) t.space t.addr t.width with
    | .error e => .error e
    | .ok s => match s.getFar s.meWho t.space t.addr t.width k with
      | .error m =>
        if s.replays s.me.at_.asid ∧ m.detail ≠ 2 then s.translationStop 0 k m
        else
          let s1 := s.walkedTo s.meWho m
          .ok { s1 with me := s1.me.faultTag tag 1 }
      | .ok g => match g.waits, g.bad with
        | some ly, _ => s.tripStop ly
        | none, some (cause, _) => .ok { g.st with me := g.st.me.faultTag tag cause }
        | none, none =>
          let s1 := match t.amo with
            | some (o, x, y) => s.amoWrite t.space t.addr t.width ((amoOfCode o).new t.width g.n x.toNat y.toNat) true g
            | none => g.st
          .ok { s1 with me := s1.me.resolveS tag (if t.kept then t.x else extend t.width t.signed g.n) }

def execTretReplay (s : State) : Host.Outcome State Fault Refusal :=
  finishAt s (match s.tretCheck .tretReplay with
    | .error e => .error e
    | .ok _ =>
      match (if bits s.me.ctl.tcause.toNat 0 8 = cWET_FAULT then s.me.run.replayTag else none) with
      | none => .ok (s.advance.leave)
      | some tag => match find s.me.wet.tags tag with
        | none => .ok (s.advance.leave)
        | some t => match s.replayTag tag t with
          | .error e => .error e
          | .ok s1 => .ok (s1.advance.leave))

/-! ## The small forms -/

/-- R112, R249: a FENCE waits as an access of its order would, and with acquire also for earlier scrolls
and fills. -/
def execFence (_sc : BitVec 3) (o : BitVec 2) (s : State) : Host.Outcome State Fault Refusal :=
  finish s (if s.me.run.jobs ≠ [] then parkOn .planeQueue
    else match s.ordered o.toNat with
      | .error e => .error e
      | .ok _ => .ok s)

def execYield (s : State) : Host.Outcome State Fault Refusal := finish s (.ok (s.onRun fun r => { r with yielded := true }))

/-- R336: a progress event of a context. -/
def State.progress (s : State) (asid : BitVec 14) : State := { s with lastProgress := set s.lastProgress asid.toNat s.time }

def execBeat (s : State) : Host.Outcome State Fault Refusal := finish s (.ok (s.progress s.me.at_.asid))
def execNop (s : State) : Host.Outcome State Fault Refusal := finish s (.ok s)
def execLdk (n : BitVec 6) (d : BitVec 5) (i : BitVec 1) (s : State) : Host.Outcome State Fault Refusal :=
  finish s (.ok (s.setS d.toNat (
    let k := look 0 s.me.r.k n.toNat
    if i = 1 then k.signExtend 64 else k.setWidth 64)))

/-! ## Major 0x12 (R163) -/

def execDry (r : BitVec 6) (k : BitVec 1) (s : State) : Host.Outcome State Fault Refusal :=
  finish s (s.noPay (.dry r k) (
    if k = 1 then match s.me.wetS (r.toNat % 32) with
      | some q => (match s.me.needDry q with
        | .error e => .error e
        | .ok _ => .ok s)
      | none => .ok s
    else match s.me.wetV (s.vr r.toNat) with
      | some q => (match s.me.needDry q with
        | .error e => .error e
        | .ok _ => .ok s)
      | none => .ok s))

/-- The lanes in which a register is pending, faulted or poisoned, of those not on holes. -/
def State.wetLanes (s : State) (reg : Nat) : Word :=
  let wet := match s.me.wetV reg with
    | some r => r.mask
    | none => 0
  s.live &&& (wet ||| s.me.markedLanes reg s.live)

def execWetq (d : BitVec 5) (r : BitVec 6) (k : BitVec 1) (s : State) : Host.Outcome State Fault Refusal :=
  finish s (s.noPay (.wetq d r k) (.ok (s.setS d.toNat (
    if k = 1 then flag64 (s.me.wetS (r.toNat % 32)).isSome else s.wetLanes (s.vr r.toNat)))))

/-- Whether a register of the scribe is pending. -/
def Scribe.pendingWet (c : Scribe) : Bool :=
  c.wet.s.any (fun p => p.2.fault.isNone) || c.wet.v.any fun p => p.2.fault.isNone

def execDryAll (s : State) : Host.Outcome State Fault Refusal :=
  finish s (s.noPay .dryAll (if s.me.pendingWet then parkOn .wetOperand else .ok s))

end Sys2Proof.Machine
end

