-- ==== Sys2Proof/Machine/Rect.lean ====
section
/-! DEFINITION. Rectangle registers (R241, R242, R247), partitions (R240) and the ownership words of major
0x25 (R202 to R206). -/

namespace Sys2Proof.Machine

open Sys2Proof

/-! ## Rectangles (Table 13-1) -/

def rX (e : Word) : Nat := bits e.toNat 0 8
def rY (e : Word) : Nat := bits e.toNat 8 8
def rW (e : Word) : Nat := bits e.toNat 16 8 + 1
def rH (e : Word) : Nat := bits e.toNat 24 8 + 1
def rLine (e : Word) : Nat := bits e.toNat 32 8
def rN (e : Word) : Nat := bits e.toNat 40 8 + 1
def rStrict (e : Word) : Bool := bits e.toNat 48 1 = 1

/-- R241: a valid rectangle. -/
def rectOk (e : Word) : Bool :=
  rX e + rW e ≤ 256 && rY e + rH e ≤ 256 && rLine e + rN e ≤ 256 && bits e.toNat 49 15 = 0

/-- A rectangle at another position. -/
def rectAt (e : Word) (x y : Nat) : Word := word (e.toNat / 65536 * 65536 + x % 256 + y % 256 * 256)

/-- The positions x0 .. x0 + w - 1 by y0 .. y0 + h - 1, as PE numbers, ascending. -/
def boxPes (x0 y0 w h : Nat) : List Nat := (List.range h).flatMap fun j => (List.range w).map fun i => 256 * (y0 + j) + x0 + i

def rectPes (e : Word) : List Nat := boxPes (rX e) (rY e) (rW e) (rH e)

/-- The lines of a rectangle's line range at the positions of a list that are not holes for a launch. -/
def State.rectLinesFor (s : State) (launch : Nat) (e : Word) (pes : List Nat) : List Nat :=
  (pes.filter fun p => !s.holeFor launch p).flatMap fun p => (List.range (rN e)).map fun i => lineNo p (rLine e + i)

/-- The same for the issuing scribe. -/
def State.rectLines (s : State) (e : Word) (pes : List Nat) : List Nat := s.rectLinesFor s.me.at_.launch e pes

/-- R247: the rectangle register is the destination of a `.move` under way. -/
def Scribe.rectHeld (c : Scribe) (e : Nat) : Bool := c.run.jobs.any fun j => !j.fill && j.mode = 3 && j.reg = e

/-- A use of a rectangle register: it waits for a `.move` that holds it. -/
def State.rect (s : State) (e : Nat) : Res Word := if s.me.rectHeld e then parkOn .rectReg else .ok (s.getE e)

/-- R241: write a rectangle register, or raise ILLEGAL. -/
def State.setRect (s : State) (i : Instr) (e : Nat) (v : Word) : Res State :=
  if rectOk v then .ok (s.setE e v) else trap (illegal9 (encodeNat i))

/-! ## Major 0x27 (R242) -/

def execRset (sreg : BitVec 5) (e : BitVec 3) (s : State) : Host.Outcome State Fault Refusal :=
  finish s (match s.rect e.toNat with
    | .error x => .error x
    | .ok _ => match s.sval sreg.toNat with
      | .error x => .error x
      | .ok v => s.setRect (.rset sreg e) e.toNat v)
def execRget (d : BitVec 5) (e : BitVec 3) (s : State) : Host.Outcome State Fault Refusal :=
  finish s (match s.rect e.toNat with
    | .error x => .error x
    | .ok v => .ok (s.setS d.toNat v))
def execRmov (f e : BitVec 3) (s : State) : Host.Outcome State Fault Refusal :=
  finish s (match s.rect e.toNat with
    | .error x => .error x
    | .ok _ => match s.rect f.toNat with
      | .error x => .error x
      | .ok v => s.setRect (.rmov f e) e.toNat v)

/-- Add to an 8-bit field of a rectangle; none when the sum leaves it. -/
def bump (e : Word) (lo : Nat) (a : Int) : Option Word :=
  let v : Int := (bits e.toNat lo 8 : Int) + a
  if v < 0 ∨ 255 < v then none else some (word (e.toNat - bits e.toNat lo 8 * 2 ^ lo + v.toNat * 2 ^ lo))

/-- Table 13-3. -/
def radjust (e : Word) (t : Nat) (a b : Int) : Option Word :=
  match t with
  | 0 => bump e 0 a
  | 1 => bump e 8 a
  | 2 => (bump e 0 a).bind fun e => bump e 8 b
  | 3 => bump e 32 a
  | 4 => bump e 16 a
  | 5 => bump e 24 a
  | _ => bump e 40 a

def execRadj (a b : BitVec 5) (t e : BitVec 3) (s : State) : Host.Outcome State Fault Refusal :=
  finish s (match s.rect e.toNat with
    | .error x => .error x
    | .ok v => match s.sval a.toNat with
      | .error x => .error x
      | .ok av => match (if t = 2 then s.sval b.toNat else .ok 0) with
        | .error x => .error x
        | .ok bv => match radjust v t.toNat av.toInt bv.toInt with
          | some w => s.setRect (.radj a b t e) e.toNat w
          | none => trap (illegal9 (encodeNat (.radj a b t e))))

/-! ## Partitions -/

/-- R240: a position inside the partition of a context. -/
def State.inPartition (s : State) (asid : BitVec 14) (x y : Nat) : Bool :=
  match find s.ctxs asid.toNat with
  | some c => bits c.cores.toNat (pkgCoreAt x y) 1 = 1
  | none => false

/-! ## Ownership words (R203 to R205) -/

/-- What an ownership word makes of its lines. -/
structure OwnForm where
  accepts : LineMeta → Bool
  st : OwnSt
  owner : BitVec 14
  /-- FREE lines are accepted only inside the team's allocation -/
  inside : Bool := false
  release : Bool := false
  acquire : Bool := false
  /-- an engine will write the lines, which must hold no live barrier object (R262) -/
  written : Bool := false

/-- R203, R204: a line that stops the word, and why: a wait, or a trap. -/
inductive OwnSay where
  | ok
  | waits (p : Park)
  | bad (tinfo : Nat)
  deriving DecidableEq, Repr

def State.allocatedToMe (s : State) (ln : Nat) : Bool :=
  match s.team s.me.at_.team with
  | some t => t.allocated ln
  | none => false

def State.ownSay (s : State) (f : OwnForm) (ln : Nat) : OwnSay :=
  let me := s.me.at_
  let m := s.line ln
  let hs := s.loopHolders ln
  if s.retained ln then .waits .retention
  else if hs.contains me.id then .waits .loopLine
  else if m.st = .engine ∧ m.present ∧ m.holder = me.id ∧ (engineClass m.owner = 1 ∨ engineClass m.owner = 2) then .waits .line
  else if hs ≠ [] ∧ ¬ (m.st = f.st ∧ m.owner = f.owner) then .bad (ownInfo m 0 true)
  else if f.accepts m && (m.st ≠ .free || !f.inside || s.allocatedToMe ln) then
    (if f.written && s.barHit (512 * ln) 512 then .bad (barInfo m 0) else .ok)
  else .bad (ownInfo m 0 false)

/-- The first wait among the lines, else the first failing line, ascending. -/
def State.ownScan (s : State) (f : OwnForm) (ls : List Nat) : Res Unit :=
  match ls.findSome? fun l => match s.ownSay f l with
    | .waits p => some (s.lineWait p l)
    | _ => none with
  | some e => .error e
  | none => match ls.findSome? fun l => match s.ownSay f l with
    | .bad t => some (l, t)
    | _ => none with
    | some (l, t) => trap { code := cOWNERSHIP, detail := 3, tinfo := t, taddr := 512 * l }
    | none => .ok ()

/-- Flip every line of a list. -/
def State.flipAll (s : State) (st : OwnSt) (owner : BitVec 14) : List Nat → State
  | [] => s
  | l :: ls => (s.flip l st owner).flipAll st owner ls

/-- R288, R303: a passed line remembers who passed it. -/
def State.notePasser (s : State) (st : OwnSt) : List Nat → State
  | [] => s
  | l :: ls => (if st = .engine then s.setLine l { s.line l with holder := s.me.at_.id } else s).notePasser st ls

/-- R205: lines that a GIVE or SHARE opens to other scribes are fresh to them; a line that changes hands is so to nobody else. -/
def State.noteFresh (s : State) (f : OwnForm) (ls : List Nat) : State :=
  let me := s.me.at_.id
  let gets := fun (c : Scribe) => f.release && c.at_.id ≠ me
    && ((f.st = .own && c.at_.id = f.owner) || (f.st = .shared && c.at_.team = f.owner))
  s.mapScribes fun c => { c with run := { c.run with fresh := (c.run.fresh.filter fun l => !ls.contains l) ++ if gets c then ls else [] } }

/-- The reach and hole checks of a rectangle (R203), and its lines. A strict word reports its lowest hole, at the depth of the
rectangle's first line, before it looks at any line: the model's choice (log 109). -/
def State.ownLines (s : State) (e : Word) : Res (List Nat) :=
  if ¬ rectOk e then
    trap { code := cREACH, detail := 2, tinfo := 0, taddr := (rX e + rW e - 1) + (rY e + rH e - 1) * 2 ^ 16 + rLine e * 512 * 2 ^ 32 }
  else
    let holes := (rectPes e).filter s.hole
    if (s.me.at_.strict || rStrict e) ∧ holes ≠ [] then
      trap { code := cHOLE_ACCESS, detail := 2, tinfo := 0, taddr := planeAddr (holes.headD 0) (512 * rLine e) }
    else .ok (s.rectLines e (rectPes e))

/-- One ownership word: all or nothing (R204). GIVE, SHARE and PASS are releases, OWN and CLAIM acquires (R205). -/
def State.own (s : State) (e : Nat) (f : OwnForm) : Res State :=
  match s.rect e with
  | .error x => .error x
  | .ok v => match (if f.release then s.release 2 else if f.acquire then s.acquire 1 else .ok ()) with
    | .error x => .error x
    | .ok _ => match s.ownLines v with
      | .error x => .error x
      | .ok ls => match s.ownScan f ls with
        | .error x => .error x
        | .ok _ => .ok ((((s.flipAll f.st f.owner ls).notePasser f.st ls).noteFresh f ls).progress s.me.at_.asid)

def State.ownedByMe (s : State) (m : LineMeta) : Bool := m.st = .own && m.owner = s.me.at_.id
def State.sharedByMine (s : State) (m : LineMeta) : Bool := m.st = .shared && m.owner = s.me.at_.team

/-- R203: an operand that names no proper owner. It is reported before the checks of the rectangle: the spec gives no order between
them (the model's choice, log 108), and PRESENT in TINFO is 0 (log 139). -/
def State.refuseOperand (s : State) (e st id : Nat) : Res State :=
  if s.me.rectHeld e then parkOn .rectReg
  else trap { code := cOWNERSHIP, detail := 3, tinfo := st + id * 4, taddr := planeAddr (256 * rY (s.getE e) + rX (s.getE e)) (512 * rLine (s.getE e)) }

/-- A resident scribe of the issuer's team. -/
def State.mate (s : State) (id : BitVec 14) : Bool :=
  id = s.me.at_.id || (match s.scribe id with
    | some c => c.at_.team = s.me.at_.team && !c.at_.shadow && c.run.life ≠ .exited && c.run.life ≠ .free && c.run.life ≠ .killed
    | none => false)

def execOwn (e : BitVec 3) (s : State) : Host.Outcome State Fault Refusal :=
  finish s (s.own e.toNat { accepts := fun m => m.st = .free || s.ownedByMe m, st := .own, owner := s.me.at_.id, inside := true, acquire := true })
def execShare (e : BitVec 3) (s : State) : Host.Outcome State Fault Refusal :=
  finish s (s.own e.toNat { accepts := fun m => s.ownedByMe m || s.sharedByMine m, st := .shared, owner := s.me.at_.team, release := true })
def execClaim (e : BitVec 3) (s : State) : Host.Outcome State Fault Refusal :=
  finish s (s.own e.toNat { accepts := fun m => s.sharedByMine m || s.ownedByMe m, st := .own, owner := s.me.at_.id, acquire := true })
/-- With sa[14] = 1 the lines become FREE, and sa[13:0] need name no scribe (the model's reading, log 139). -/
def execGive (sreg : BitVec 5) (e : BitVec 3) (s : State) : Host.Outcome State Fault Refusal :=
  finish s (match s.sval sreg.toNat with
    | .error x => .error x
    | .ok v =>
      let id := v.setWidth 14
      if bits v.toNat 14 1 = 1 then s.own e.toNat { accepts := s.ownedByMe, st := .free, owner := 0, release := true }
      else if s.mate id then s.own e.toNat { accepts := s.ownedByMe, st := .own, owner := id, release := true }
      else s.refuseOperand e.toNat 1 id.toNat)

/-- R203: the quill identifiers that take passed lines. -/
def passable (id : Nat) : Bool := id = 0x100 || (0x200 ≤ id && id ≤ 0x23F)

def execPass (sreg : BitVec 5) (e : BitVec 3) (s : State) : Host.Outcome State Fault Refusal :=
  finish s (match s.sval sreg.toNat with
    | .error x => .error x
    | .ok v =>
      let id := v.setWidth 14
      if passable id.toNat then s.own e.toNat { accepts := s.ownedByMe, st := .engine, owner := id, release := true }
      else s.refuseOperand e.toNat 3 id.toNat)

/-- R206: what PROBE shows of a line. -/
def State.probe (s : State) (a : Nat) : Nat :=
  let ln := a / 512
  let m := s.line ln
  if s.hole (a / 131072) then 2 ^ 22
  else
    let alloc := s.allocatedToMe ln
    (if alloc || s.sharedByMine m then m.word else m.present.toNat * 2 ^ 16 + m.poison.toNat * 2 ^ 17) + alloc.toNat * 2 ^ 24

def execProbe (d a : BitVec 5) (s : State) : Host.Outcome State Fault Refusal :=
  finish s (match s.sval a.toNat with
    | .error x => .error x
    | .ok v => .ok (s.setS d.toNat (word (s.probe (v.toNat % 2 ^ 33)))))

end Sys2Proof.Machine
end

