-- ==== Sys2Proof/Machine/Scroll.lean ====
section
/-! DEFINITION. Scrolls and plane fills: majors 0x28 and 0x29, their unit steps, halts and completion
(R243 to R258). -/

namespace Sys2Proof.Machine

open Sys2Proof

/-! ## Displacements -/

/-- The unit step that follows when (dxd, dyd) of (dx, dy) is done (R245); none when all is. -/
def stepDir (dx dy dxd dyd : Int) : Option (Int × Int) :=
  if dxd ≠ dx then some (dx.sign, 0) else if dyd ≠ dy then some (0, dy.sign) else none

/-- R252: 2 when a rectangle moved to (x, y) leaves the plane, 3 when it leaves the partition, else 0. -/
def State.leaves (s : State) (asid : BitVec 14) (e : Word) (x y : Int) : Nat :=
  if x < 0 ∨ y < 0 ∨ 256 < x + rW e ∨ 256 < y + rH e then 2
  else if (boxPes x.toNat y.toNat (rW e) (rH e)).all fun p => s.inPartition asid (p % 256) (p / 256) then 0 else 3

/-- How a `.move` from (x, y) halts, if it does. -/
def State.haltOf (s : State) (asid : BitVec 14) (e : Word) (dx dy : Int) : Nat → Int → Int → Int → Int → Nat
  | 0, _, _, _, _ => 0
  | fuel + 1, x, y, dxd, dyd =>
    match stepDir dx dy dxd dyd with
    | none => 0
    | some (sx, sy) =>
      let h := s.leaves asid e (x + sx) (y + sy)
      if h ≠ 0 then h else s.haltOf asid e dx dy fuel (x + sx) (y + sy) (dxd + sx) (dyd + sy)

/-- R244: the touched set, ascending. -/
def State.touched (s : State) (asid : BitVec 14) (e : Word) (mode : Nat) (dx dy : Int) : List Nat :=
  if mode ≠ 3 then rectPes e
  else
    let x0 : Int := rX e
    let y0 : Int := rY e
    let clip := fun (i : Int) => (max 0 (min 256 i)).toNat
    let xl := clip (min x0 (x0 + dx))
    let xh := clip (max x0 (x0 + dx) + rW e)
    let yl := clip (min y0 (y0 + dy))
    let yh := clip (max y0 (y0 + dy) + rH e)
    let swept := fun (p : Nat) =>
      let x : Int := (p % 256 : Nat)
      let y : Int := (p / 256 : Nat)
      let inX := y0 ≤ y && y < y0 + rH e && min x0 (x0 + dx) ≤ x && x < max x0 (x0 + dx) + rW e
      let inY := x0 + dx ≤ x && x < x0 + dx + rW e && min y0 (y0 + dy) ≤ y && y < max y0 (y0 + dy) + rH e
      inX || inY
    (boxPes xl yl (xh - xl) (yh - yl)).filter fun p => swept p && s.inPartition asid (p % 256) (p / 256)

/-! ## The checks at issue (R244) -/

/-- Whether a unit step of a `.move` from (x, y), before it halts, puts its rectangle over a position. -/
def State.movesOver (s : State) (asid : BitVec 14) (e : Word) (dx dy : Int) (p : Nat) : Nat → Int → Int → Int → Int → Bool
  | 0, _, _, _, _ => false
  | fuel + 1, x, y, dxd, dyd =>
    match stepDir dx dy dxd dyd with
    | none => false
    | some (sx, sy) =>
      let x' := x + sx
      let y' := y + sy
      s.leaves asid e x' y' = 0 &&
        ((x' ≤ (p % 256 : Nat) && ((p % 256 : Nat) : Int) < x' + rW e && y' ≤ (p / 256 : Nat) && ((p / 256 : Nat) : Int) < y' + rH e)
          || s.movesOver asid e dx dy p fuel x' y' (dxd + sx) (dyd + sy))

/-- R245, R262: whether a scroll writes the lines of a position. -/
def State.scrollWrites (s : State) (asid : BitVec 14) (e : Word) (mode : Nat) (dx dy : Int) (p : Nat) : Bool :=
  !(dx = 0 && dy = 0) && (mode ≠ 3 || s.movesOver asid e dx dy p 510 (rX e) (rY e) 0 0)

/-- What a line says to a scroll or fill; `wr` tells the positions whose lines it writes. -/
def State.engineSay (s : State) (wr : Nat → Bool) (ln : Nat) : OwnSay :=
  let m := s.line ln
  let hs := s.loopHolders ln
  if s.retained ln then .waits .retention
  else if hs.contains s.me.at_.id then .waits .loopLine
  else if m.st = .engine ∧ m.present ∧ m.holder = s.me.at_.id ∧ (engineClass m.owner = 1 ∨ engineClass m.owner = 2) then .waits .line
  else
    let hit := s.barHit (512 * ln) 512 && wr (peOfLine ln)
    if hs ≠ [] then .bad (s.refusal hit (512 * ln) 512 ln (ownInfo m 0 true))
    else if s.ownedByMe m then (if hit then .bad (barInfo m 0) else .ok)
    else .bad (s.refusal hit (512 * ln) 512 ln (ownInfo m 0 false))

/-- The first wait among the lines, else the lowest failing line (R258). -/
def State.engineScan (s : State) (wr : Nat → Bool) (ls : List Nat) : Res Unit :=
  match ls.findSome? fun l => match s.engineSay wr l with
    | .waits p => some (s.lineWait p l)
    | _ => none with
  | some e => .error e
  | none => match ls.findSome? fun l => match s.engineSay wr l with
    | .bad t => some (l, t)
    | _ => none with
    | some (l, t) => trap { code := cOWNERSHIP, detail := 4, tinfo := t, taddr := 512 * l }
    | none => .ok ()

/-- A scroll or fill takes hold of a line. -/
def State.holdLine (s : State) (cls ln : Nat) : State :=
  let s := s.touchLine ln
  s.setLine ln { s.line ln with st := .engine, owner := engineId cls (engIndex s.me.at_.id), holder := s.me.at_.id, present := true, landShared := false, packet := false }

def State.holdAll (s : State) (cls : Nat) : List Nat → State
  | [] => s
  | l :: ls => (s.holdLine cls l).holdAll cls ls

/-- The checks on the touched set; answers the lines. -/
def State.engineCheck (s : State) (e : Word) (pes : List Nat) (wr : Nat → Bool) (detail : Nat) : Res (List Nat) :=
  let holes := pes.filter s.hole
  if (s.me.at_.strict || rStrict e) ∧ holes ≠ [] then
    trap { code := cHOLE_ACCESS, detail := detail, tinfo := holes.length % 1024, taddr := planeAddr (holes.headD 0) (512 * rLine e) }
  else
    let ls := s.rectLines e pes
    match s.engineScan wr ls with
    | .error x => .error x
    | .ok _ => .ok ls

/-- A word that starts a scroll or fill needs a place in the queue, and no halting scroll under way. -/
def State.jobRoom (s : State) : Res Unit :=
  if s.me.run.jobs.any fun j => j.halt ≠ 0 then parkOn .halting
  else if 4 ≤ s.me.run.jobs.length then parkOn .planeQueue
  else .ok ()

/-- Start a scroll: `dx0`, `dy0` is what a resumed scroll had completed; `pre` is applied once the checks
pass. A `.move` that will halt parks its scribe until the halt (R252). -/
def State.scroll (s : State) (e mode : Nat) (dx dy dx0 dy0 : Int) (pre : Ctl → Ctl) : Res State :=
  match s.jobRoom with
  | .error x => .error x
  | .ok _ => match s.rect e with
    | .error x => .error x
    | .ok r =>
      let asid := s.me.at_.asid
      match s.engineCheck r (s.touched asid r mode dx dy) (s.scrollWrites asid r mode dx dy) 3 with
      | .error x => .error x
      | .ok ls =>
        let s1 := s.onCtl pre
        let halt := if mode = 3 then s.haltOf asid r dx dy 510 (rX r) (rY r) 0 0 else 0
        if dx = 0 ∧ dy = 0 then .ok s1
        else
          let job : PlaneJob :=
            { fill := false, reg := e, mode := mode, rect := r, dx := dx, dy := dy, dxd := 0, dyd := 0, dx0 := dx0, dy0 := dy0,
              fillv := s.me.ctl.fillv, pattern := 0, halt := halt, lines := ls, metHole := false }
          let s2 := (s1.holdAll 1 ls).onRun fun k => { k with jobs := k.jobs ++ [job] }
          if halt = 0 then .ok s2 else .error (.parkIn s2 .halting)

def execScroll (e : BitVec 3) (x y : BitVec 9) (m : BitVec 3) (s : State) : Host.Outcome State Fault Refusal :=
  finish s (s.scroll e.toNat m.toNat x.toInt y.toInt 0 0 id)

/-- Displacements from registers must lie in −255 .. 255. -/
def execScrollReg (e : BitVec 3) (a b : BitVec 5) (m : BitVec 3) (s : State) : Host.Outcome State Fault Refusal :=
  finish s (match s.sval a.toNat with
    | .error x => .error x
    | .ok av => match s.sval b.toNat with
      | .error x => .error x
      | .ok bv =>
        if av.toInt < -255 ∨ 255 < av.toInt ∨ bv.toInt < -255 ∨ 255 < bv.toInt then trap (illegal9 (encodeNat (.scrollReg e a b m)))
        else s.scroll e.toNat m.toNat av.toInt bv.toInt 0 0 id)

/-- R256: continue the scroll that SCS describes. -/
def execScrollResume (s : State) : Host.Outcome State Fault Refusal :=
  let v := s.me.ctl.scs.toNat
  finish s (if s.me.run.jobs.any (fun j => j.halt ≠ 0) then parkOn .halting
    else if bits v 63 1 = 0 then trap (illegal9 (encodeNat .scrollResume))
    else s.scroll (bits v 39 3) (bits v 36 3) (s9 v 0 - s9 v 18) (s9 v 9 - s9 v 27) (s9 v 18) (s9 v 27)
      fun c => { c with scs := word (v % 2 ^ 63) })

/-- R257: start a plane fill. -/
def State.pfill (s : State) (e : Nat) (pattern : Word) : Res State :=
  match s.jobRoom with
  | .error x => .error x
  | .ok _ => match s.rect e with
    | .error x => .error x
    | .ok r =>
      match s.engineCheck r (rectPes r) (fun _ => true) 4 with
      | .error x => .error x
      | .ok ls =>
        let job : PlaneJob :=
          { fill := true, reg := e, mode := 0, rect := r, dx := 0, dy := 0, dxd := 0, dyd := 0, dx0 := 0, dy0 := 0,
            fillv := 0, pattern := pattern, halt := 0, lines := ls, metHole := (rectPes r).any s.hole }
        .ok ((s.holdAll 2 ls).onRun fun k => { k with jobs := k.jobs ++ [job] })

def execPfill (e : BitVec 3) (s : State) : Host.Outcome State Fault Refusal :=
  finish s (s.pfill e.toNat (word (s.me.ctl.fillv.toNat * (1 + 2 ^ 32))))
def execPfillZero (e : BitVec 3) (s : State) : Host.Outcome State Fault Refusal := finish s (s.pfill e.toNat 0)
def execPfillScalar (e : BitVec 3) (sreg : BitVec 5) (s : State) : Host.Outcome State Fault Refusal :=
  finish s (match s.sval sreg.toNat with
    | .error x => .error x
    | .ok v => s.pfill e.toNat v)

/-! ## Unit steps (R245) -/

/-- Bits that repeat a w-bit pattern over a line. -/
def repeatBits (w v : Nat) : Nat := (List.range (512 / w)).foldl (fun acc i => acc + v * 2 ^ (w * i)) 0

/-- A line as it moves: bits, tags, poison. -/
structure Moved where
  v : Nat
  tags : BitVec 4 := 0
  poison : Bool := false

/-- src_line: the fill line at a hole, and for a `.move` outside the partition, where the engine does not act (R240; log 125). -/
def State.srcLine (s : State) (j : PlaneJob) (p n : Nat) : Moved :=
  if s.hole p || (j.mode = 3 && !s.inPartition s.me.at_.asid (p % 256) (p / 256)) then { v := repeatBits 32 j.fillv.toNat }
  else
    let ln := lineNo p (rLine j.rect + n)
    { v := (s.lineBits ln).toNat, tags := (s.line ln).tags, poison := (s.line ln).poison }

/-- What a unit step (sx, sy) writes into line n of position (x, y). -/
def State.stepLine (s : State) (j : PlaneJob) (sx sy : Int) (q n : Nat) : Moved :=
  let r := j.rect
  let x : Int := (q % 256 : Nat) - sx
  let y : Int := (q / 256 : Nat) - sy
  let inside := (rX r : Int) ≤ x && x < rX r + rW r && (rY r : Int) ≤ y && y < rY r + rH r
  if inside then s.srcLine j (256 * y.toNat + x.toNat) n
  else if j.mode = 0 then
    let wx := rX r + ((x - rX r) % (rW r : Int)).toNat
    let wy := rY r + ((y - rY r) % (rH r : Int)).toNat
    s.srcLine j (256 * wy + wx) n
  else { v := if j.mode = 1 then repeatBits 32 j.fillv.toNat else 0 }

/-- Write a moved line. -/
def State.putMoved (s : State) (ln : Nat) (m : Moved) : State :=
  let s := s.touchLine ln
  let s := { s with plane := writeBits s.plane (512 * ln) 512 m.v }
  s.setLine ln { s.line ln with tags := m.tags, poison := m.poison }

/-- Write the lines of a step, all computed in the state before it. -/
def State.putAll (s : State) : List (Nat × Moved) → State
  | [] => s
  | (ln, m) :: ws => (s.putMoved ln m).putAll ws

/-- The lines one unit step writes. -/
def State.stepWrites (s : State) (j : PlaneJob) (sx sy : Int) (dst : List Nat) : List (Nat × Moved) :=
  (dst.filter fun q => !s.hole q).flatMap fun q => (List.range (rN j.rect)).map fun n => (lineNo q (rLine j.rect + n), s.stepLine j sx sy q n)

/-- Change the job at the head of a scribe's queue, or drop it. -/
def State.setJob (s : State) (c : Scribe) (j : Option PlaneJob) : State :=
  s.setScribe { c with run := { c.run with jobs := match j with
    | some j => j :: c.run.jobs.tail
    | none => c.run.jobs.tail } }

/-- R249: the held lines flip back. -/
def State.endJob (s : State) (id : BitVec 14) (j : PlaneJob) : State :=
  let s1 := s.flipAll .own id j.lines
  match s1.scribe id with
  | some c => (s1.setJob c none).progress c.at_.asid
  | none => s1

/-- The SCS value of a stopped scroll. -/
def PlaneJob.scs (j : PlaneJob) (cause : Nat) : Word :=
  word (2 ^ 63 + cause * 2 ^ 42 + j.reg % 8 * 2 ^ 39 + j.mode % 8 * 2 ^ 36 + modw 9 (j.dy0 + j.dyd) * 2 ^ 27 + modw 9 (j.dx0 + j.dxd) * 2 ^ 18
    + modw 9 (j.dy0 + j.dy) * 2 ^ 9 + modw 9 (j.dx0 + j.dx))

/-- R252: a `.move` halts. -/
def State.haltJob (s : State) (id : BitVec 14) (j : PlaneJob) (cause : Nat) : State :=
  let v := j.scs cause
  (s.endJob id j).asScribe id fun t =>
    (t.onCtl fun c => { c with scs := v }).takeTrap
      { code := cSCROLL_FAULT, detail := cause - 1, tinfo := v.toNat, taddr := planeAddr (256 * rY j.rect + rX j.rect) (512 * rLine j.rect) }

/-- One unit step of a job, and what follows the last one. -/
def State.runStep (s : State) (c : Scribe) (j : PlaneJob) : State :=
  match stepDir j.dx j.dy j.dxd j.dyd with
  | none => s.endJob c.at_.id j
  | some (sx, sy) =>
    let x : Int := (rX j.rect : Int) + sx
    let y : Int := (rY j.rect : Int) + sy
    let h := if j.mode = 3 then s.leaves c.at_.asid j.rect x y else 0
    if h ≠ 0 then s.haltJob c.at_.id j h
    else
      let r' := if j.mode = 3 then rectAt j.rect x.toNat y.toNat else j.rect
      let met := (rectPes j.rect).any s.hole || (rectPes r').any s.hole
      let s1 := s.putAll (s.stepWrites j sx sy (rectPes r'))
      let j' := { j with rect := r', dxd := j.dxd + sx, dyd := j.dyd + sy, metHole := j.metHole || met }
      match s1.scribe c.at_.id with
      | none => s1
      | some c1 =>
        let c2 := if met then { c1 with ctl := { c1.ctl with holef := c1.ctl.holef ||| 16 } } else c1
        let c3 := if j.mode = 3 then { c2 with r := { c2.r with e := put 0 c2.r.e j.reg r' } } else c2
        let s2 := s1.setJob c3 (some j')
        if stepDir j'.dx j'.dy j'.dxd j'.dyd = none then s2.endJob c.at_.id j' else s2

/-- The job at the head of a resident scribe's queue. -/
def State.headJob (s : State) (sid : Nat) : Option (Scribe × PlaneJob) :=
  match s.scribe (BitVec.ofNat 14 sid) with
  | some c => c.run.jobs.head?.map fun j => (c, j)
  | none => none

def execUnitStep (sid : Nat) (s : State) : Host.Outcome State Fault Refusal :=
  match s.headJob sid with
  | some (c, j) => if j.fill then .refused .notEnabled else .next (s.asScribe c.at_.id fun t => t.runStep c j)
  | none => .refused .notEnabled

/-- R257: write the lines of a fill. -/
def State.writeFill (s : State) (j : PlaneJob) : List Nat → State
  | [] => s
  | l :: ls => (s.putMoved l { v := repeatBits 64 j.pattern.toNat }).writeFill j ls

def execPlaneFillWrite (sid : Nat) (s : State) : Host.Outcome State Fault Refusal :=
  match s.headJob sid with
  | some (c, j) =>
    if j.fill then
      let s1 := s.writeFill j j.lines
      let s2 := match s1.scribe c.at_.id with
        | some c1 => if j.metHole then s1.setScribe { c1 with ctl := { c1.ctl with holef := c1.ctl.holef ||| 16 } } else s1
        | none => s1
      .next (s2.endJob c.at_.id j)
    else .refused .notEnabled
  | none => .refused .notEnabled

end Sys2Proof.Machine
end

