-- ==== Sys2Proof/Machine/Barrier.lean ====
section
/-! DEFINITION. Barriers and watched atoms: the barrier unit (R260 to R269), checkpoints at CK phases (R346,
R347), and majors 0x2D and 0x2E (R263 to R273). -/

namespace Sys2Proof.Machine

open Sys2Proof

/-! ## The object in its cell (Table 14-1) -/

/-- A field of the object at a plane bit address. -/
def State.objField (s : State) (a lo w : Nat) : Nat := readBits s.plane (a + lo) w

def State.objE (s : State) (a : Nat) : Nat := s.objField a 0 12
def State.objA (s : State) (a : Nat) : Nat := s.objField a 12 12
def State.objP (s : State) (a : Nat) : Nat := s.objField a 24 1
def State.objCk (s : State) (a : Nat) : Bool := s.objField a 25 1 = 1
def State.objPend (s : State) (a : Nat) : Nat := s.objField a 32 40
def State.objCompl (s : State) (a : Nat) : Nat := s.objField a 132 32

/-- The barrier unit writes a field, in one step at the port. -/
def State.setObj (s : State) (a lo w v : Nat) : State := s.planeStore (a + lo) w v

/-! ## Checkpoints (R346, R347) -/

/-- A completion with CK: every scribe of the team leaves its image, and a new interval begins. -/
def State.checkpoint (s : State) (team : BitVec 14) : State :=
  match s.team team with
  | none => s
  | some t =>
    s.setTeam { t with
      interval := if t.places.all fun p => p.shadow || p.imageLines ≤ p.undo then .rollbackable else .notRollbackable,
      rollbacks := 0, undo := [], noUndo := [],
      image := s.allScribes.filter fun c => c.at_.team = team,
      imageBars := s.bars.filter fun b => b.2.team = team }

/-! ## Completion (R265) -/

/-- The arrival with the earliest time, the lower identifier on a tie. -/
def longestWait : List (BitVec 14 × Nat) → BitVec 14 × Nat
  | [] => (0, 0)
  | [x] => x
  | x :: xs =>
    let y := longestWait xs
    if x.2 < y.2 ∨ (x.2 = y.2 ∧ x.1.toNat ≤ y.1.toNat) then x else y

/-- Reference cycles of 0.8 ns, saturating. -/
def refCycles (ns : Nat) : Nat := min (ns * 5 / 4) (2 ^ 32 - 1)

/-- A waiting BWAIT on the object may return, unless BARRIER_BROKEN is owed to it already (R264, R268). -/
def Scribe.wakeAt (a : Nat) (c : Scribe) : Scribe :=
  if c.run.waitOn = some a ∧ c.run.brokenBy.isNone then { c with run := { c.run with woken := true, waitOn := none } } else c

/-- A scribe whose word is answered by the unit: its token is written and it moves on. -/
def State.answer (s : State) (id : BitVec 14) (dest : Nat) (tok : Bool) : State :=
  s.asScribe id fun t => (t.setS dest (flag64 tok)).advance

/-- The scribes that wait for a CK phase of the object get their tokens. -/
def State.answerAll (s : State) : List (BitVec 14 × Nat × Bool) → State
  | [] => s
  | (id, d, t) :: rest => (s.answer id d t).answerAll rest

def State.ckWaiters (s : State) (a : Nat) : List (BitVec 14 × Nat × Bool) :=
  s.allScribes.filterMap fun c => match c.run.ckWait with
    | some (o, d, t) => if o = a ∧ c.run.brokenBy.isNone then some (c.at_.id, d, t) else none
    | none => none

/-- BARRIER_BROKEN is owed to every scribe that waits on the object, one in a counted arrival on a CK phase included, which R268 does not list
(the model's choice, log 150). -/
def State.breakWaiters (s : State) (a : Nat) (by_ : BitVec 14) : State :=
  s.mapScribes fun c =>
    if c.run.waitOn = some a ∨ (c.run.heldArr.any fun h => h.1 = a) ∨ (c.run.ckWait.any fun h => h.1 = a) then
      { c with run := { c.run with brokenBy := some by_ } } else c

/-- R268: the object becomes broken by the exit of a participant. -/
def State.breakObj (s : State) (a : Nat) (by_ : BitVec 14) : State :=
  match find s.bars a with
  | none => s
  | some b =>
    let s1 := { s with bars := set s.bars a { b with broken := some by_, breakAtCompletion := none, held := [] } }
    let s2 := s1.breakWaiters a by_
    let die := dieOf by_
    let s3 := s2.log (scribeLog die) 0 14 0 by_.toNat 0 0 (a / 256)
    match s3.team b.team with
    | some t => s3.trace t.asid (clusterOf by_) 0x0C by_.toNat (s3.corrOf t.launch) (a % 2 ^ 33)
    | none => s3

/-- R265: a held arrival on an object that has ended is no longer held; its word meets the checks of R263 again (log 33). -/
def Scribe.freeHeld (a : Nat) (c : Scribe) : Scribe :=
  if (c.run.heldArr.any fun h => h.1 = a) ∧ c.run.brokenBy.isNone then { c with run := { c.run with heldArr := none } } else c

/-- One completion. -/
def State.complete (s : State) (a : Nat) (b : BarrierRec) : State :=
  let last := (b.arrivals.getLast?.map (·.1)).getD 0
  let (wid, wt) := longestWait b.arrivals
  let e := s.objE a - b.dropping.length
  let compl := (s.objCompl a + 1) % 2 ^ 32
  let ck := s.objCk a
  let s1 := s.planeStore a 256 (e + (1 - s.objP a) * 2 ^ 24 + (if ck then 2 ^ 25 else 0) + last.toNat * 2 ^ 72 + wid.toNat * 2 ^ 86
    + refCycles (s.time - wt) * 2 ^ 100 + compl * 2 ^ 132 + s.time % 2 ^ 32 * 2 ^ 164)
  let b' := { b with participants := b.participants.filter fun i => !b.dropping.contains i, dropping := [], arrivals := [] }
  let s2 := { s1 with bars := if e = 0 then del s1.bars a else set s1.bars a b' }
  let s3 := match s2.team b.team with
    | some t => (s2.trace t.asid (clusterAt (a / 131072 % 256) (a / 131072 / 256)) 0x07 last.toNat (s2.corrOf t.launch)
        (compl % 2 ^ 16 * 2 ^ 48 + a % 2 ^ 33)).progress t.asid
    | none => s2
  let s4 := s3.mapScribes fun c => if e = 0 then Scribe.freeHeld a (Scribe.wakeAt a c) else Scribe.wakeAt a c
  let s5 := s4.answerAll (s4.ckWaiters a)
  let s6 := if ck then s5.checkpoint b.team else s5
  match b'.breakAtCompletion with
  | some by_ => s6.breakObj a by_
  | none => s6

/-- Count an arrival of a scribe. On a CK phase it waits for the completion; else it gets its token. -/
def State.count (s : State) (a : Nat) (b : BarrierRec) (id : BitVec 14) (dest : Nat) (drop : Bool) : State :=
  let tok := decide (s.objP a = 1)
  let s1 := s.setObj a 12 12 (s.objA a + 1)
  let b' := { b with
    participants := if b.participants.contains id then b.participants else b.participants ++ [id],
    dropping := if drop then b.dropping ++ [id] else b.dropping,
    arrivals := b.arrivals ++ [(id, s.time)], held := b.held.filter (· ≠ id) }
  let s2 := { s1 with bars := set s1.bars a b' }
  if s2.objCk a then s2.asScribe id fun t => t.onRun fun r => { r with heldArr := none, ckWait := some (a, dest, tok) }
  else s2.answer id dest tok

/-- R346: what an arrival on a CK phase waits for first. -/
def State.quiet (s : State) : Res Unit :=
  let id := s.me.at_.id
  if s.loops.any (·.2.sid = id) then parkOn .batches
  else if s.me.run.jobs ≠ [] then parkOn .planeQueue
  else if ¬ (s.me.wet.tags.all fun t => t.2.fault.isSome) then parkOn .wetOperand
  else if s.copies.any (fun q => q.2.sid = id && q.2.queue.isNone && q.2.coll.isNone) || s.lcopies.any (·.2.sid = id) then parkOn .qdrain
  else .ok ()

/-- What an arrival for which there is room waits for: on a CK phase its scribe's engines (R346), then the release of R269. -/
def State.arrivalWaits (s : State) (a : Nat) : Res Unit :=
  match (if s.objCk a then s.quiet else .ok ()) with
  | .error e => .error e
  | .ok _ => s.release 2

/-- The held arrival of a scribe may be counted: its destination code, and whether it drops. -/
def State.heldReady (s : State) (id : BitVec 14) (a : Nat) : Option (Nat × Bool) :=
  let t := if s.me.at_.id = id ∧ s.me.run.life ≠ .free then s else s.switchTo id.toNat
  match t.me.run.heldArr, t.arrivalWaits a with
  | some (_, d, drop), .ok _ => some (d, drop)
  | _, _ => none

/-- R225, R262, R353: the unit does not write an object now: a loop reads its line, or its island is in retention. Nor does it count on the
bits of a poisoned line as if they were good (R344; the model's choice, log 106). -/
def State.objBusy (s : State) (a : Nat) : Bool := s.loopHolders (a / 512) ≠ [] || s.retained (a / 512) || (s.line (a / 512)).poison

/-- R265, R267: complete the phase while A = E and PEND = 0, and count held arrivals as there is room. -/
def State.settle : Nat → State → Nat → State
  | 0, s, _ => s
  | fuel + 1, s, a =>
    match find s.bars a with
    | none => s
    | some b =>
      if s.objA a = s.objE a ∧ s.objPend a = 0 then (s.complete a b).settle fuel a
      else if b.broken.isSome then s
      else match b.held with
        | [] => s
        | id :: _ =>
          if s.objA a < s.objE a then
            match s.heldReady id a with
            | some (d, dr) => (s.count a b id d dr).settle fuel a
            | none => s
          else s

/-- Completions and held arrivals that one update can set off. -/
def settleFuel : Nat := 128

/-- R267: one landing subtracts its bits. -/
def State.subtract (s : State) (a n : Nat) : State := (s.setObj a 32 40 (modw 40 ((s.objPend a : Int) - n))).settle settleFuel a

/-- R267, R288: a counted landing subtracts its bits, or they are owed while the unit may not write the object, whose island wakes for it
(R353); answers whether an object was live there. -/
def State.landing (s : State) (bar bits' : Nat) : State × Bool :=
  match find s.bars bar with
  | none => (s, false)
  | some b =>
    if s.objBusy bar ∨ b.owed ≠ [] then
      ({ (if s.retained (bar / 512) then s.want (bar / 512) else s) with bars := set s.bars bar { b with owed := b.owed ++ [bits'] } }, true)
    else (s.subtract bar bits', true)

/-- The landings that an object is owed, once the unit may write it again. -/
def State.payOwed (s : State) (a : Nat) : State :=
  match find s.bars a with
  | none => s
  | some b =>
    if b.owed = [] ∨ s.objBusy a then s
    else b.owed.foldl (fun s n => if (find s.bars a).isSome then s.subtract a n else s) { s with bars := set s.bars a { b with owed := [] } }

def State.payAll (s : State) : State :=
  if s.bars.all fun b => b.2.owed = [] then s else (s.bars.map (·.1)).foldl State.payOwed s

/-! ## The checks of major 0x2D (R263) -/

/-- Checks 1 to 3, the waits of R224 and R353, and POISON for a word that reads an object on a poisoned line (R344, the model's reading,
log 106). BINIT accepts OWN(self) alone, and reads nothing. -/
def State.barCheck (s : State) (a : Nat) (shared : Bool) : Res Unit :=
  let ln := a / 512
  let m := s.line ln
  if a % 256 ≠ 0 then trap { code := cALIGN, tinfo := 255 * 16, taddr := a }
  else if s.hole (a / 131072) then trap (holeTrap 5 a)
  else if s.retained ln then .error (s.lineWait .retention ln)
  else if s.loopHolders ln ≠ [] then parkOn .loopLine
  else if m.st = .engine ∧ m.present ∧ m.holder = s.me.at_.id ∧ (engineClass m.owner = 1 ∨ engineClass m.owner = 2) then parkOn .line
  else if s.ownedByMe m || (shared && s.sharedByMine m) then
    if shared ∧ m.poison then trap (poisonLine ln) else .ok ()
  else trap { code := cOWNERSHIP, detail := 2, tinfo := ownInfo m 0 false, taddr := 512 * ln }

def brokenTrap (a : Nat) (by_ : BitVec 14) : Trap := { code := cBARRIER_BROKEN, tinfo := by_.toNat, taddr := a }

/-- The word on the object raises what it owes its scribe. -/
def State.brokenStop {α : Type} (s : State) (a : Nat) (by_ : BitVec 14) : Res α :=
  .error (.trapIn (s.onRun fun r => { r with brokenAt := none }) (brokenTrap a by_))

/-- Checks 4 and 5: the record of a live object that is not broken. -/
def State.barLive (s : State) (a w : Nat) : Res BarrierRec :=
  match find s.bars a with
  | none => trap (illegal9 w)
  | some b => match b.broken with
    | some by_ => trap (brokenTrap a by_)
    | none => .ok b

/-- The address operand of a barrier word. -/
def State.barAddr (s : State) (code : Nat) : Res Nat :=
  match s.sval code with
  | .error e => .error e
  | .ok v => .ok (v.toNat % 2 ^ 33)

/-- A word of format Y: [25:21], [20:16], and the rest. -/
def wordY (mj a b low : Nat) : Nat := mj * 2 ^ 26 + a * 2 ^ 21 + b * 2 ^ 16 + low

/-! ## The words of major 0x2D -/

/-- The core that holds an object. -/
def barCore (a : Nat) : Nat := pkgCoreAt (a / 131072 % 256) (a / 131072 / 256)

/-- The records in the barrier units, those of teams that are coming back among them. -/
def State.barRecords (s : State) : Tbl BarrierRec := s.bars ++ s.teams.flatMap fun t => if t.2.moving = 2 then t.2.savedBars else []

/-- Records in use in the unit of the core that holds an object. -/
def State.barsOfCore (s : State) (a : Nat) : Nat := (s.barRecords.filter fun b => barCore b.1 = barCore a).length

/-- R264. E = 0 is ILLEGAL once check 3 of R263 has passed, which gives it no place of its own (the model's choice, log 150). -/
def execBinit (a b : BitVec 5) (f : BitVec 1) (s : State) : Host.Outcome State Fault Refusal :=
  finish s (match s.barAddr a.toNat with
    | .error e => .error e
    | .ok ad => match s.sval b.toNat with
      | .error e => .error e
      | .ok v => match s.barCheck ad false with
        | .error e => .error e
        | .ok _ =>
          let e := v.toNat % 4096
          if e = 0 then trap (illegal9 (wordY 0x2D a.toNat b.toNat (f.toNat * 8)))
          else if (find s.bars ad).isNone ∧ 64 ≤ s.barsOfCore ad then parkOn .barrierRecord
          else
            let s1 := (s.planeStore ad 256 (e + f.toNat * 2 ^ 25)).breakWaiters ad s.me.at_.id
            .ok { s1 with bars := set s1.bars ad { team := s.me.at_.team } })

/-- R263: the address operand of a word whose destination `b` must not be wet either. -/
def State.barDest (s : State) (a b : Nat) : Res Nat :=
  match s.barAddr a with
  | .error e => .error e
  | .ok ad => match s.me.wetS b with
    | some r => (match s.me.needDry r with
      | .error e => .error e
      | .ok _ => .ok ad)
    | none => .ok ad

/-- R265. -/
def execBarrive (a b : BitVec 5) (g : BitVec 4) (f : BitVec 1) (s : State) : Host.Outcome State Fault Refusal :=
  finishAt s (match s.barDest a.toNat b.toNat with
    | .error e => .error e
    | .ok ad =>
      match s.me.brokenFor ad with
      | some by_ => s.brokenStop ad by_
      | none =>
        if s.me.run.ckWait.isSome then parkOn .checkpoint
        else if s.me.run.heldArr.any fun h => h.1 = ad then
          let s1 := if s.objBusy ad then s else s.settle settleFuel ad
          if s1.me.run.ckWait.isSome then .error (.parkIn s1 .checkpoint)
          else if s1.me.run.heldArr.isSome then .error (.parkIn s1 .heldArrival)
          else .ok s1
        else if g ≠ 0 then trap { code := cBARRIER_MASK, tinfo := g.toNat, taddr := ad }
        else match s.barCheck ad true with
          | .error e => .error e
          | .ok _ => match s.barLive ad (wordY 0x2D a.toNat b.toNat (f.toNat * 8 + 1)) with
            | .error e => .error e
            | .ok rec =>
              let id := s.me.at_.id
              if s.objA ad < s.objE ad then
                match s.arrivalWaits ad with
                | .error e => .error e
                | .ok _ =>
                  let s1 := (s.count ad rec id b.toNat (f = 1)).settle settleFuel ad
                  if s1.me.run.ckWait.isSome then .error (.parkIn s1 .checkpoint) else .ok s1
              else
                .error (.parkIn ({ s with bars := set s.bars ad { rec with held := rec.held ++ [id] } }.onRun fun r =>
                  { r with heldArr := some (ad, b.toNat, f = 1) }) .heldArrival))

/-- R266, R269: a BWAIT that returns is an acquire. -/
def execBwait (a b : BitVec 5) (s : State) : Host.Outcome State Fault Refusal :=
  finish s (match s.barAddr a.toNat with
    | .error e => .error e
    | .ok ad => match s.sval b.toNat with
      | .error e => .error e
      | .ok v =>
        let back : Res State := match s.acquire 1 with
          | .error e => .error e
          | .ok _ => .ok s
        if s.me.run.woken then back
        else match s.me.brokenFor ad with
          | some by_ => s.brokenStop ad by_
          | none => if s.me.run.waitOn.isSome then parkOn .barrierPhase else match s.barCheck ad true with
            | .error e => .error e
            | .ok _ =>
              if s.objP ad ≠ v.toNat % 2 then back
              else match s.barLive ad (wordY 0x2D a.toNat b.toNat 2) with
                | .error e => .error e
                | .ok _ => .error (.parkIn (s.onRun fun r => { r with waitOn := some ad }) .barrierPhase))

/-- R266: the result of BTEST. -/
def State.btest (s : State) (a : Nat) : Nat :=
  s.objCompl a + s.objP a * 2 ^ 32 + (match find s.bars a with
    | some b => b.broken.isSome.toNat
    | none => 0) * 2 ^ 33 + s.objA a * 2 ^ 34 + s.objE a * 2 ^ 46

/-- R266. It never waits, so the acquire that R269 names in it lets earlier wet accesses resolve later (the model's choice, log 150). -/
def execBtest (a b : BitVec 5) (s : State) : Host.Outcome State Fault Refusal :=
  finish s (match s.barDest a.toNat b.toNat with
    | .error e => .error e
    | .ok ad => match s.barCheck ad true with
      | .error e => .error e
      | .ok _ => .ok (s.setS b.toNat (word (s.btest ad))))

/-- R267. A count out of range is ILLEGAL after check 3 of R263 and before checks 4 and 5 (the model's choice, log 150). -/
def execBexpect (a b : BitVec 5) (s : State) : Host.Outcome State Fault Refusal :=
  finish s (match s.barAddr a.toNat with
    | .error e => .error e
    | .ok ad => match s.sval b.toNat with
      | .error e => .error e
      | .ok v =>
        let w := wordY 0x2D a.toNat b.toNat 4
        match s.barCheck ad true with
        | .error e => .error e
        | .ok _ =>
          if v.toInt < -2 ^ 39 ∨ 2 ^ 39 ≤ v.toInt then trap (illegal9 w)
          else match s.barLive ad w with
            | .error e => .error e
            | .ok _ => .ok ((s.setObj ad 32 40 (modw 40 (s.objPend ad + v.toInt))).settle settleFuel ad))

/-! ## Watched atoms (R270 to R272) -/

/-- The home of an atom of a context in global memory, as a byte address. -/
def State.atomHome (s : State) (asid : BitVec 14) (space a : Nat) : Option Nat :=
  match (if space = 1 then none else s.served asid space a 32) with
  | some (id, v) => (match s.translate s.meWho.core id .load v 32 with
    | .ok ps => ps.head?.map fun p => p.phys / 8
    | .error _ => none)
  | none => none

/-- The 32 bits of a watched atom, at its home. -/
def State.atom (s : State) (w : Watch) : Nat :=
  match w.home with
  | some p => readBits s.dram (8 * p) 32
  | none => if w.space = 1 then readBits s.plane w.addr 32 else readBits s.peer w.addr 32

/-- After a step: a watch whose atom has changed is noted. -/
def Scribe.noteWatch (before after : State) (c : Scribe) : Scribe :=
  match c.run.watch with
  | some w =>
    if w.changed = false ∧ before.atom w ≠ after.atom w then
      { c with run := { c.run with watch := some { w with changed := true } } }
    else c
  | none => c

def State.noteWatches (after before : State) : State :=
  if after.allScribes.any (·.run.watch.isSome) then after.mapScribes (Scribe.noteWatch before after) else after

/-- The checks of a watched atom: its address, its capability and the checks of R61 with R270. -/
def semCheck (c : Cap) (cr a p : Nat) (k : AKind) (spaces : List Nat) : Res Unit :=
  match checkScalar c cr a 32 p k false with
  | .error (.trap t) =>
    if t.code ≠ cCAP_TAG ∧ t.code ≠ cCAP_PERM ∧ ¬ spaces.contains c.space then trap { t with code := cCAP_PERM } else trap t
  | .error e => .error e
  | .ok _ =>
    if ¬ spaces.contains c.space then trap { code := cCAP_PERM, tinfo := accessInfo cr 32 k 0, taddr := a }
    else if a % 32 ≠ 0 then trap { code := cALIGN, tinfo := accessInfo cr 32 k 0, taddr := a }
    else .ok ()

/-- R348: a word on a semaphore ends rollback as it issues; one that is performed later ends an interval that has begun since. -/
def State.semEnds (s t : State) : State :=
  if s.me.run.watch.isSome then t.endRollbackLate s.me.at_.team 2 else t.endRollback s.me.at_.team 2

/-- The outcome of one read-modify-write of a semaphore: `f` answers its new value, or none to wait. Either way it ends rollback. -/
def State.semStep (s : State) (cr sp a : Nat) (f : Nat → Option Nat) (wait : State → Res State) : Res State :=
  match s.afterOwn sp a 32 with
  | .error e => .error e
  | .ok s => match s.getFar s.meWho sp a 32 .atomic with
  | .error m => s.translationStop cr .atomic m
  | .ok g =>
    match g.waits, g.bad with
      | some ly, _ => s.tripStop ly
      | none, some (_, b) => .error (.trapIn g.st (poisonMem b))
      | none, none => match f g.n with
        | none => wait (s.semEnds g.st)
        | some m => match g.st.putFar s.meWho sp a 32 m .atomic false with
          | .error e => s.translationStop cr .atomic e
          | .ok p => .ok (s.semEnds p.st)

def takeN (n m : Nat) : Option Nat := if n ≤ m then some (m - n) else none

/-- The operands of SEMWAIT and SEMPOST: capability, its register, bit address. -/
def State.semAddr (s : State) (c b : Nat) : Res (Cap × Nat) :=
  match s.cval c with
  | .error e => .error e
  | .ok k =>
    if b = 0 then .ok (k, k.cursor)
    else match s.sval b with
      | .error e => .error e
      | .ok v => .ok (k, modw 64 ((k.cursor : Int) + signed 64 v.toNat))

/-- R270: N is 1 to 1,023 in SEMWAIT and SEMPOST. -/
def semN (form : Nat) (c : BitVec 4) (b : BitVec 5) (n : BitVec 10) (sc : BitVec 3) (r : Res State) : Res State :=
  if n = 0 then trap (illegal9 (0xB8000000 + c.toNat * 0x200000 + b.toNat * 0x10000 + sc.toNat * 8 + form)) else r

def execSemwait (c : BitVec 4) (b : BitVec 5) (n : BitVec 10) (sc : BitVec 3) (s : State) : Host.Outcome State Fault Refusal :=
  finish s (semN 0 c b n sc <| match s.semAddr c.toNat b.toNat with
    | .error e => .error e
    | .ok (k, a) => match s.acquire 1 with
      | .error e => .error e
      | .ok _ =>
      match semCheck k c.toNat a (pLoad + pStore + pAtomic) .atomic [0, 3] with
      | .error e => .error e
      | .ok _ => s.semStep c.toNat k.space a (takeN n.toNat) fun t =>
          .error (.parkIn (t.onRun fun r => { r with watch := some { sem := true, space := k.space, addr := a, home := t.atomHome t.me.at_.asid k.space a, n := n.toNat, changed := false } }) .semaphore))

def execSempost (c : BitVec 4) (b : BitVec 5) (n : BitVec 10) (sc : BitVec 3) (s : State) : Host.Outcome State Fault Refusal :=
  finish s (semN 1 c b n sc <| match s.semAddr c.toNat b.toNat with
    | .error e => .error e
    | .ok (k, a) => match s.release 2 with
      | .error e => .error e
      | .ok _ => match semCheck k c.toNat a (pLoad + pStore + pAtomic) .atomic [0, 3] with
        | .error e => .error e
        | .ok _ => s.semStep c.toNat k.space a (fun m => some (min (m + n.toNat) (2 ^ 32 - 1))) fun t => .ok t)

/-- What a PARK reads, after its scribe's own earlier accesses to the atom (R104). A word of a poisoned line is no good value to compare: POISON, as for a blocking load (R344, the model's
reading, log 106), with the line's bit address (Table 08-1). -/
def State.parkRead (s : State) (cr : Nat) (k : Cap) : Res (State × Nat) :=
  if k.space = 1 ∧ s.hole (k.cursor / 131072) then trap (holeTrap 5 k.cursor)
  else match (if k.space = 1 then .ok s else s.afterOwn k.space k.cursor 32) with
    | .error e => .error e
    | .ok s => match s.getBlocking cr k k.cursor 32 with
      | .error e => .error e
      | .ok (t, m, bad) => if bad then .error (.trapIn t (poisonLine (k.cursor / 512))) else .ok (t, m)

def execPark (c : BitVec 4) (b : BitVec 5) (_sc : BitVec 3) (s : State) : Host.Outcome State Fault Refusal :=
  finish s (match s.cval c.toNat with
    | .error e => .error e
    | .ok k => match s.sval b.toNat with
      | .error e => .error e
      | .ok v => match s.acquire 1 with
        | .error e => .error e
        | .ok _ => match semCheck k c.toNat k.cursor pLoad .load [0, 1, 3] with
          | .error e => .error e
          | .ok _ =>
            if s.me.run.watch.any (·.changed) then .ok s
            else match s.parkRead c.toNat k with
              | .error e => .error e
              | .ok (t, m) =>
                if m ≠ v.toNat % 2 ^ 32 then .ok t
                else .error (.parkIn (t.onRun fun r => { r with watch := some { sem := false, space := k.space, addr := k.cursor, home := t.atomHome t.me.at_.asid k.space k.cursor, n := 0, changed := false } }) .watch))

/-! ## The two events -/

/-- Whether a scribe waits with a watch whose atom has changed. An event that may enter is taken before the word (R272). -/
def Scribe.watchReady (c : Scribe) (sem : Bool) : Bool :=
  c.run.life = .running && !c.eventDue && c.run.watch.any fun w => w.sem = sem && w.changed

/-- The atom of a watch as a piece of global memory. -/
def homePiece (p : Nat) : List Piece := [{ phys := 8 * p, width := 32, dev := false }]

/-- The layer that holds the home of a watch back, if one does (R343). -/
def State.homeHeld (s : State) (id : BitVec 14) (w : Watch) : Bool :=
  match w.home with
  | some p => (s.heldAt (some id) none (pieceWords (homePiece p))).isSome
  | none => false

/-- One test and update at the home of a parked SEMWAIT (R271, R54): the state after it, and whether it took. A word that is uncorrectable
raises POISON at the waiting word. -/
def State.semHome (s : State) (w : Watch) : Res (State × Bool) :=
  match w.home with
  | some p =>
    match s.fetchPieces s.meWho w.addr (homePiece p) with
    | (s1, []) => (match takeN w.n (readPieces s.dram (homePiece p)) with
      | some m => .ok (s.semEnds (s1.storePieces s.meWho m (homePiece p)), true)
      | none => .ok (s1, false))
    | (s1, b :: _) => .error (.trapIn s1 (poisonMem b))
  | none =>
    let g := s.peerGet w.addr 32
    match g.bad, takeN w.n g.n with
    | some (_, b), _ => trap (poisonMem b)
    | none, some m => .ok (s.semEnds (s.peerWrite w.addr 32 m), true)
    | none, none => .ok (s, false)

/-- R271: a parked SEMWAIT tries again at the home. -/
def State.retrySem (s : State) : State :=
  match s.me.run.watch with
  | none => s
  | some w =>
    match s.semHome w with
    | .ok (t, true) => t.advance
    | .ok (t, false) => t.onRun fun r => { r with watch := some { w with changed := false } }
    | .error (.trapIn t x) => t.takeTrap x
    | .error (.trap x) => s.takeTrap x
    | .error _ => s

def execSemwaitRetry (sid : Nat) (s : State) : Host.Outcome State Fault Refusal :=
  match s.scribe (BitVec.ofNat 14 sid) with
  | some c => event (c.watchReady true && !c.run.watch.any (s.homeHeld c.at_.id)) (fun t => t.asScribe c.at_.id State.retrySem) s
  | none => .refused .notEnabled

/-- R271: a parked PARK completes. -/
def execWatchWake (sid : Nat) (s : State) : Host.Outcome State Fault Refusal :=
  match s.scribe (BitVec.ofNat 14 sid) with
  | some c => event (c.watchReady false) (fun t => t.asScribe c.at_.id State.advance) s
  | none => .refused .notEnabled

end Sys2Proof.Machine
end

