-- ==== Sys2Proof/Machine/Branch.lean ====
section
/-! DEFINITION. Control flow: majors 0x08 to 0x0A (R94 to R97), with the register window's spills and
fills (R19, R20). -/

namespace Sys2Proof.Machine

open Sys2Proof

/-- The target of a relative branch: 32 × the offset from the BR word's own address (R82, R95). -/
def State.target (s : State) (o : BitVec 12) : Word := s.me.ctl.pc + BitVec.ofInt 64 (32 * s.simm 12 o.toNat)

/-- A transfer that is taken or not; a target is checked when it is taken (R94). -/
def State.branchTo (s : State) (taken : Bool) (t : Word) : Res State :=
  if taken then
    match targetCheck s.me.ctl.codeCap t with
    | .error e => .error e
    | .ok _ => .ok (s.jump t)
  else .ok s.advance

/-- R95: compare two scalars and branch. -/
def State.branch2 (s : State) (a b : BitVec 5) (o : BitVec 12) (f : Word → Word → Bool) : Res State :=
  match s.sval a.toNat with
  | .error e => .error e
  | .ok x => match s.sval b.toNat with
    | .error e => .error e
    | .ok y => s.branchTo (f x y) (s.target o)

def State.branch1 (s : State) (a : BitVec 5) (o : BitVec 12) (f : Word → Bool) : Res State :=
  match s.sval a.toNat with
  | .error e => .error e
  | .ok x => s.branchTo (f x) (s.target o)

def execBeq (a b : BitVec 5) (o : BitVec 12) (s : State) : Host.Outcome State Fault Refusal := finishAt s (s.branch2 a b o fun x y => x = y)
def execBne (a b : BitVec 5) (o : BitVec 12) (s : State) : Host.Outcome State Fault Refusal := finishAt s (s.branch2 a b o fun x y => x ≠ y)
def execBlt (a b : BitVec 5) (o : BitVec 12) (s : State) : Host.Outcome State Fault Refusal := finishAt s (s.branch2 a b o fun x y => x.toInt < y.toInt)
def execBge (a b : BitVec 5) (o : BitVec 12) (s : State) : Host.Outcome State Fault Refusal := finishAt s (s.branch2 a b o fun x y => y.toInt ≤ x.toInt)
def execBltb (a b : BitVec 5) (o : BitVec 12) (s : State) : Host.Outcome State Fault Refusal := finishAt s (s.branch2 a b o fun x y => x.toNat < y.toNat)
def execBgeb (a b : BitVec 5) (o : BitVec 12) (s : State) : Host.Outcome State Fault Refusal := finishAt s (s.branch2 a b o fun x y => y.toNat ≤ x.toNat)
def execBz (a : BitVec 5) (o : BitVec 12) (s : State) : Host.Outcome State Fault Refusal := finishAt s (s.branch1 a o fun x => x = 0)
def execBnz (a : BitVec 5) (o : BitVec 12) (s : State) : Host.Outcome State Fault Refusal := finishAt s (s.branch1 a o fun x => x ≠ 0)
def execJmp (o : BitVec 12) (s : State) : Host.Outcome State Fault Refusal := finishAt s (s.branchTo true (s.target o))

/-! ## Predicate branches (R96) -/

/-- The lanes, of those not on holes, in which a predicate holds. -/
def State.holds (s : State) (q : BitVec 3) : Word := s.live &&& s.getQ q.toNat

/-- R178: the lanes of `m` whose value differs from the lowest lane's, for a predicate that holds in `h`. -/
def mismatch (m h : Word) : Word :=
  match lanesOf m with
  | [] => 0
  | l :: _ => if bitOf h l then m &&& ~~~h else h

def execBru (q : BitVec 3) (o : BitVec 12) (s : State) : Host.Outcome State Fault Refusal :=
  finishAt s (
    let h := s.holds q
    if h ≠ 0 ∧ h ≠ s.live then trap { code := cUNIFORM, detail := 1, tinfo := (mismatch s.live h).toNat }
    else s.branchTo (decide (h ≠ 0)) (s.target o))
def execBany (q : BitVec 3) (o : BitVec 12) (s : State) : Host.Outcome State Fault Refusal := finishAt s (s.branchTo (decide (s.holds q ≠ 0)) (s.target o))
def execBall (q : BitVec 3) (o : BitVec 12) (s : State) : Host.Outcome State Fault Refusal := finishAt s (s.branchTo (decide (s.holds q = s.live)) (s.target o))
def execBnone (q : BitVec 3) (o : BitVec 12) (s : State) : Host.Outcome State Fault Refusal := finishAt s (s.branchTo (decide (s.holds q = 0)) (s.target o))

/-! ## The window (R19, R20) -/

/-- The key of stack entry e in `Regs.x`. -/
def entryKey (e : Nat) : Nat := 8 + e

/-- Stack entries e .. e + n - 1 are dry, or the word waits or traps. -/
def State.entriesDry (s : State) (e : Nat) : Nat → Res Unit
  | 0 => .ok ()
  | n + 1 =>
    match find s.me.wet.s (entryKey (e + n)) with
    | some r => s.me.needDry r
    | none => s.entriesDry e n

/-- The words of stack entries e .. e + n - 1, the lowest in the low bits. -/
def entryBits (x : Tbl Word) (e : Nat) : Nat → Nat
  | 0 => 0
  | n + 1 => (look 0 x (entryKey e)).toNat + 2 ^ 64 * entryBits x (e + 1) n

/-- Write stack entries e .. e + n - 1 from the bits of a fill. -/
def Scribe.putEntries (c : Scribe) (e v : Nat) : Nat → Scribe
  | 0 => c
  | n + 1 => (c.setX (entryKey e) (word v)).putEntries (e + 1) (v / 2 ^ 64) n

def spillTrap (code fill a : Nat) : Trap := { code := cWINDOW_SPILL, detail := code, tinfo := fill, taddr := a }

/-- R20: spill the 16 oldest held entries. A spill and a fill are accesses of the scribe like any other (R104). -/
def State.spill (s : State) : Res State :=
  let c := s.me.getC 14
  let a := c.cursor
  let e := s.me.ctl.heldBase
  match capCheck c a 1024 pStore .store true with
  | some code => trap (spillTrap code 0 a)
  | none =>
    match s.entriesDry e 16 with
    | .error x => .error x
    | .ok _ =>
      let poison := (List.range 16).any fun i => look false s.me.r.ps (entryKey (e + i))
      match s.afterOwn c.space a 1024 with
      | .error x => .error x
      | .ok s => match s.putBlocking 14 c a 1024 (entryBits s.me.r.x e 16) poison with
      | .error x => .error x
      | .ok s1 =>
        let s2 := { s1 with me := s1.me.putEntries e 0 16 }
        .ok ((s2.setC 14 (c.withCursor (a + 1024))).onCtl fun k => { k with heldBase := e + 16 })

/-- The words of stack entries e .. e + n - 1 that came from poisoned lines are poisoned (R177, R190). -/
def State.markEntries (s : State) (e a : Nat) : Nat → State
  | 0 => s
  | n + 1 => (if s.planePoison a 64 then s.onR fun r => { r with ps := put false r.ps (entryKey e) true } else s).markEntries (e + 1) (a + 64) n

/-- R20: fill 16 entries. -/
def State.fill (s : State) : Res State :=
  let c := s.me.getC 14
  let a := (c.cursor + 2 ^ 64 - 1024) % 2 ^ 64
  let e := s.me.ctl.heldBase - 16
  match capCheck c a 1024 pLoad .load true with
  | some code => trap (spillTrap code 1 a)
  | none =>
    match s.afterOwn c.space a 1024 with
    | .error x => .error x
    | .ok s => match s.getBlocking 14 c a 1024 with
    | .error x => .error x
    | .ok (s1, v, bad) =>
      let s2 := { s1 with me := s1.me.putEntries e v 16 }
      let s3 := if bad then s2.markEntries e a 16 else s2
      .ok ((s3.setC 14 (c.withCursor a)).onCtl fun k => { k with heldBase := e })

/-- Codes of s16-s23 and s0-s7 (Table 04-4). -/
def callerArgs : List Nat := [24, 25, 26, 27, 28, 29, 30, 31]
def calleeArgs : List Nat := [8, 9, 10, 11, 12, 13, 14, 15]

/-- The registers of a list are dry; poison passes, since nothing is consumed. -/
def State.noneWet (s : State) : List Nat → Res Unit
  | [] => .ok ()
  | c :: cs =>
    match s.me.wetS c with
    | some r => s.me.needDry r
    | none => s.noneWet cs

/-- R97: CALL and CALLR. -/
def State.call (s : State) (t : Word) : Res State :=
  match s.noneWet callerArgs with
  | .error e => .error e
  | .ok _ =>
    match targetCheck s.me.ctl.codeCap t with
    | .error e => .error e
    | .ok _ =>
      let d := s.me.ctl.depth
      if d = 65535 then trap { code := cWINDOW_SPILL }
      else
        match (if s.me.ctl.heldBase + 256 < 16 * (d + 1) + 24 then s.spill else .ok s) with
        | .error e => .error e
        | .ok s1 =>
          let back := s.me.ctl.pc + 32
          let s2 := s1.onCtl fun c => { c with depth := d + 1 }
          let s3 := { s2 with me := (s2.me.putEntries (16 * (d + 1) + 9) 0 15).setS 16 back }
          .ok (s3.jump t)

/-- R97: RET. -/
def State.ret (s : State) : Res State :=
  let d := s.me.ctl.depth
  if d = 0 then trap (illegal9 (encodeNat .ret))
  else
    match s.sval 16 with
    | .error e => .error e
    | .ok t =>
      match s.noneWet calleeArgs with
      | .error e => .error e
      | .ok _ =>
        match targetCheck s.me.ctl.codeCap t with
        | .error e => .error e
        | .ok _ =>
          match (if 16 * (d - 1) < s.me.ctl.heldBase then s.fill else .ok s) with
          | .error e => .error e
          | .ok s1 => .ok ((s1.onCtl fun c => { c with depth := d - 1 }).jump t)

def execCall (o : BitVec 12) (s : State) : Host.Outcome State Fault Refusal := finishAt s (s.call (s.target o))
def execCallr (a : BitVec 5) (s : State) : Host.Outcome State Fault Refusal :=
  finishAt s (match s.sval a.toNat with
    | .error e => .error e
    | .ok t => s.call t)
def execJr (a : BitVec 5) (s : State) : Host.Outcome State Fault Refusal :=
  finishAt s (match s.sval a.toNat with
    | .error e => .error e
    | .ok t => s.branchTo true t)
def execRet (s : State) : Host.Outcome State Fault Refusal := finishAt s s.ret

end Sys2Proof.Machine
end

