-- ==== Sys2Proof/Machine/Nib.lean ====
section
/-! DEFINITION. The nib: MLOOP with its checks (R212 to R219), the steps of loops (R42, R216, R218, R220),
batches (R221), and the tile words of major 0x2B (R222 to R229). -/

namespace Sys2Proof.Machine

open Sys2Proof

/-! ## Elements (R209, R211) -/

def nibFmt : Nat → Fmt
  | 0x02 => .e4m3
  | 0x03 => .e5m2
  | 0x04 => .f16
  | _ => .bf16

/-- The value of an operand element of a format, with its block's scale byte. -/
def nibVal (code scale n : Nat) : Val :=
  match nibClass code with
  | 0 => fval (nibFmt code) n
  | 1 => Val.ofInt (if code = 0 then signed 8 n else (n : Int))
  | _ => narrowVal scale (nibBits code) n

/-- An integer operand. -/
def nibInt (code n : Nat) : Int := if code = 0 then signed 8 n else (n : Int)

/-! ## The R42 update -/

/-- One slice into an i32 accumulator. -/
def accInt (acc : Lane) (ps : List Int) : Lane := BitVec.ofInt 32 (acc.toInt + ps.foldl (· + ·) 0)

/-- One slice into an f32 accumulator: the pairs of factors. Only NV and OF are raised. -/
def accF32 (acc : Lane) (ps : List (Val × Val)) : Lane × Flags :=
  let a := fval .f32 acc.toNat
  let prods := ps.map fun p => p.1.mul p.2
  let sum := Val.sum 0 (a :: prods.map (·.1))
  if a.isNan || ps.any (fun p => p.1.isNan || p.2.isNan) || prods.any (fun p => p.2 ≠ 0) || sum.2 ≠ 0 then
    (BitVec.ofNat 32 (Fmt.canon .f32), fNV)
  else
    let r := round sum.1 .f32 { mode := 0, daz := false, ftz := false, sat := false } 0
    (BitVec.ofNat 32 r.code, r.flags &&& fOF)

/-- What a step reads: its blocks, and the scale bytes as one array each. -/
structure StepIn where
  a : Nat
  b : Nat
  sa : Nat
  sb : Nat
  poison : Bool

/-- Offsets of A (m, κ) and B (κ, n), and of their scale bytes. -/
def Loop.aElem (l : Loop) (x : StepIn) (m κ : Nat) : Nat := bits x.a (nibBits l.afmt * (8 * κ + m)) (nibBits l.afmt)
def Loop.bElem (l : Loop) (x : StepIn) (κ n : Nat) : Nat := bits x.b (nibBits l.bfmt * (8 * κ + n)) (nibBits l.bfmt)
def Loop.aByte (l : Loop) (x : StepIn) (m κ : Nat) : Nat := bits x.sa (8 * (8 * (κ / l.la) + m)) 8
def Loop.bByte (l : Loop) (x : StepIn) (κ n : Nat) : Nat := bits x.sb (8 * (8 * (κ / l.lb) + n)) 8

/-- Slice j of a step into element (m, n). -/
def Loop.slice (l : Loop) (x : StepIn) (m n j : Nat) (acc : Lane × Flags) : Lane × Flags :=
  let ks := (List.range l.k).map (· + j * l.k)
  if nibClass l.afmt = 1 then
    (accInt acc.1 (ks.map fun κ => nibInt l.afmt (l.aElem x m κ) * nibInt l.bfmt (l.bElem x κ n)), acc.2)
  else
    let r := accF32 acc.1 (ks.map fun κ => (nibVal l.afmt (l.aByte x m κ) (l.aElem x m κ), nibVal l.bfmt (l.bByte x κ n) (l.bElem x κ n)))
    (r.1, acc.2 ||| r.2)

/-- All slices of a step, in ascending order. -/
def Loop.elem (l : Loop) (x : StepIn) (m n : Nat) (acc : Lane) : Lane × Flags :=
  (List.range (l.ks / l.k)).foldl (fun a j => l.slice x m n j a) (acc, 0)

/-! ## Streams that feed loops (R219, R304, R305) -/

/-- The key of a stream: 64·die + number. -/
def streamKey (die n : Nat) : Nat := 64 * die + n

/-- A subscription of a resident scribe. -/
def Sub.of (u : Sub) (sid : BitVec 14) : Bool := u.saved.isNone && u.sid = sid

/-- The nib subscription of a scribe to a stream. -/
def State.nibSub (s : State) (key : Nat) (sid : BitVec 14) : Option (Stream × Sub) :=
  match find s.streams key with
  | some t => (t.subs.find? fun u => !u.cell && u.of sid).map fun u => (t, u)
  | none => none

/-- The chunk a step of a loop takes: none while it has not arrived; `some none` when there is none to come. -/
def State.stepChunk (s : State) (l : Loop) (st : Nat) : Option (Option (Nat × Bool)) :=
  match s.nibSub (streamKey (dieOf l.sid) l.stream) l.sid with
  | none => some none
  | some (t, u) =>
    if (if u.cut then u.next else t.total) ≤ l.firstChunk + st then some none
    else (find u.got (l.firstChunk + st)).map some

/-! ## One step of a loop in a lane (R216) -/

/-- R217: word i of register A of a lane, from the latch or from the registers, and whether it is marked poisoned. -/
def Loop.aWord (l : Loop) (c : Scribe) (lane i : Nat) : Lane × Bool :=
  match l.va with
  | some va => (c.getV (va + i) lane, look 0 c.r.pv (vKey (va + i) lane) ≠ 0)
  | none => (look 0 l.aWords (32 * lane + i), l.aPoison.contains (32 * lane + i))

/-- The bits a step reads of A when A comes from registers, and whether a word of them is marked poisoned. -/
def Loop.aBits (l : Loop) (c : Scribe) (lane st : Nat) : Nat × Bool :=
  (List.range (16 * l.linesA)).foldl (fun acc i =>
    let w := l.aWord c lane (st * 16 * l.linesA + i)
    (acc.1 + w.1.toNat * 2 ^ (32 * i), acc.2 || w.2)) (0, false)

/-- What step st of a lane reads; `chunk` is the feed's chunk. -/
def State.stepIn (s : State) (l : Loop) (c : Scribe) (lane st : Nat) (chunk : Option (Nat × Bool)) : StepIn :=
  let p := c.at_
  let pe := p.peOf lane
  let bpe := l.bPe p lane
  let cv := (chunk.getD (0, true)).1
  let lineBad := (l.stepLines p lane st).any fun ln => (s.line ln).poison
  { a := if l.aRegs then (l.aBits c lane st).1 else readBits s.plane (planeAddr pe (l.aDepth + 512 * st * l.ia)) (512 * l.linesA),
    b := if l.bsrc = 2 then cv % 2 ^ (512 * l.linesB) else readBits s.plane (planeAddr bpe (l.bDepth + 512 * st * l.ib)) (512 * l.linesB),
    sa := if l.narrow then readBits s.plane (planeAddr pe (l.aScale st)) l.aScaleBits else 0,
    sb := if ¬ l.narrow then 0 else if l.bsrc = 2 then cv / 2 ^ (512 * l.linesB)
      else readBits s.plane (planeAddr bpe (l.bScale st)) l.bScaleBits,
    poison := lineBad || (l.aRegs && (l.aBits c lane st).2) || (l.bsrc = 2 && (chunk.getD (0, true)).2) }

/-- The tile after a step, element by element, with the flags. -/
def Loop.update (l : Loop) (x : StepIn) (lane : Nat) : List Nat → Regs × Flags → Regs × Flags
  | [], r => r
  | e :: es, r =>
    let o := l.elem x (e / 8) (e % 8) (look 0 r.1.z (zKey l.tile lane e))
    l.update x lane es (r.1.setZ l.tile lane e o.1, r.2 ||| o.2)

/-- R217: a loop that has read the latch in every lane releases it; what it was for the scribe's other loops is no matter any more. -/
def State.freeLatch (s : State) (n : Nat) : State :=
  match find s.loops n with
  | none => s
  | some l =>
    if l.frees ∧ (lanesOf l.lanes).all (fun k => l.ran k = l.steps) then
      ({ s with loops := s.loops.map fun q => (q.1, if q.2.sid = l.sid then { q.2 with frees := false } else q.2) } : State).mapScribes fun c =>
        if c.at_.id = l.sid then { c with run := { c.run with latch := none } } else c
    else s

/-- A lane runs its next step. -/
def State.laneStep (s : State) (n lane : Nat) : State :=
  match find s.loops n with
  | none => s
  | some l => match s.scribe l.sid with
    | none => s
    | some c =>
      let st := l.ran lane
      let x := s.stepIn l c lane st ((s.stepChunk l st).getD none)
      let (r, f) := l.update x lane (List.range 64) (c.r, 0)
      let r' := if x.poison then { r with zPoison := put false r.zPoison (zpKey l.tile lane) true } else r
      let l' := { l with progress := put 0 l.progress lane (st + 1), nv := l.nv || f &&& fNV ≠ 0, ovf := l.ovf || f &&& fOF ≠ 0 }
      { s.setScribe { c with r := r' } with loops := set s.loops n l' }

/-! ## When a step can run (R216, R218, R220, R361) -/

/-- Lanes of a loop in the column of a lane, for B from the bus; else the lane alone. -/
def Loop.together (l : Loop) (p : Place) (lane : Nat) : List Nat :=
  if l.bsrc = 1 then (lanesOf l.lanes).filter fun k => k % p.pw = lane % p.pw else [lane]

/-- Whether a loop still has steps to run in a PE. -/
def State.busyAt (s : State) (l : Loop) (pe : Nat) : Bool :=
  match s.scribe l.sid with
  | some c => (lanesOf l.lanes).any fun k => c.at_.peOf k = pe && l.ran k < l.steps
  | none => false

/-- Whether a loop with B from the bus still uses the bus of a column of a cluster. -/
def State.busyBus (s : State) (l : Loop) (x row : Nat) : Bool :=
  l.bsrc = 1 && (match s.scribe l.sid with
    | some c => c.at_.oy / 32 = row && (lanesOf l.lanes).any fun k => c.at_.peOf k % 256 = x && l.ran k < l.steps
    | none => false)

/-- Whether a lane's next step finds its operands and its turn. -/
def State.laneReady (s : State) (n : Nat) (l : Loop) (p : Place) (lane : Nat) : Bool :=
  bitOf l.lanes lane && l.ran lane < l.steps
    && !(s.loops.any fun q => q.1 < n && s.busyAt q.2 (p.peOf lane))
    && (l.stepLines p lane (l.ran lane)).all (fun ln => (s.line ln).present)
    && (l.bsrc ≠ 2 || (s.stepChunk l (l.ran lane)).isSome)

/-- Whether the next step of the lane, with its column, can run. -/
def State.stepReady (s : State) (n : Nat) (l : Loop) (c : Scribe) (lane : Nat) : Bool :=
  let p := c.at_
  c.run.life ≠ .failed && bitOf l.lanes lane
    && (l.together p lane).all (fun k => s.laneReady n l p k && l.ran k = l.ran lane)
    && !(l.bsrc = 1 && s.loops.any fun q => q.1 < n && s.busyBus q.2 (p.peOf lane % 256) (p.oy / 32))
    && ((look {} s.islands (islandOf l.sid)).matrix ≠ 0 || (lanesOf l.lanes).any fun k => l.ran lane < l.ran k)

/-- R235: the first nib of a loop to run a step draws the island's permit for all of them. -/
def State.drawMatrix (s : State) (l : Loop) (lane : Nat) : State :=
  if (lanesOf l.lanes).any fun k => l.ran lane < l.ran k then s
  else
    let key := islandOf l.sid
    let i := look {} s.islands key
    { s with islands := put {} s.islands key { i with matrix := i.matrix - 1, used := i.used + 1 } }

def State.lanesStep (s : State) (n : Nat) : List Nat → State
  | [] => s
  | k :: ks => (s.laneStep n k).lanesStep n ks

def execLoopStep (n lane : Nat) (s : State) : Host.Outcome State Fault Refusal :=
  match find s.loops n with
  | none => .refused .notEnabled
  | some l => match s.scribe l.sid with
    | none => .refused .notEnabled
    | some c => event (s.stepReady n l c lane) (fun t => ((t.drawMatrix l lane).lanesStep n (l.together c.at_ lane)).freeLatch n) s

/-! ## Batches (R221, R40) -/

/-- A batch completes: its flags reach FPM. -/
def Scribe.batchDone (c : Scribe) (b : Nat) : Scribe :=
  { c with ctl := c.ctl.addFlags (look 0 c.run.batchFlags b),
           run := { c.run with batches := del c.run.batches b, closed := c.run.closed.filter (· ≠ b), batchFlags := put 0 c.run.batchFlags b 0 } }

/-- A loop of a batch has completed. -/
def Scribe.loopDone (c : Scribe) (l : Loop) : Scribe :=
  let f : Flags := (if l.nv then fNV else 0) ||| (if l.ovf then fOF else 0)
  let left := look 0 c.run.batches l.batch - 1
  let c1 := { c with run := { c.run with batches := set c.run.batches l.batch left,
                                         batchFlags := put 0 c.run.batchFlags l.batch (look 0 c.run.batchFlags l.batch ||| f) } }
  if left = 0 ∧ c.run.closed.contains l.batch then c1.batchDone l.batch else c1

/-- Chunks a finished loop took are dropped from its subscription. -/
def Sub.drop (u : Sub) (l : Loop) : Sub :=
  { u with got := u.got.filter fun g => g.1 < l.firstChunk || l.firstChunk + l.steps ≤ g.1 }

def State.dropChunks (s : State) (l : Loop) : State :=
  if l.bsrc ≠ 2 then s
  else
    let key := streamKey (dieOf l.sid) l.stream
    match find s.streams key with
    | some t => { s with streams := set s.streams key { t with subs := t.subs.map fun u => if !u.cell && u.of l.sid then u.drop l else u } }
    | none => s

def execLoopCompletion (n : Nat) (s : State) : Host.Outcome State Fault Refusal :=
  match find s.loops n with
  | none => .refused .notEnabled
  | some l => match s.scribe l.sid with
    | none => .refused .notEnabled
    | some c => event ((lanesOf l.lanes).all fun k => l.ran k = l.steps)
        (fun t => { (t.dropChunks l).setScribe (c.loopDone l) with loops := del t.loops n }) s

/-- Close the open batch; none when that would make an eighth outstanding one. -/
def Scribe.closeBatch (c : Scribe) : Option Scribe :=
  let b := c.run.openBatch
  match find c.run.batches b with
  | none => some c
  | some left =>
    let c1 := { c with run := { c.run with openBatch := b + 1 } }
    if left = 0 then some (c1.batchDone b)
    else if 7 ≤ c.run.closed.length then none
    else some { c1 with run := { c1.run with closed := c1.run.closed ++ [b] } }

def execMcommit (s : State) : Host.Outcome State Fault Refusal :=
  finish s (match s.me.closeBatch with
    | some c => .ok { s with me := c }
    | none => parkOn .batches)

def execMwait (n : BitVec 3) (s : State) : Host.Outcome State Fault Refusal :=
  finish s (match s.me.closeBatch with
    | none => parkOn .batches
    | some c =>
      if c.run.closed.length ≤ n.toNat then .ok { s with me := c } else .error (.parkIn { s with me := c } .mwait))

/-! ## MLOOP (R213 to R215) -/

/-- What MLOOP reads at issue. -/
structure MloopIn where
  va : Nat
  av : Nat
  bv : Nat
  fb : Nat
  bsrc : Nat
  keep : Bool
  steps : Nat
  ia : Nat
  ib : Nat

def MloopIn.afmt (x : MloopIn) : Nat := bits x.fb 0 5
def MloopIn.bfmt (x : MloopIn) : Nat := bits x.fb 5 5
def MloopIn.cellA (x : MloopIn) : Bool := x.va = 63

/-- The loop that an MLOOP starts, but for the words it takes from registers. -/
def State.mkLoop (s : State) (z : Nat) (x : MloopIn) : Loop :=
  let row := if bits x.bv 22 1 = 1 then s.me.at_.oy / 32 * 32 + bits x.bv 17 5 else s.me.at_.oy
  { sid := s.me.at_.id, tile := z, aRegs := !x.cellA, aWords := [], aPoison := [], aDepth := if x.cellA then x.av % 2 ^ 17 else 0,
    bsrc := x.bsrc, bDepth := x.bv % 2 ^ 17, bRow := row, stream := x.bv % 64, firstChunk := 0, steps := x.steps,
    ia := x.ia, ib := x.ib, fb := BitVec.ofNat 128 x.fb, lanes := s.live, progress := [], batch := s.me.run.openBatch, nv := false, ovf := false }

/-- Registers that hold A. -/
def Loop.aCount (l : Loop) : Nat := l.steps * 16 * l.linesA

/-- R18 for the range of register A. With T set, the numbers 60 to 63 name t0-t3: DETAIL 5 (R214). -/
def State.aRangeBad (s : State) (va n : Nat) : Bool :=
  (List.range n).any fun i => s.me.at_.vregs ≤ va + i && !(s.me.ctl.temps && 60 ≤ va + i && va + i ≤ 63)

def nibFault (x : MloopIn) (detail taddr : Nat) : Trap :=
  { code := cNIB_FAULT, detail := detail, tinfo := x.fb % 2 ^ 64, taddr := taddr }

/-- The depth `d` of a block of `w` bits that ends beyond the cell. -/
def beyond (d w : Nat) : Option Nat := if 131072 < d + w then some d else none

/-- The first operand block or scale block of any step beyond depth 131,071. TADDR names the depth at which it begins (the model's choice,
log 140). -/
def Loop.overrun (l : Loop) : Option Nat :=
  (List.range l.steps).findSome? fun st =>
    ((if l.aRegs then none else beyond (l.aDepth + 512 * st * l.ia) (512 * l.linesA)).orElse fun _ =>
      (if 2 ≤ l.bsrc then none else beyond (l.bDepth + 512 * st * l.ib) (512 * l.linesB)).orElse fun _ =>
        (if l.narrow then beyond (l.aScale st) l.aScaleBits else none).orElse fun _ =>
          if l.narrow ∧ l.bsrc < 2 then beyond (l.bScale st) l.bScaleBits else none)

/-- DETAIL 1 to 4. BSD of a narrow loop with B from a feed, which Table 10-2 calls zero, gives DETAIL 4 (the model's choice, log 141). -/
def formatFault (x : MloopIn) : Option Nat :=
  let fb := x.fb
  let narrow := nibClass x.afmt = 2
  let zero := fun (lo w : Nat) => bits fb lo w = 0
  if nibClass x.afmt = 3 ∨ nibClass x.bfmt = 3 then some 1
  else if nibClass x.afmt ≠ nibClass x.bfmt then some 2
  else if bits fb 10 3 ≠ (if nibClass x.afmt = 1 then 1 else 0) then some 3
  else if ¬ (zero 17 1 && zero 18 3 && zero 21 11 && zero 82 46) then some 4
  else if bits fb 32 17 % 8 ≠ 0 ∨ bits fb 49 17 % 8 ≠ 0 then some 4
  else if ¬ narrow ∧ ¬ (zero 13 2 && zero 15 2 && zero 32 17 && zero 49 17 && zero 66 16) then some 4
  else if x.bsrc = 2 ∧ ¬ zero 49 17 then some 4
  else none

/-- DETAIL 5 and 6, with TADDR. -/
def State.depthFault (s : State) (x : MloopIn) (l : Loop) : Option (Nat × Nat) :=
  if ¬ x.cellA ∧ (32 < l.aCount ∨ (s.me.ctl.temps ∧ 60 < x.va + l.aCount)) then some (5, 0)
  else if x.cellA ∧ (x.av % 512 ≠ 0 ∨ 2 ^ 17 ≤ x.av) then some (6, x.av)
  else if ¬ x.cellA ∧ x.ia ≠ 0 then some (6, 0)
  else if x.bsrc < 2 ∧ x.bv % 512 ≠ 0 then some (6, x.bv % 2 ^ 17)
  else (l.overrun).map fun d => (6, d)

/-- R304: the chunk size a narrow or other loop needs. -/
def Loop.chunkBits (l : Loop) : Nat := 512 * (l.linesB + if l.narrow then 1 else 0)

/-- DETAIL 7: the B selector (Table 10-3). -/
def State.selectorBad (s : State) (x : MloopIn) (l : Loop) : Bool :=
  match x.bsrc with
  | 0 => decide (2 ^ 17 ≤ x.bv)
  | 1 => decide (2 ^ 23 ≤ x.bv) || (bits x.bv 22 1 = 0 && bits x.bv 17 5 ≠ 0)
      || (lanesOf l.lanes).any fun k => s.hole (l.bPe s.me.at_ k)
  | 2 => decide (64 ≤ x.bv) || x.ib ≠ 0 || (match s.nibSub (streamKey (dieOf s.me.at_.id) l.stream) s.me.at_.id with
      | some (t, _) => t.pub.isNone || t.kc ≠ l.chunkBits
      | none => true)
  | _ => true

/-- DETAIL 8: KEEP with A from the cell, or a register A that does not match the latch. -/
def State.latchBad (s : State) (x : MloopIn) (l : Loop) : Bool :=
  if x.cellA then x.keep
  else match s.me.run.latch with
    | some h => !(h.va = x.va && h.afmt = x.afmt && h.n = l.aCount)
    | none => false

/-- Table 10-4 in order. -/
def State.mloopFault (s : State) (x : MloopIn) (l : Loop) : Option Trap :=
  match formatFault x with
  | some d => some (nibFault x d 0)
  | none => match s.depthFault x l with
    | some (d, a) => some (nibFault x d a)
    | none =>
      if s.selectorBad x l then some (nibFault x 7 0)
      else if s.latchBad x l then some (nibFault x 8 0)
      else none

/-- R215: every operand line is checked as a load of the issuer, lowest lane first. -/
def State.operandCheck (s : State) (l : Loop) : Res Unit :=
  let p := s.me.at_
  let per := fun (lane : Nat) =>
    (lane, s.linesSay p.id p.team false lane ((List.range l.steps).flatMap fun st => l.stepLines p lane st))
  let sayings := (lanesOf l.lanes).map per
  match s.firstWait (sayings.map (·.2)) with
  | some e => .error e
  | none => match sayings.findSome? fun q => match q.2 with
    | (.bad t, ln) => some (t, ln)
    | _ => none with
  | some (t, ln) => trap { code := cOWNERSHIP, detail := 0, tinfo := t, taddr := 512 * ln }
  | none => .ok ()

/-- R220: a nib of the patch that holds 16 loops. -/
def State.nibFull (s : State) : Bool :=
  (lanesOf s.live).any fun k => 16 ≤ (s.loops.filter fun q => s.busyAt q.2 (s.me.at_.peOf k)).length

/-- Register A is dry in every lane of the patch. -/
def State.aDry (s : State) (va : Nat) : List Nat → Res Unit
  | [] => .ok ()
  | i :: is => match s.me.wetV (va + i) with
    | some r => if r.mask &&& s.live ≠ 0 then s.me.needDry r else s.aDry va is
    | none => s.aDry va is

/-- The words of register A, and those that are poisoned. -/
def State.collect (s : State) (va n : Nat) : Latch :=
  let keys := (lanesOf s.live).flatMap fun l => (List.range n).map fun i => (l, i)
  { va := va, afmt := 0, n := n,
    words := keys.foldl (fun t k => put 0 t (32 * k.1 + k.2) (s.getV (va + k.2) k.1)) [],
    poison := (keys.filter fun k => look 0 s.me.r.pv (vKey (va + k.2) k.1) ≠ 0).map fun k => 32 * k.1 + k.2 }

/-- Start a loop that has passed its checks. With no latch held it reads the registers as it runs; under KEEP they are copied into the
latch as it issues, which is then held (R217, the model's reading, log 135). -/
def State.startLoop (s : State) (x : MloopIn) (l : Loop) : State :=
  let held := s.me.run.latch.orElse fun _ => if x.keep then some { s.collect x.va l.aCount with afmt := x.afmt } else none
  let l1 := if l.aRegs = false then l else match held with
    | some h => { l with aWords := h.words, aPoison := h.poison, frees := !x.keep }
    | none => { l with va := some x.va }
  let key := streamKey (dieOf l.sid) l.stream
  let (l2, streams) := if l.bsrc = 2 then
      match find s.streams key, s.nibSub key l.sid with
      | some t, some (_, u) => ({ l1 with firstChunk := u.used },
          set s.streams key { t with subs := t.subs.map fun v => if !v.cell && v.of l.sid then { v with used := v.used + l.steps } else v })
      | _, _ => (l1, s.streams)
    else (l1, s.streams)
  let s1 := { s with loops := set s.loops s.nextLoop l2, nextLoop := s.nextLoop + 1, streams := streams }
  s1.onRun fun r => { r with
    batches := set r.batches r.openBatch (look 0 r.batches r.openBatch + 1),
    latch := if x.cellA then r.latch else held }

/-- What an MLOOP reads at issue (R213). -/
def State.mloopIn (s : State) (va d b f bsrc : Nat) (keep : Bool) : MloopIn :=
  let p := (s.me.ctl.xim.getD 0).toNat
  { va := va, av := (s.getS d).toNat, bv := (s.getS b).toNat, fb := (s.getS f).toNat + (s.getS (f + 1)).toNat * 2 ^ 64,
    bsrc := bsrc, keep := keep, steps := bits p 0 8 + 1, ia := bits p 8 9, ib := bits p 17 9 }

def State.mloop (s : State) (w z va d b f bsrc : Nat) (keep : Bool) : Res State :=
  match s.sdry ([f, f + 1, b] ++ if va = 63 then [d] else []) with
  | .error e => .error e
  | .ok _ =>
    let x := s.mloopIn va d b f bsrc keep
    let l := s.mkLoop z x
    let n := if x.cellA ∨ nibClass x.afmt = 3 ∨ nibClass x.bfmt = 3 then 0 else l.aCount
    if s.aRangeBad va n then trap { code := cILLEGAL, detail := 7, tinfo := w }
    else match (if s.me.run.latch.isSome then .ok () else s.aDry va (List.range n)) with
      | .error e => .error e
      | .ok _ =>
        if s.nibFull then parkOn .nibFull
        else match s.mloopFault x l with
          | some t => trap t
          | none => match s.operandCheck l with
            | .error e => .error e
            | .ok _ => .ok (s.startLoop x l)

def execMloop (z : BitVec 2) (a : BitVec 6) (d b f : BitVec 5) (bs : BitVec 2) (k : BitVec 1) (s : State) : Host.Outcome State Fault Refusal :=
  finish s (s.mloop (encodeNat (.mloop z a d b f bs k)) z.toNat a.toNat d.toNat b.toNat f.toNat bs.toNat (k = 1))

/-! ## Tile words (R222 to R228) -/

/-- R223: a tile in flight. -/
def State.inFlight (s : State) (z : Nat) : Bool := s.loops.any fun q => q.2.sid = s.me.at_.id && q.2.tile = z

def State.tileFree (s : State) (z : Nat) : Res Unit := if s.inFlight z then parkOn .tile else .ok ()

/-- A tile in one lane, set element by element. -/
def putTile (z lane : Nat) (f : Nat → Lane) : List Nat → Regs → Regs
  | [], r => r
  | e :: es, r => putTile z lane f es (r.setZ z lane e (f e))

/-- A tile and its poison mark in the lanes of a list. -/
def putTiles (z : Nat) (f : Nat → Nat → Lane) (p : Nat → Bool) : List Nat → Regs → Regs
  | [], r => r
  | l :: ls, r =>
    let r := putTile z l (f l) (List.range 64) r
    putTiles z f p ls { r with zPoison := put false r.zPoison (zpKey z l) (p l) }

/-- The words of a tile in a lane as one array. -/
def Regs.tileBits (r : Regs) (z lane : Nat) : Nat := (List.range 64).foldl (fun acc e => acc + (look 0 r.z (zKey z lane e)).toNat * 2 ^ (32 * e)) 0
def Regs.tileBad (r : Regs) (z lane : Nat) : Bool := look false r.zPoison (zpKey z lane)

def execZclr (z : BitVec 2) (s : State) : Host.Outcome State Fault Refusal :=
  finish s (match s.tileFree z.toNat with
    | .error e => .error e
    | .ok _ => .ok (s.onR (putTiles z.toNat (fun _ _ => 0) (fun _ => false) (lanesOf s.live))))

def execZmov (m n : BitVec 2) (s : State) : Host.Outcome State Fault Refusal :=
  finish s (match s.tileFree m.toNat with
    | .error e => .error e
    | .ok _ => match s.tileFree n.toNat with
      | .error e => .error e
      | .ok _ => .ok (s.onR fun r => putTiles n.toNat (fun l e => look 0 r.z (zKey m.toNat l e)) (r.tileBad m.toNat) (lanesOf s.live) r))

/-- R226: the lines of a tile access in a lane. -/
def tileLines (pe depth w : Nat) : List Nat := linesIn (planeAddr pe depth) w

/-- R226, R227: the checks of a tile access of `w` bits per lane; the depth must leave room for a whole tile. ALIGN carries DETAIL 0 and
TINFO 0 (the model's choice, log 142). -/
def State.tileCheck (s : State) (store : Bool) (depth w : Nat) : Res Unit :=
  if depth % 512 ≠ 0 ∨ 131072 < depth + 2048 then trap { code := cALIGN, taddr := depth }
  else
    let p := s.me.at_
    let sayings := (lanesOf s.live).map fun l => (l, s.linesSay p.id p.team store l (tileLines (p.peOf l) depth w))
    match s.firstWait (sayings.map (·.2)) with
    | some e => .error e
    | none =>
      if sayings.any fun q => q.2.1 = .landing then parkOn .landing
      else match sayings.findSome? fun q => match q.2 with
      | (.bad t, ln) => some (s.refusal store (planeAddr (p.peOf q.1) depth) w ln t, ln)
      | (.ok, _) =>
        let a := planeAddr (p.peOf q.1) depth
        if store && s.barHit a w then some (barInfo (s.line (a / 512)) q.1, a / 512) else none
      | _ => none with
    | some (t, ln) => trap { code := cOWNERSHIP, detail := if store then 1 else 0, tinfo := t, taddr := 512 * ln }
    | none => .ok ()

def execZld (sreg : BitVec 5) (z : BitVec 2) (s : State) : Host.Outcome State Fault Refusal :=
  finish s (match s.tileFree z.toNat with
    | .error e => .error e
    | .ok _ => match s.sval sreg.toNat with
      | .error e => .error e
      | .ok v => match s.tileCheck false v.toNat 2048 with
        | .error e => .error e
        | .ok _ =>
          let at_ := fun (l : Nat) => planeAddr (s.me.at_.peOf l) v.toNat
          .ok (s.onR (putTiles z.toNat (fun l e => BitVec.ofNat 32 (readBits s.plane (at_ l + 32 * e) 32)) (fun l => s.planePoison (at_ l) 2048) (lanesOf s.live))))

/-- Write whole lines of a lane's cell. -/
def State.putLines (s : State) (ln v : Nat) (poison : Bool) : Nat → State
  | 0 => s
  | n + 1 => (s.writeLine ln (v % 2 ^ 512) poison).putLines (ln + 1) (v / 2 ^ 512) poison n

/-- Write `n` lines at a depth of every lane: the bits and the poison of each. -/
def State.storeTiles (s : State) (depth n : Nat) (f : Nat → Nat × Bool) : List Nat → State
  | [] => s
  | l :: ls => (s.putLines (planeAddr (s.me.at_.peOf l) depth / 512) (f l).1 (f l).2 n).storeTiles depth n f ls

def execZst (sreg : BitVec 5) (z : BitVec 2) (s : State) : Host.Outcome State Fault Refusal :=
  finish s (match s.tileFree z.toNat with
    | .error e => .error e
    | .ok _ => match s.sval sreg.toNat with
      | .error e => .error e
      | .ok v => match s.tileCheck true v.toNat 2048 with
        | .error e => .error e
        | .ok _ => .ok (s.storeTiles v.toNat 4 (fun l => (s.me.r.tileBits z.toNat l, s.me.r.tileBad z.toNat l)) (lanesOf s.live)))

/-! ## ZCVT (R227) -/

def cvtFmt : Nat → Fmt
  | 0 => .f32
  | 1 => .bf16
  | _ => .e4m3

/-- The elements of a lane's tile converted in ascending order: the codes as one array, with the flags and
the stochastic state. -/
def cvtElems (fc : Nat) (int : Bool) (rm : Rm) (el : Nat → Lane) : List Nat → Nat × Flags × Lane → Nat × Flags × Lane
  | [], acc => acc
  | e :: es, (v, f, st) =>
    let fm := cvtFmt fc
    if fc = 0 ∧ int = false then cvtElems fc int rm el es (v + (el e).toNat * 2 ^ (32 * e), f, st)
    else
      let x := if int then Val.ofInt (el e).toInt else opval rm.daz .f32 (el e).toNat
      let o := roundLane (x, 0) fm rm st
      cvtElems fc int rm el es (v + o.v.toNat * 2 ^ (fm.width * e), f ||| o.flags, o.rng)

/-- ZCVT in every lane: lane, codes, flags, stochastic state. -/
def State.cvtLanes (s : State) (z fc : Nat) (int : Bool) (rnd : Nat) : List (Nat × Nat × Flags × Lane) :=
  (lanesOf s.live).map fun l =>
    (l, cvtElems fc int (s.me.ctl.rnd rnd) (fun e => look 0 s.me.r.z (zKey z l e)) (List.range 64) (0, 0, look 0 s.me.r.rng l))

/-- The flags and stochastic states after ZCVT. -/
def State.cvtEnd (s : State) (outs : List (Nat × Nat × Flags × Lane)) : State :=
  (s.onR fun r => { r with rng := outs.foldl (fun t o => put 0 t o.1 o.2.2.2) r.rng }).addFlags (outs.foldl (fun a o => a ||| o.2.2.1) 0)

def cvtCode (outs : List (Nat × Nat × Flags × Lane)) (l : Nat) : Nat := (outs.findSome? fun o => if o.1 = l then some o.2.1 else none).getD 0

def execZcvt (sreg : BitVec 5) (i : BitVec 1) (r f z : BitVec 2) (s : State) : Host.Outcome State Fault Refusal :=
  finish s (match s.tileFree z.toNat with
    | .error e => .error e
    | .ok _ => match s.sval sreg.toNat with
      | .error e => .error e
      | .ok v =>
        let n := 64 * (cvtFmt f.toNat).width / 512
        match s.tileCheck true v.toNat (512 * n) with
        | .error e => .error e
        | .ok _ =>
          let outs := s.cvtLanes z.toNat f.toNat (i = 1) r.toNat
          .ok ((s.storeTiles v.toNat n (fun l => (cvtCode outs l, s.me.r.tileBad z.toNat l)) (lanesOf s.live)).cvtEnd outs))

/-- Write the registers of a ZCVT, the lowest first. -/
def State.putCvt (s : State) (z vd : Nat) (outs : List (Nat × Nat × Flags × Lane)) : List Nat → State
  | [] => s
  | k :: ks =>
    let reg := s.vr (vd + k)
    let s1 := { s with me := s.me.dropV reg s.live }
    (s1.onR fun r => writeLanes reg (fun l => (BitVec.ofNat 32 (cvtCode outs l / 2 ^ (32 * k)), if r.tileBad z l then 1 else 0)) (lanesOf s.live) r).putCvt z vd outs ks

/-- The word of ZCVT into registers, for TINFO. -/
def zcvtRegWord (d : BitVec 6) (i : BitVec 1) (r f z : BitVec 2) : Nat :=
  0xAC001006 + d.toNat * 2 ^ 16 + i.toNat * 2 ^ 13 + r.toNat * 2 ^ 10 + f.toNat * 2 ^ 8 + z.toNat * 16

def execZcvtReg (d : BitVec 6) (i : BitVec 1) (r f z : BitVec 2) (s : State) : Host.Outcome State Fault Refusal :=
  finish s (
    let n := 2 * (cvtFmt f.toNat).width
    if f = 0 then trap (illegal9 (zcvtRegWord d i r f z))
    else if (List.range n).any (fun k => !(regOk s.me.at_.vregs s.me.ctl.temps (d.toNat + k)) || 63 < d.toNat + k) then
      trap { code := cILLEGAL, detail := 7, tinfo := zcvtRegWord d i r f z }
    else match s.tileFree z.toNat with
      | .error e => .error e
      | .ok _ =>
        let outs := s.cvtLanes z.toNat f.toNat (i = 1) r.toNat
        .ok ((s.putCvt z.toNat d.toNat outs (List.range n)).cvtEnd outs))

end Sys2Proof.Machine
end

