-- ==== Sys2Proof/Machine/Quill.lean ====
section
/-! DEFINITION. Quills and the ruling unit: descriptors and their checks (R276 to R280, R287), the walk and
its placement (R281 to R286), landing and counting (R288, R289), faults (R293, R294), completion records
(R291, R292), major 0x2F (R296 to R298), and LCOPY (R299). -/

namespace Sys2Proof.Machine

open Sys2Proof

/-! ## Fields of a descriptor (Tables 16-1 and 16-2) -/

def Copy.f (c : Copy) (lo w : Nat) : Nat := bits c.d0.toNat lo w
def Copy.g (c : Copy) (lo w : Nat) : Nat := bits c.d1.toNat lo w

def Copy.op (c : Copy) : Nat := c.f 384 8
def Copy.wc (c : Copy) : Nat := c.f 392 4
def Copy.w (c : Copy) : Nat := widthOf c.wc
def Copy.dims (c : Copy) : Nat := c.f 396 4
def Copy.swz (c : Copy) : Nat := c.f 400 4
def Copy.oob (c : Copy) : Nat := c.f 404 2
def Copy.red (c : Copy) : Nat := c.f 406 4
def Copy.btab (c : Copy) : Bool := c.f 410 1 = 1
def Copy.mcast (c : Copy) : Bool := c.f 411 1 = 1
def Copy.crec (c : Copy) : Bool := c.f 412 1 = 1
def Copy.lsh (c : Copy) : Bool := c.f 413 1 = 1
def Copy.repx (c : Copy) : Bool := c.f 414 1 = 1
def Copy.repy (c : Copy) : Bool := c.f 415 1 = 1
def Copy.fill (c : Copy) : Nat := c.f 418 32
def Copy.corr (c : Copy) : Nat := c.f 450 24
def Copy.bar (c : Copy) : Nat := c.f 474 33
def noBar : Nat := 2 ^ 33 - 1

def Copy.ext (c : Copy) (k : Nat) : Nat := c.g (16 * k) 16
def Copy.org (c : Copy) (k : Nat) : Int := signed 16 (c.g (336 + 16 * k) 16)
def Copy.tdim (c : Copy) (k : Nat) : Nat := c.g (416 + 16 * k) 16
def Copy.dstr (c : Copy) (k : Nat) : Nat := c.g (208 + 32 * (k - 1)) 32
def Copy.sStep (c : Copy) (k : Nat) : Int := if k = 0 then c.w else signed 32 (c.g (80 + 32 * (k - 1)) 32)
def Copy.dStep (c : Copy) (k : Nat) : Int := if k = 0 then c.w else signed 32 (c.dstr k)

/-- The plane form (R279). -/
def Copy.plane (c : Copy) : Bool := c.dst.space = 1
def Copy.x0 (c : Copy) : Nat := bits c.dst.cursor 17 8
def Copy.y0 (c : Copy) : Nat := bits c.dst.cursor 25 8
def Copy.dep0 (c : Copy) : Nat := bits c.dst.cursor 0 17
def Copy.c0 (c : Copy) : Nat := bits (c.dstr 1) 0 16
def Copy.c1 (c : Copy) : Nat := bits (c.dstr 1) 16 16
def Copy.rw (c : Copy) : Nat := bits (c.dstr 2) 0 16
def Copy.rh (c : Copy) : Nat := bits (c.dstr 2) 16 16
def Copy.mask (c : Copy) : Nat := c.dstr 3 + c.dstr 4 * 2 ^ 32

def sumInt (l : List Int) : Int := l.foldl (· + ·) 0

/-- Visits of the box. -/
def Copy.total (c : Copy) : Nat := (List.range c.dims).foldl (fun p k => p * c.ext k) 1

/-- i_k at visit n. -/
def Copy.idx (c : Copy) (n k : Nat) : Nat :=
  if k < c.dims then n / (List.range k).foldl (fun p j => p * c.ext j) 1 % c.ext k else 0

def Copy.coord (c : Copy) (n k : Nat) : Int := c.org k + c.idx n k

/-- Whether a visit lies inside the tensor. -/
def Copy.inb (c : Copy) (n : Nat) : Bool :=
  (List.range c.dims).all fun k => c.tdim k = 0 || (0 ≤ c.coord n k && c.coord n k < c.tdim k)

/-- Σ c_k·S_k, without the dimension that a block table takes. -/
def Copy.srcOff (c : Copy) (n : Nat) : Int :=
  sumInt ((List.range c.dims).map fun k => if c.btab ∧ k = 4 then 0 else c.coord n k * c.sStep k)

/-- The source address of a visit, from a base. -/
def Copy.srcAt (c : Copy) (base n : Nat) : Nat := modw 64 ((base : Int) + c.srcOff n)

/-- The destination address of a visit in memory. -/
def Copy.dstAt (c : Copy) (n : Nat) : Nat :=
  modw 64 ((c.dst.cursor : Int) + sumInt ((List.range c.dims).map fun k => (c.idx n k : Int) * c.dStep k))

/-- The value of an out-of-bounds element: for w = 64, FILL fills each half. -/
def Copy.oobVal (c : Copy) : Nat :=
  match c.oob with
  | 0 => 0
  | 1 => 2 ^ (c.w - 1) - 1
  | _ => (if c.w = 64 then c.fill * (1 + 2 ^ 32) else c.fill) % 2 ^ c.w

/-! ## Placement in the plane (R282) -/

/-- A run of bits of an element that lands in one place: PE, depth, offset in the element, bits. -/
structure Seg where
  pe : Nat
  depth : Nat
  off : Nat
  n : Nat
  deriving DecidableEq, Repr

/-- Cut bits at a depth where `unit`s begin. -/
def cutSeg : Nat → Nat → Seg → List Seg
  | 0, _, g => [g]
  | fuel + 1, u, g =>
    let t := u - g.depth % u
    if g.n ≤ t then [g] else { g with n := t } :: cutSeg fuel u { g with depth := g.depth + t, off := g.off + t, n := g.n - t }

/-- Table 16-4 on (u, v). -/
def Copy.swizzle (c : Copy) (u v : Nat) : Nat × Nat :=
  match c.swz with
  | 1 => ((u + v) % c.rw, v)
  | 2 => (u, (v + u) % c.rh)
  | 3 => let u' := (u + v) % c.rw; (u', (v + u') % c.rh)
  | 4 => (v, u)
  | _ => (u, v)

/-- The PEs where a piece at (u, v) lands: replicated, and in every core of a multicast. -/
def Copy.places (c : Copy) (die u v : Nat) : List (Nat × Nat) :=
  let us := if c.repx then List.range c.rw else [u]
  let vs := if c.repy then List.range c.rh else [v]
  let here := vs.flatMap fun v => us.map fun u => (u, 256 * (c.y0 + v) + c.x0 + u)
  if c.mcast then
    ((List.range 64).filter fun k => bits c.mask k 1 = 1).flatMap fun k =>
      let (ox, oy) := coreOrigin (64 * die + k)
      here.map fun p => (p.1, 256 * (oy + p.2 / 256 % 16) + ox + p.2 % 256 % 16)
  else here

/-- Where stream bits q .. q + n - 1 of one piece land. -/
def Copy.pieceSegs (c : Copy) (die q off n : Nat) : List Seg :=
  let p := q / c.c0
  let w' := if c.repx then 1 else c.rw
  let h' := if c.repy then 1 else c.rh
  let (u, v) := c.swizzle (p % w') (p / w' % h')
  let depth := c.dep0 + c.c1 * (p / (w' * h')) + q % c.c0
  (c.places die u v).flatMap fun (ux, pe) =>
    (cutSeg 128 (if c.swz = 5 then 32 else 512) { pe := pe, depth := depth, off := off, n := n }).map fun g =>
      if c.swz = 5 then { g with depth := g.depth / 512 * 512 + ((g.depth / 32 % 16) ^^^ (ux % 16)) * 32 + g.depth % 32 } else g

/-- Cut stream bits at the pieces. -/
def Copy.cutStream (c : Copy) (die : Nat) : Nat → Nat → Nat → Nat → List Seg
  | 0, _, _, _ => []
  | fuel + 1, q, off, n =>
    if n = 0 then []
    else
      let t := min n (c.c0 - q % c.c0)
      c.pieceSegs die q off t ++ c.cutStream die fuel (q + t) (off + t) (n - t)

/-- Where the element of visit n lands. -/
def Copy.segs (c : Copy) (die n : Nat) : List Seg := c.cutStream die (c.w + 1) (n * c.w) 0 c.w

def Seg.line (g : Seg) : Nat := lineNo g.pe (g.depth / 512)

/-- The die whose cores and barriers a copy names: its kicker's; of a packet's copy, the die of its rectangle, for the spec names none
(log 122). -/
def Copy.die (c : Copy) : Nat := if c.queue.isSome then dieAt c.x0 c.y0 else dieOf c.sid

/-- All landings, in visit order. -/
def Copy.allSegs (c : Copy) : List Seg := (List.range c.total).flatMap (c.segs c.die)

/-! ## The checks of Table 16-3 -/

/-- R54 for an element of a reduce-on-store. -/
def atomBreach (a w : Nat) : Bool := if w = 32 || w = 64 then a % w ≠ 0 else 32 < a % 32 + w

/-- Table 16-5: whether a reduce operation takes a width. -/
def redOk (red w : Nat) : Bool :=
  match red with
  | 0 => w = 8 || w = 16 || w = 32 || w = 64
  | 1 => w = 32
  | 2 => w = 16
  | 3 => w = 16
  | 8 => w = 32
  | 9 => w = 32
  | 10 => w ≤ 64
  | 11 => w ≤ 64
  | 12 => w ≤ 64
  | n => n < 8 && (w = 8 || w = 16 || w = 32 || w = 64)

/-- R279. -/
def Copy.planeForm (c : Copy) : Bool :=
  1 ≤ c.c0 && c.c0 ≤ c.c1 && 1 ≤ c.rw && c.rw ≤ 256 && 1 ≤ c.rh && c.rh ≤ 256 && c.x0 + c.rw ≤ 256 && c.y0 + c.rh ≤ 256
    && (c.mcast || c.mask = 0)

/-- A multicast rectangle inside one core. -/
def Copy.oneCore (c : Copy) : Bool := c.x0 % 16 + c.rw ≤ 16 && c.y0 % 16 + c.rh ≤ 16

/-- R300: the fields of a stream descriptor. -/
def Copy.streamForm (c : Copy) : Bool :=
  c.dst.tag = false && c.dst.bits = 0 && c.dstr 1 % 512 = 0 && 512 ≤ c.dstr 1 && c.dstr 1 ≤ 8192
    && c.dstr 2 = 0 && c.mask = 0 && (c.bar = 0 || c.bar = noBar)

/-- R286. -/
def Copy.mxForm (c : Copy) : Bool :=
  ((c.fill % 32 = 0x10 && c.wc = 3) || (c.fill % 32 = 0x11 && c.wc = 5)) && c.dims = 1 && c.ext 0 % 32 = 0 && c.oob = 0
    && bits c.d1.toNat 416 80 = 0 && !c.btab && c.dst.space = 0

/-- Fields that the operation leaves unused (DETAIL 8). -/
def Copy.unusedSet (c : Copy) : Bool :=
  bits c.d0.toNat 507 5 ≠ 0 || bits c.d1.toNat 496 16 ≠ 0
    || (!c.btab && c.op ≠ 2 && (c.table.tag || c.table.bits ≠ 0))
    || (c.op = 4 && (c.src.tag || c.src.bits ≠ 0 || c.btab || bits c.d1.toNat 80 128 ≠ 0 || bits c.d1.toNat 336 160 ≠ 0))
    || (c.op = 2 && (c.fill / 32 ≠ 0 || bits c.d1.toNat 80 128 ≠ 0 || c.dstr 2 ≠ 0 || c.mask ≠ 0 || bits c.d1.toNat 336 80 ≠ 0))
    || (c.op = 3 && !c.streamForm)

/-- Table 16-3 but for DETAIL 10 to 12; `pub` for SPUB. -/
def Copy.formFault (c : Copy) (pub : Bool) : Option Nat :=
  let rep := c.repx || c.repy
  if 5 ≤ c.op ∨ (c.op = 3) ≠ (pub = true) then some 1
  else if 10 ≤ c.wc ∨ (c.wc = 9 ∧ (c.op ≠ 0 ∨ (c.plane ∧ ¬ (c.c0 % 128 = 0 ∧ c.c1 % 128 = 0 ∧ c.dep0 % 128 = 0)))) then some 2
  else if c.dims = 0 ∨ 5 < c.dims ∨ (List.range 5).any (fun k => (c.ext k = 0) = decide (k < c.dims)) ∨ (c.btab ∧ c.dims ≠ 5) then some 3
  else if 6 ≤ c.swz ∨ (c.swz ≠ 0 ∧ ¬ c.plane) ∨ (1 ≤ c.swz ∧ c.swz ≤ 4 ∧ rep) ∨ (c.swz = 4 ∧ c.rw ≠ c.rh)
      ∨ (c.swz = 5 ∧ ¬ (c.dep0 % 512 = 0 ∧ c.c0 % 512 = 0 ∧ c.c1 % 512 = 0)) ∨ (c.plane ∧ ¬ c.planeForm)
      ∨ (c.plane ∧ c.allSegs.any fun g => 131072 < g.depth + g.n) then some 4
  else if c.oob = 3 ∨ (c.oob = 1 ∧ c.w < 8) then some 5
  else if (c.red ≠ 0 ∧ c.op ≠ 1) ∨ (c.op = 1 ∧ (¬ redOk c.red c.w ∨ c.plane ∨ (List.range c.total).any fun n => atomBreach (c.dstAt n) c.w)) then some 6
  else if ((c.mcast ∨ rep ∨ c.lsh) ∧ ¬ c.plane) ∨ (c.mcast ∧ ¬ c.oneCore) then some 7
  else if c.unusedSet then some 8
  else if c.op = 2 ∧ ¬ c.mxForm then some 9
  else none

/-! ## The capability checks (R280) -/

/-- The least and greatest of a product over the coordinates of a dimension that are visited. -/
def spanOf (lo hi : Int) (step : Int) : Int × Int := (min (lo * step) (hi * step), max (lo * step) (hi * step))

/-- The first and last coordinate read of a dimension: inside the tensor where it is bounds-checked. -/
def Copy.readRange (c : Copy) (k : Nat) : Int × Int :=
  let lo := c.org k
  let hi := c.org k + c.ext k - 1
  if c.tdim k = 0 then (lo, hi) else (max lo 0, min hi (c.tdim k - 1))

/-- The extreme source addresses of the box; none when nothing is read. -/
def Copy.srcEnds (c : Copy) : List Nat :=
  let ks := List.range c.dims
  if c.op = 4 ∨ c.btab ∨ ks.any (fun k => (c.readRange k).2 < (c.readRange k).1) then []
  else
    let sp := ks.map fun k => spanOf (c.readRange k).1 (c.readRange k).2 (c.sStep k)
    [modw 64 ((c.src.cursor : Int) + sumInt (sp.map (·.1))), modw 64 ((c.src.cursor : Int) + sumInt (sp.map (·.2)))]

/-- The least and greatest of a list. -/
def endsOf (l : List Nat) : List Nat := [l.foldl min (l.headD 0), l.foldl max 0]

/-- The same copy without multicast, and without replication. -/
def Copy.noCast (c : Copy) : Copy := { c with d0 := c.d0 &&& ~~~(BitVec.ofNat 512 (2 ^ 411)) }
def Copy.noRep (c : Copy) : Copy := { c with d0 := c.d0 &&& ~~~(BitVec.ofNat 512 (3 * 2 ^ 414)) }

/-- R286: where the native scale byte of block j goes. -/
def Copy.scaleAt (c : Copy) (j : Nat) : Nat := modw 64 ((c.dst.cursor : Int) + signed 32 (c.dstr 1) + (8 * j : Nat))

/-- R286: where the scale byte of block j comes from. -/
def Copy.scaleFrom (c : Copy) (j : Nat) : Nat := modw 64 ((c.table.cursor : Int) + (8 * j : Nat))

/-- The extreme destination addresses, with the bits at each. -/
def Copy.dstEnds (c : Copy) : List (Nat × Nat) :=
  if c.op = 3 then []
  else if c.plane then
    let l := c.noCast.allSegs.map fun (g : Seg) => (planeAddr g.pe g.depth, g.n)
    [l.foldl (fun m g => if g.1 < m.1 then g else m) (l.headD (0, 0)), l.foldl (fun m g => if m.1 + m.2 < g.1 + g.2 then g else m) (0, 0)]
  else
    let sp := (List.range c.dims).map fun k => spanOf 0 (c.ext k - 1) (c.dStep k)
    [(modw 64 ((c.dst.cursor : Int) + sumInt (sp.map (·.1))), c.w), (modw 64 ((c.dst.cursor : Int) + sumInt (sp.map (·.2))), c.w)]
      ++ if c.op = 2 then [(c.scaleAt 0, 8), (c.scaleAt (c.ext 0 / 32 - 1), 8)] else []

/-- R281: the table entry of a visit. -/
def Copy.entryFor (c : Copy) (k : Int) : Nat := modw 64 ((c.table.cursor : Int) + 64 * k)

/-- The addresses read through TABLE, with the bits at each: the extremes first. Where none is read, TABLE must still be a capability that
grants its use, so no bit at its base stands for them. -/
def Copy.tableReads (c : Copy) : List (Nat × Nat) :=
  if c.btab then
    let r := c.readRange 4
    if r.2 < r.1 then [(c.table.base, 0)]
    else [(c.entryFor r.1, 64), (c.entryFor r.2, 64)] ++ (List.range (r.2 - r.1).toNat).map fun (i : Nat) => (c.entryFor (r.1 + i), 64)
  else if c.op = 2 then
    [(c.scaleFrom 0, 8), (c.scaleFrom (c.ext 0 / 32 - 1), 8)] ++ (List.range (c.ext 0 / 32)).map fun j => (c.scaleFrom j, 8)
  else []

/-- cap_check at each address; the first failure. An element of width code 9 is a capability, aligned as one (R50, R61; log 115). -/
def capsAt (k : Cap) (p : Nat) (kind : AKind) (capForm : Bool) (which j : Nat) : List (Nat × Nat) → Option Trap
  | [] => none
  | (a, w) :: l => match capCheck k a w p kind capForm with
    | some code => some { code := code, detail := 3, tinfo := which + j * 16, taddr := a }
    | none => capsAt k p kind capForm which j l

/-- R48, R50 and R55 for the elements of SRC (0) or DST (1) between the extremes. -/
def Copy.innerAlign (c : Copy) (k : Cap) (kind : AKind) (which j : Nat) (addr : Nat → Nat) (ok : Nat → Bool) : Option Trap :=
  if k.space = 1 ∨ k.space = 2 ∨ c.wc = 9 then
    (List.range c.total).findSome? fun n =>
      if ok n && misaligned k.space (addr n) c.w kind (c.wc = 9) then some { code := cALIGN, detail := 3, tinfo := which + j * 16, taddr := addr n } else none
  else none

/-- The ring as a whole, each record as an access of its own (R48, R55): in the plane, records off 256 bits run past a cell's end where
the ring does. -/
def ringCaps (r : Cap) (n j : Nat) : Option Trap :=
  let t : Trap := { code := cALIGN, detail := 3, tinfo := 3 + j * 16, taddr := r.cursor }
  match capCheck r r.cursor (256 * 2 ^ n) (pStore + pEngine) .store false with
  | none => none
  | some code =>
    if code ≠ cALIGN then some { t with code := code }
    else if r.space ≠ 1 then some t
    else if r.cursor % 256 = 0 then none
    else some { t with taddr := r.cursor + (131072 - r.cursor % 131072) / 256 * 256 }

/-- The four capabilities in turn: SRC, DST, TABLE, ring. -/
def Copy.capFault (c : Copy) (j : Nat) : Option Trap :=
  let kind : AKind := if c.op = 1 then .reduce else .store
  let src := if c.op = 4 then none
    else if c.btab ∨ c.srcEnds = [] then capsAt c.src (pLoad + pEngine) .load false 0 j [(c.src.base, 0)]
    else (capsAt c.src (pLoad + pEngine) .load (c.wc = 9) 0 j (c.srcEnds.map fun a => (a, c.w))).orElse fun _ =>
      c.innerAlign c.src .load 0 j (c.srcAt c.src.cursor) c.inb
  src.orElse fun _ =>
    (capsAt c.dst (pStore + pEngine + if c.op = 1 then pAtomic else 0) kind (c.wc = 9 && !c.plane) 1 j c.dstEnds).orElse fun _ =>
      ((if c.plane ∨ c.op = 3 then none else c.innerAlign c.dst kind 1 j c.dstAt fun _ => true) : Option Trap).orElse fun _ =>
        (capsAt c.table (pLoad + pEngine) .load false 2 j c.tableReads).orElse fun _ =>
          match c.ring with
          | some (r, n, _) => ringCaps r n j
          | none => none

/-! ## Reading by engines -/

/-- What an engine's read gives. -/
inductive Fetched where
  | got (s : State) (v : Nat) (bad : Bool)
  /-- a translation fault -/
  | fault (m : Miss)
  | unreachable
  /-- a tripped layer, which is named; a landing line; or an island in retention -/
  | waits (layer : Option Nat)

/-- The bits of an uncorrectable word as read. -/
def State.badBits (s : State) : State × Nat := ({ s with freeCount := s.freeCount + 1 }, (Config.badBits s.freeCount).toNat)

/-- The argument block of the launch behind an engine. -/
def State.argOf (s : State) (who : Who) : List Host.Cell := (find s.launches who.launch).elim [] (·.argMem)

/-- A read by an engine for a context; `fillv` is what a hole gives. -/
def State.engineGet (s : State) (who : Who) (asid : BitVec 14) (sp a w : Nat) (fillv : Lane) : Fetched :=
  if sp = 1 then
    if s.holeFor who.launch (a / 131072) then .got s (fillBits fillv w) false
    else if (linesIn a w).any fun l => !(s.line l).present || s.retained l then .waits none
    else .got s (s.planeRead a w) (s.planePoison a w)
  else if sp = 2 then .got s (readBits s.host a w) false
  else if sp = 5 then .got s (readBits (s.argOf who) a w) false
  else match s.getFarAs who who.line asid sp a w .load with
    | .error m => .fault m
    | .ok g => match g.waits, g.bad with
      | some ly, _ => .waits (some ly)
      | none, some (3, _) => .unreachable
      | none, some _ => let (s1, b) := g.st.badBits; .got s1 (b % 2 ^ w) true
      | none, none => .got g.st g.n false

/-- The engine that runs a copy: its scribe's, or for a copy of a packet one whose index the manual does not
give. -/
def Copy.engine (c : Copy) : BitVec 14 :=
  if c.queue.isSome then engineId 0 (Config.packetEngine % 1024) else engineId 0 (engIndex c.sid)

/-- The agent of a copy. -/
def Copy.who (c : Copy) : Who :=
  match c.coll with
  | some slot => { code := (engineId 4 slot).toNat, sid := some c.sid, team := c.team, asid := c.asid, launch := c.launch, place := c.place }
  | none => { code := c.engine.toNat, sid := if c.queue.isSome then none else some c.sid, team := c.team, asid := c.asid, launch := c.launch, place := c.place }

/-- The agent of a read that belongs to a line request, which has checked its words (R340, R365). -/
def Copy.reader (c : Copy) : Who := { c.who with quiet := true }

/-! ## The line checks (R287) -/

/-- What a visit reads: the spaces, addresses and widths of its reads, the first from a base. A block table's base is in memory. -/
def Copy.readsAt (c : Copy) (base n : Nat) : List (Nat × Nat × Nat) :=
  if c.op = 4 ∨ c.inb n = false then []
  else (c.src.space, c.srcAt base n, c.w)
    :: ((if c.btab then [(c.table.space, c.entryFor (c.coord n 4), 64)] else [])
      ++ (if c.op = 2 ∧ n % 32 = 0 then [(c.table.space, c.scaleFrom (n / 32), 8)] else []))

/-- The base that a visit's entry of a block table gives as it stands, where it is to be read now. -/
def State.baseNow (s : State) (c : Copy) (n : Nat) : Option Nat :=
  if c.btab = false then some c.src.cursor
  else match s.engineGet c.reader c.asid c.table.space (c.entryFor (c.coord n 4)) 64 0 with
    | .got _ v false => some v
    | _ => none

/-- The reads of a visit whose addresses are known: those of its table and, from an entry as it stands, of its source, where the source's
capability covers it. -/
def State.readsNow (s : State) (c : Copy) (n : Nat) : List (Nat × Nat × Nat) :=
  match s.baseNow c n with
  | some b => if c.btab ∧ (capCheck c.src (c.srcAt b n) c.w (pLoad + pEngine) .load (c.wc = 9)).isSome then (c.readsAt b n).drop 1 else c.readsAt b n
  | none => (c.readsAt 0 n).drop 1

/-- The plane lines that a copy reads from visit `from_` on, without repeats: of its source and of its table. Those that a block table names
are taken from its entries as they stand; they are checked again when the walk reads them (log 117). -/
def Copy.readLines (s : State) (c : Copy) (from_ : Nat) : List Nat :=
  ((List.range c.total).flatMap fun n => if from_ ≤ n then
    (s.readsNow c n).flatMap fun r => if r.1 = 1 then (linesIn r.2.1 r.2.2).filter fun l => !s.holeFor c.launch (peOfLine l) else []
    else []).eraseDups

/-- The plane lines of a ring entry that a record is owed to. -/
def recordLines (ring : Option (Cap × Nat × Nat)) : List Nat :=
  match ring with
  | some (r, n, seq) => if r.space = 1 then linesIn (modw 64 ((r.cursor : Int) + (256 * (seq % 2 ^ n) : Nat))) 256 else []
  | none => []

/-- The landings that are not dropped on holes. -/
def Copy.liveSegs (s : State) (c : Copy) : List Seg := c.allSegs.filter fun g => !s.holeFor c.launch g.pe

/-- The destination lines with the bits that land on each. -/
def Copy.destLines (s : State) (c : Copy) : Tbl (Nat × Nat) :=
  if ¬ c.plane then []
  else (c.liveSegs s).foldl (fun t g => let n := (look (0, 0) t g.line).1 + g.n; set t g.line (n, n)) []

/-- A kick's check of one line: OK, or a wait, or the OWNERSHIP report. A source line that is landing for the kicker passes, as R287 says
of a copy, though Table 09-4 has OWNERSHIP for every engine's read of it: the model's choice between the two (log 107). -/
def State.kickSayOf (s : State) (id team : BitVec 14) (store mcast : Bool) (lane ln : Nat) : LineSay :=
  let m := s.line ln
  if mcast then
    if s.retained ln then .waits .retention
    else if m.st = .engine ∧ m.present ∧ m.owner = 0x100 then .ok else .bad (ownInfo m lane false)
  else
    match s.lineSay id team store lane ln with
    | .landing => .ok
    | x => x

/-- The same for the issuing scribe as the kicker. -/
def State.kickSay (s : State) (store mcast : Bool) (lane ln : Nat) : LineSay := s.kickSayOf s.me.at_.id s.me.at_.team store mcast lane ln

/-- The segments would change a bit of a live barrier object in a line (R262). -/
def State.segsHit (s : State) (gs : List Seg) (ln : Nat) : Bool := gs.any fun g => g.line = ln && s.barHit (planeAddr g.pe g.depth) g.n

/-- Check lines in order: the first wait, else the first failure; `gs` is what a copy writes to them. -/
def State.kickLines (s : State) (store mcast : Bool) (lane : Nat) (gs : List Seg) (ls : List Nat) : Res Unit :=
  match s.firstWait (ls.map fun l => (s.kickSay store mcast lane l, l)) with
  | some e => .error e
  | none => match ls.findSome? fun l => match s.kickSay store mcast lane l with
    | .bad t => some (l, t)
    | _ => none with
  | some (l, t) => trap { code := cOWNERSHIP, detail := 4, tinfo := if s.segsHit gs l then t + 2 ^ 24 else t, taddr := 512 * l }
  | none => .ok ()

/-- R262: a landing over a live barrier object. -/
def State.kickBars (s : State) (lane : Nat) (gs : List Seg) : Res Unit :=
  match gs.find? fun g => s.barHit (planeAddr g.pe g.depth) g.n with
  | some g => trap { code := cOWNERSHIP, detail := 4, tinfo := barInfo (s.line g.line) lane, taddr := 512 * g.line }
  | none => .ok ()

/-- R191, R262: the line of the ring entry that a kick of the issuing scribe reserves, when the ring lies in the plane; on a hole the record
is dropped (R195). -/
def State.ringLine (s : State) (lane : Nat) (ring : Option (Cap × Nat × Nat)) : Res Unit :=
  match ring with
  | none => .ok ()
  | some (r, n, seq) =>
    let a := modw 64 ((r.cursor : Int) + (256 * (seq % 2 ^ n) : Nat))
    if r.space ≠ 1 ∨ s.hole (a / 131072) then .ok ()
    else match s.kickLines true false lane [] (linesIn a 256) with
      | .error e => .error e
      | .ok _ => if s.barHit a 256 then trap { code := cOWNERSHIP, detail := 4, tinfo := barInfo (s.line (a / 512)) lane, taddr := 512 * (a / 512) } else .ok ()

/-- Under strict holes, the destination positions (R287). -/
def Copy.holePes (s : State) (c : Copy) : List Nat :=
  ((List.range c.rh).flatMap fun v => (List.range c.rw).flatMap fun u => c.noRep.places c.die u v).map (·.2)
    |>.filter (s.holeFor c.launch) |>.eraseDups

/-- The objects that a copy's landings count on: of a multicast, one in every core of its mask (R282). -/
def Copy.barObjs (c : Copy) : List Nat :=
  if c.op = 3 ∨ c.bar = noBar then []
  else if c.mcast then
    ((List.range 64).filter fun k => bits c.mask k 1 = 1).map fun k =>
      let (ox, oy) := coreOrigin (64 * c.die + k)
      let b := c.bar / 131072
      planeAddr (256 * (oy + b / 256 % 16) + ox + b % 256 % 16) (c.bar % 131072)
  else [c.bar]

/-- The plane lines that a kick of a copy accesses for its scribe: those it reads, those it lands on, its objects', and its ring entry's. -/
def Copy.kicked (s : State) (c : Copy) : List Nat :=
  c.readLines s 0 ++ (c.destLines s).map (·.1) ++ c.barObjs.map (· / 512) ++ recordLines c.ring

/-- DETAIL 10: BAR. A line that waits is waited for. -/
def State.barFault (s : State) (c : Copy) (t : Trap) : Res Unit :=
  if c.barObjs.any fun b => b % 256 ≠ 0 || (find s.bars b).isNone then trap t
  else match s.firstWait (c.barObjs.map fun b => (s.kickSay false false 0 (b / 512), b / 512)) with
    | some e => .error e
    | none => require (∀ b ∈ c.barObjs, s.kickSay false false 0 (b / 512) = .ok) t

/-- DETAIL 11: the ring that QRING names. -/
def State.ringFault (s : State) (c : Copy) : Bool :=
  c.crec && (bits s.me.ctl.qring.toNat 4 4 = 0 || 14 ≤ bits s.me.ctl.qring.toNat 0 4)

def quillFault (detail j addr : Nat) : Trap := { code := cQUILL_FAULT, detail := detail, tinfo := j, taddr := addr }

/-- Every check of a descriptor at kick, in the order of R287. -/
def State.checkCopy (s : State) (c : Copy) (pub : Bool) (lane j addr : Nat) : Res Unit :=
  match c.formFault pub with
  | some d => trap (quillFault d j addr)
  | none =>
    match s.barFault c (quillFault 10 j addr) with
    | .error e => .error e
    | .ok _ => match (if s.ringFault c then trap (quillFault 11 j addr)
        else if c.crec then (s.cval (bits s.me.ctl.qring.toNat 0 4)).map fun _ => () else .ok ()) with
    | .error e => .error e
    | .ok _ => match c.capFault j with
      | some t => trap t
      | none =>
        let holes := if c.plane ∧ s.me.at_.strict then c.holePes s else []
        if holes ≠ [] then
          trap { code := cHOLE_ACCESS, detail := 6, tinfo := holes.length % 1024, taddr := planeAddr (holes.foldl min (holes.headD 0)) c.dep0 }
        else match s.kickLines false false lane [] (c.readLines s 0) with
          | .error e => .error e
          | .ok _ => match s.kickLines true c.mcast lane (if c.plane then c.liveSegs s else []) ((c.destLines s).map (·.1)) with
            | .error e => .error e
            | .ok _ => match (if c.plane then s.kickBars lane (c.liveSegs s) else .ok ()) with
              | .error e => .error e
              | .ok _ => s.ringLine lane c.ring

/-! ## Starting a copy -/

/-- The copy of a descriptor in two lines with the tags of the first. -/
def mkCopy (sid team asid : BitVec 14) (queue : Option (Nat × BitVec 32 × BitVec 32)) (d0 d1 : BitVec 512) (tags : BitVec 4) : Copy :=
  let cap := fun (u : Nat) => (⟨bits tags.toNat u 1 = 1, BitVec.ofNat 128 (bits d0.toNat (128 * u) 128)⟩ : Cap)
  { sid := sid, team := team, asid := asid, launch := noLaunch, queue := queue, d0 := d0, d1 := d1, src := cap 0, dst := cap 1, table := cap 2,
    pos := 0, bitsDone := 0, status := 0, fcode := 0, fdetail := 0, ring := none, owed := [], passers := [], badLines := [], reqBits := [],
    srcLines := [], ended := false, coll := none, queued := 0 }

/-- A destination line turns to the quill, PRESENT 0 (R287). -/
def State.takeLine (s : State) (sid : BitVec 14) (packet : Bool) (owner : BitVec 14) (lsh : Bool) (ln : Nat) : State :=
  let s := s.touchLine ln
  s.setLine ln { s.line ln with st := .engine, owner := owner, holder := sid, landShared := lsh, packet := packet, present := false }

def State.takeLines (s : State) (sid : BitVec 14) (packet : Bool) (owner : BitVec 14) (lsh : Bool) : List Nat → State
  | [] => s
  | l :: ls => (s.takeLine sid packet owner lsh l).takeLines sid packet owner lsh ls

/-- Keep a copy, or one that only owes its record, under the next key. -/
def State.addCopy (s : State) (c : Copy) : State :=
  { s with copies := set s.copies s.nextCopy { c with place := placeOf .copy s.nextCopy }, nextCopy := s.nextCopy + 1 }

/-- Start a copy that has passed its checks. -/
def State.startCopy (s : State) (c : Copy) : State :=
  let dest := c.destLines s
  let c := { c with owed := dest, srcLines := c.readLines s 0,
                    passers := if c.mcast then dest.map fun p => (p.1, (s.line p.1).holder) else [] }
  (s.takeLines c.sid c.queue.isSome c.engine c.lsh (dest.map (·.1))).addCopy c

/-! ## Landing and counting (R288, R289) -/

/-- The barrier a landing counts on: with multicast, the object of the line's own core. -/
def Copy.barAt (c : Copy) (pe : Nat) : Nat :=
  if c.mcast then
    let (ox, oy) := coreOrigin (pkgCoreAt (pe % 256) (pe / 256))
    let b := c.bar / 131072
    planeAddr (256 * (oy + b / 256 % 16) + ox + b % 256 % 16) (c.bar % 131072)
  else c.bar

/-- Subtract bits from PEND; NOBAR when the object is not live. -/
def State.countBits (s : State) (c : Copy) (pe n : Nat) : State × Copy :=
  if c.bar = noBar ∨ n = 0 then (s, c)
  else
    let (s1, live) := s.landing (c.barAt pe) n
    (s1, if live then c else { c with status := c.status ||| 2 ^ 7 })

/-- Who owns a line after it lands. -/
def Copy.landOwner (c : Copy) (s : State) (ln : Nat) : OwnSt × BitVec 14 :=
  match find c.passers ln with
  | some p => if c.lsh then (.shared, match s.scribe p with
      | some k => k.at_.team
      | none => c.team) else (.own, p)
  | none => if c.lsh then (.shared, c.team) else (.own, c.sid)

/-- R288: a line lands; with `bad` it carries POISON. POISON that it had clears when one line request, the quill's unit of writing, has
written all of it (R190, log 116). -/
def State.landLine (s : State) (c : Copy) (ln total : Nat) (bad : Bool) : State × Copy :=
  let (st, owner) := c.landOwner s ln
  let m := s.line ln
  let poison := bad || (m.poison && look 0 c.reqBits ln < 512)
  let s1 := (s.touchLine ln).setLine ln { m with st := st, owner := owner, holder := 0, landShared := false, packet := false, present := true, poison := poison }
  (s1.resolveLanded.progress c.asid).countBits { c with owed := del c.owed ln } (peOfLine ln) total

/-- Write one run of an element into its cell. -/
def State.putSeg (s : State) (c : Copy) (g : Seg) (v : Nat) (tag bad : Bool) : State × Copy :=
  let c := { c with bitsDone := c.bitsDone + g.n }
  if s.holeFor c.launch g.pe then s.countBits { c with status := c.status ||| 2 ^ 13 } g.pe g.n
  else match find c.owed g.line with
    | none => (s, c)
    | some (left, total) =>
      let a := planeAddr g.pe g.depth
      let s1 := s.planeStore a g.n (v / 2 ^ g.off % 2 ^ g.n)
      let m := s1.line g.line
      let s2 := if tag ∧ g.n = 128 ∧ a % 128 = 0 then s1.setLine g.line { m with tags := m.tags ||| BitVec.ofNat 4 (2 ^ (a % 512 / 128)) } else s1
      let c0 := { c with reqBits := put 0 c.reqBits g.line (look 0 c.reqBits g.line + g.n) }
      let c1 := if bad then { c0 with badLines := g.line :: c0.badLines } else c0
      if left ≤ g.n then s2.landLine c1 g.line total (c1.badLines.contains g.line)
      else (s2, { c1 with owed := set c1.owed g.line (left - g.n, total) })

def State.putSegs (s : State) (c : Copy) (v : Nat) (tag bad : Bool) : List Seg → State × Copy
  | [] => (s, c)
  | g :: gs =>
    let (s1, c1) := s.putSeg c g v tag bad
    s1.putSegs c1 v tag bad gs

/-! ## Writing by engines -/

/-- What an engine's write gives. -/
inductive Stored where
  | done (s : State)
  | fault (m : Miss)
  | unreachable
  | waits (layer : Nat)

/-- Whether bits of space 3 are out of reach. -/
def State.outOfReach (s : State) (sp a w : Nat) : Bool := sp = 3 && (s.ownWindow a w).isNone && !s.peerReachable a

/-- What an engine does ends the interval of the team behind it, if one is (R348). -/
def State.endFor (s : State) (who : Who) (why : Nat) : State := if who.sid.isSome then s.endRollback who.team why else s

/-- A write by an engine, outside the plane. -/
def State.engineSet (s : State) (who : Who) (asid : BitVec 14) (sp a w v : Nat) (k : AKind) (bad : Bool) : Stored :=
  if sp = 2 then .done ((s.hostWrite a w v bad).endFor who 5)
  else if s.outOfReach sp a w then .unreachable
  else match s.putFarAs who who.line asid sp a w v k bad with
    | .error m => .fault m
    | .ok p => match p.waits with
      | some ly => .waits ly
      | none => .done (if p.dev then p.st.endFor who 5 else p.st)

/-! ## Reduce operations (Table 16-5) -/

def reduceFmt : Nat → Fmt
  | 2 => .bf16
  | 3 => .f16
  | _ => .f32

/-- m ⊕ v, and the STATUS bits it sets: 5 invalid, 6 overflow. -/
def reduceOp (red w m v : Nat) : Nat × Nat :=
  match red with
  | 0 => ((m + v) % 2 ^ w, 0)
  | 4 => (AmoOp.new .minI w m v 0, 0)
  | 5 => (AmoOp.new .maxI w m v 0, 0)
  | 6 => (min m v, 0)
  | 7 => (max m v, 0)
  | 8 => (fminmax false .f32 m v, 0)
  | 9 => (fminmax true .f32 m v, 0)
  | 10 => (m &&& v, 0)
  | 11 => (m ||| v, 0)
  | 12 => (m ^^^ v, 0)
  | r =>
    let f := reduceFmt r
    let t := Val.sum 0 [fval f m, fval f v]
    let o := round t.1 f { mode := 0, daz := false, ftz := false, sat := false } 0
    (o.code, (if t.2 &&& fNV ≠ 0 then 32 else 0) + (if o.flags &&& fOF ≠ 0 then 64 else 0))

/-! ## One element (R281 to R286) -/

/-- What one element comes to. -/
inductive Elem where
  | next (s : State) (c : Copy)
  | waits (layer : Option Nat)
  | fault (m : Miss) (k : AKind)
  /-- the copy fails (R294): FCODE and FDETAIL -/
  | fails (code detail : Nat)

/-- The FILLV that a hole in the source gives. -/
def Copy.fillv (c : Copy) (s : State) : Lane := match s.scribe c.sid with
  | some k => if k.at_.team = c.team ∧ c.queue.isNone then k.ctl.fillv else 0
  | none => 0

/-- An element written to memory, as a store or as a reduce-on-store. -/
def State.elemStore (s : State) (c : Copy) (a w v : Nat) (tag bad : Bool) : Elem :=
  let who := c.who
  if c.op = 1 then
    match (if c.dst.space = 2 then Fetched.got s (readBits s.host a w) false
        else match s.getFarAs who who.line c.asid c.dst.space a w .reduce with
          | .error m => .fault m
          | .ok g => match g.waits, g.bad with
            | some ly, _ => .waits (some ly)
            | none, some (3, _) => .unreachable
            | none, some _ => .got g.st g.n true
            | none, none => .got g.st g.n false) with
    | .waits ly => .waits ly
    | .fault m => .fault m .reduce
    | .unreachable => .fails cPOISON 1
    | .got s1 m _ =>
      let (r, st) := reduceOp c.red w m v
      match s1.engineSet c.reader c.asid c.dst.space a w r .reduce bad with
      | .waits ly => .waits (some ly)
      | .fault m => .fault m .reduce
      | .unreachable => .fails cPOISON 1
      | .done s2 =>
        let (s3, c3) := (s2.endFor who 3).countBits { c with bitsDone := c.bitsDone + w, status := c.status ||| st } 0 w
        .next s3 c3
  else match s.engineSet who c.asid c.dst.space a w v .store bad with
    | .waits ly => .waits (some ly)
    | .fault m => .fault m .store
    | .unreachable => .fails cPOISON 1
    | .done s1 =>
      let k : Cap := ⟨true, BitVec.ofNat 128 v⟩
      let s2 := if tag then s1.setTagAtAs s c.who c.asid c.dst k a else s1
      let (s3, c3) := s2.countBits { c with bitsDone := c.bitsDone + w } 0 w
      .next s3 c3

/-- Place the value of visit n. -/
def State.place_ (s : State) (c : Copy) (n v : Nat) (tag bad : Bool) : Elem :=
  let c := if bad then { c with status := c.status ||| 8 } else c
  if c.plane then
    let (s1, c1) := s.putSegs c v tag bad (c.segs c.die n)
    .next s1 c1
  else s.elemStore c (c.dstAt n) c.w v tag bad

/-- The base of a visit's source address, with a block table's entry as it stands. -/
def State.baseOf (s : State) (c : Copy) (n : Nat) : Nat :=
  if c.btab then s.engineRead c.who c.asid c.table.space (c.entryFor (c.coord n 4)) 64 else c.src.cursor

/-- R62: whether a copy keeps tags: every unit it reads and writes is aligned. -/
def State.keepsTags (s : State) (c : Copy) : Bool :=
  c.wc = 9 && c.src.has pLoadCap && c.dst.has pStoreCap
    && (List.range c.total).all fun n => (!c.inb n || c.srcAt (s.baseOf c n) n % 128 = 0) && (c.plane || c.dstAt n % 128 = 0)

/-- The value of a visit, with its tag and poison. -/
inductive Value where
  | got (s : State) (c : Copy) (v : Nat) (tag bad : Bool)
  | waits (layer : Option Nat)
  | fault (m : Miss)
  | fails (code detail : Nat)

/-- Read an element from a base. -/
def State.readElem (s : State) (c : Copy) (base n : Nat) : Value :=
  let a := c.srcAt base n
  match s.engineGet c.reader c.asid c.src.space a c.w (c.fillv s) with
  | .waits ly => .waits ly
  | .fault m => .fault m
  | .unreachable => .fails cPOISON 1
  | .got s1 v bad => .got s1 c v (s.keepsTags c && a % 128 = 0 && !bad && s.tagAtAs c.who c.asid c.launch c.src a) bad

/-- R294: FCODE and FDETAIL of an element whose address a block table gave and that fails a check (R61, R191): R294 names the bounds, and
the model treats the other checks alike, with the DETAIL a kick would report (log 117). A packet's copy has no scribe for a line to be
loadable by. -/
def State.baseFault (s : State) (c : Copy) (a : Nat) : Option (Nat × Nat) :=
  match capCheck c.src a c.w (pLoad + pEngine) .load (c.wc = 9) with
  | some code => some (code, 3)
  | none =>
    if c.src.space = 1 ∧ s.holeFor c.launch (a / 131072) = false ∧ (linesIn a c.w).any (fun l => c.queue.isSome || (match s.kickSayOf c.sid c.team false false 0 l with
      | .bad _ => true
      | _ => false)) then some (cOWNERSHIP, 4) else none

/-- R281: v for one visit. -/
def State.elemValue (s : State) (c : Copy) (n : Nat) : Value :=
  if c.op = 4 then .got s c c.oobVal false false
  else if c.inb n = false then .got s { c with status := c.status ||| 2 ^ 8 } c.oobVal false false
  else if c.btab then
    match s.engineGet c.reader c.asid c.table.space (c.entryFor (c.coord n 4)) 64 0 with
    | .waits ly => .waits ly
    | .fault m => .fault m
    | .unreachable => .fails cPOISON 1
    | .got s1 base bad =>
      if bad then .fails cPOISON 1
      else match s1.baseFault c (c.srcAt base n) with
        | some (code, d) => .fails code d
        | none => s1.readElem c base n
  else s.readElem c c.src.cursor n

/-- R281 for one visit of a copy that is no MX copy. -/
def State.copyElem (s : State) (c : Copy) (n : Nat) : Elem :=
  match s.elemValue c n with
  | .got s1 c1 v tag bad => s1.place_ c1 n v tag bad
  | .waits ly => .waits ly
  | .fault m => .fault m .load
  | .fails code d => .fails code d

/-- R286: the native scale byte of an OCP scale, and whether it was clamped. -/
def mxScale (t s : Nat) : Nat × Bool :=
  if s = 0xFF then (t * 64 + 63, false)
  else if s < 95 then (t * 64, true)
  else if 62 < s - 95 then (t * 64 + 62, true)
  else (t * 64 + (s - 95), false)

/-- R286: an element of an MX copy, and the scale of its block before the first one. -/
def State.mxElem (s : State) (c : Copy) (n : Nat) : Elem :=
  let elem := fun (s : State) (c : Copy) =>
    match s.engineGet c.reader c.asid c.src.space (modw 64 ((c.src.cursor : Int) + c.w * n)) c.w (c.fillv s) with
    | .waits ly => Elem.waits ly
    | .fault m => .fault m .load
    | .unreachable => .fails cPOISON 1
    | .got s1 v bad => s1.elemStore (if bad then { c with status := c.status ||| 8 } else c) (modw 64 ((c.dst.cursor : Int) + c.w * n)) c.w v false bad
  if n % 32 ≠ 0 then elem s c
  else match s.engineGet c.reader c.asid c.table.space (c.scaleFrom (n / 32)) 8 0 with
    | .waits ly => .waits ly
    | .fault m => .fault m .load
    | .unreachable => .fails cPOISON 1
    | .got s1 b bad =>
      let (x, clamped) := mxScale (if c.fill = 0x10 then 1 else 0) b
      let c1 := { c with status := c.status ||| (if clamped then 16 else 0) ||| (if bad then 8 else 0) }
      match s1.elemStore c1 (c.scaleAt (n / 32)) 8 x false bad with
      | .next s2 c2 => elem s2 c2
      | e => e

def State.elem (s : State) (c : Copy) (n : Nat) : Elem := if c.op = 2 then s.mxElem c n else s.copyElem c n

/-! ## The end of a copy (R292, R294) -/

/-- Land every line that is left, holding what was written so far, with POISON. -/
def State.landRest (s : State) (c : Copy) : List (Nat × Nat × Nat) → State × Copy
  | [] => (s, c)
  | (ln, _, total) :: rest =>
    let (s1, c1) := s.landLine c ln total true
    s1.landRest c1 rest

/-- Bits not yet counted that land on no line, with the PE whose core they count in: elements of memory, and pieces on holes. -/
def Copy.owedElse (s : State) (c : Copy) : List (Nat × Nat) :=
  if c.plane then
    ((List.range c.total).filter fun n => c.pos ≤ n).flatMap fun n => ((c.segs c.die n).filter fun g => s.holeFor c.launch g.pe).map fun g => (g.pe, g.n)
  else [(0, (c.total - c.pos) * c.w + if c.op = 2 then (c.total / 32 - (c.pos + 31) / 32) * 8 else 0)]

def State.countAll (s : State) (c : Copy) (l : List (Nat × Nat)) : State × Copy := l.foldl (fun p q => p.1.countBits p.2 q.1 q.2) (s, c)

/-- A packet's COPY, when it ends, is complete. -/
def State.copyGone (s : State) (k : Nat) (c : Copy) : State := { s with copies := del s.copies k }.progress c.asid

/-- The walk is over: the record, or nothing, is left. -/
def State.endWalk (s0 : State) (k : Nat) (c : Copy) : State :=
  let s := s0.leaveLine c.who
  let c := { c with ended := true, srcLines := [], queued := 0 }
  if c.ring.isSome ∨ c.queue.isSome then { s with copies := set s.copies k c } else s.copyGone k c

/-- R294: a copy that stops early. -/
def State.stopCopy (s : State) (k : Nat) (c : Copy) (bit code detail : Nat) : State :=
  let c := { c with status := c.status ||| bit, fcode := code, fdetail := detail }
  let rest := c.owedElse s
  let (s1, c1) := s.landRest c c.owed
  let (s2, c2) := s1.countAll c1 rest
  s2.endWalk k c2

/-- Elements in a line request of 512 bits (R276). -/
def Copy.perRequest (c : Copy) : Nat := max 1 (512 / c.w)

/-- The end of a line request: source lines read for the last time are no longer held (R287). -/
def State.closeReq (s : State) (k : Nat) (c : Copy) : State :=
  { (s.leaveLine c.who) with copies := set s.copies k { c with reqBits := [], srcLines := c.srcLines.filter fun l => (c.readLines s c.pos).contains l } }

/-- The reads of global memory of visits n .. n + m - 1. -/
def Copy.reqReads (s : State) (c : Copy) (n m : Nat) : List (Nat × Nat × Nat) :=
  ((List.range m).map (· + n)).flatMap fun i =>
    if c.total ≤ i then []
    else
      (c.readsAt (s.baseOf c i) i).filter fun r => r.1 = 0 ∨ r.1 = 3

/-- The words at the homes that a read touches: none when it cannot be served now. -/
def State.homeWords (s : State) (who : Who) (asid : BitVec 14) (r : Nat × Nat × Nat) : List Nat :=
  match s.served asid r.1 r.2.1 r.2.2 with
  | some (id, v) =>
    (match s.translate who.core id .load v r.2.2 with
    | .ok ps =>
      let ws := s.walksOf who.core id v r.2.2 ++ pieceWords ps
      if (s.heldAt who.sid who.line ws).isSome then [] else ws
    | .error _ => [])
  | none => []

/-- R276, R340, R365: a line request reads each word under its elements once, in ascending order, and a granule crosses its channel as one
beat. -/
def State.requestWords (s : State) (who : Who) (asid : BitVec 14) (rs : List (Nat × Nat × Nat)) : State :=
  let ws := (rs.flatMap (s.homeWords who asid)).foldl (fun t w => put false t w true) []
  (s.readWords who none (ws.map (·.1))).1

/-- Serve up to `m` elements. The first one that waits at a layer has the copy stand in line there. None when nothing can be done. -/
def State.serve (s : State) (k : Nat) (c : Copy) (first : Bool) : Nat → Option State
  | 0 => some (s.closeReq k c)
  | m + 1 =>
    if c.total ≤ c.pos then some (s.endWalk k { c with status := c.status ||| 1 })
    else match s.elem c c.pos with
      | .next s1 c1 => s1.serve k { c1 with pos := c1.pos + 1 } false m
      | .waits ly => if first then s.standBy c.who ly else some (s.closeReq k c)
      | .fails code d => some (s.stopCopy k c 2 code d)
      | .fault m kind =>
        let src := c.engine.toNat
        let s0 := s.walkedTo c.who m
        let waits := if first then none else some (s.closeReq k c)
        if m.detail = 2 then (s0.faultNote c.asid 1 src kind m.detail m.addr).elim waits fun s1 => some (s1.stopCopy k c 2 cTRANSLATION 2)
        else match s0.faultQ c.asid 1 1 src kind m.detail m.addr with
          | (_, none) => waits
          | (s1, some e) => some (s1.closeReq k { c with queued := e + 1 })

/-- R295: the copies of a saved team pause. -/
def State.copyPaused (s : State) (c : Copy) : Bool :=
  match s.team c.team with
  | some t => t.saved && c.queue.isNone
  | none => false

/-- R225, R262: a count on an object waits while a loop reads its line. -/
def State.barReads (s : State) (c : Copy) : Bool := c.barObjs.any fun b => s.loopHolders (b / 512) ≠ []

/-- An engine that waits for something else than a layer lets the others in its line go first. -/
def State.stepAside (s : State) (who : Who) : Option State :=
  if who.place ≠ 0 ∧ s.dies.any (fun d => d.2.waiters.any fun k => k.tag = who.line) then some (s.leaveLine who) else none

/-- R281: one line request. -/
def State.lineReq (s : State) (k : Nat) : Option State :=
  match find s.copies k with
  | none => none
  | some c =>
    if c.ended ∨ c.queued ≠ 0 ∨ s.copyPaused c then none
    else if s.barReads c then s.stepAside c.who
    else (s.requestWords c.who c.asid (c.reqReads s c.pos c.perRequest)).serve k c true c.perRequest

def execLineRequest (k : Nat) (s : State) : Host.Outcome State Fault Refusal :=
  match s.lineReq k with
  | some t => .next t
  | none => .refused .notEnabled

/-! ## Completion records (Table 16-7) -/

def recordBits (time corr fdetail fcode bits' status seq : Nat) : Nat :=
  seq % 2 ^ 32 + status % 2 ^ 16 * 2 ^ 32 + bits' % 2 ^ 64 * 2 ^ 64 + fcode % 256 * 2 ^ 128 + fdetail % 256 * 2 ^ 136
    + corr % 2 ^ 24 * 2 ^ 144 + time % 2 ^ 64 * 2 ^ 192

/-- R191, R225, R262: a record that goes to the plane: served, waiting, or, where the line is not its kicker's or holds a live barrier
object, dropped, and its loss reported as R292 has it for a home that cannot be reached (the model's choice, log 119). -/
def State.planeRecord (s : State) (who : Who) (asid : BitVec 14) (a v : Nat) : Option State :=
  let m := s.line (a / 512)
  if s.loopHolders (a / 512) ≠ [] ∨ s.retained (a / 512) then none
  else if s.holeFor who.launch (a / 131072) then some s
  else if m.st ≠ .own ∨ some m.owner ≠ who.sid ∨ s.barHit a 256 then s.faultNote asid 1 who.code .store 0 a
  else some (s.planeStore a 256 v)

/-- Write a record to its ring. `park` keeps waiting for a page; `gone` ends. None when it waits. -/
def State.writeRecord (s : State) (who : Who) (asid : BitVec 14) (ring : Cap × Nat × Nat) (v : Nat)
    (park : State → Nat → State) (gone : State → State) : Option State :=
  let (r, n, seq) := ring
  let a := modw 64 ((r.cursor : Int) + (256 * (seq % 2 ^ n) : Nat))
  if r.space = 1 then (s.planeRecord who asid a v).map gone
  else match s.engineSet who asid r.space a 256 v .store false with
    | .done s1 => some (gone (s1.leaveLine who))
    | .waits ly => s.standBy who (some ly)
    | .unreachable => (s.faultNote asid 1 who.code .store 0 a).map gone
    | .fault m =>
      let s0 := s.walkedTo who m
      if m.detail = 2 then (s0.faultNote asid 1 who.code .store m.detail m.addr).map gone
      else match s0.faultQ asid 1 1 who.code .store m.detail m.addr with
        | (_, none) => none
        | (s1, some e) => some (park s1 e)

/-- R292: the record of a copy whose walk is over; none while it waits. -/
def State.recordStep (s : State) (k : Nat) : Option State :=
  match find s.copies k with
  | none => none
  | some c =>
    match (if c.ended ∧ c.queued = 0 then c.ring else none) with
    | none => none
    | some ring =>
      s.writeRecord c.who c.asid ring (recordBits s.time c.corr c.fdetail c.fcode c.bitsDone c.status ring.2.2)
        (fun t e => { t with copies := set t.copies k { c with queued := e + 1 } }) (fun t => t.copyGone k c)

/-! ## Major 0x2F (R296 to R298) -/

/-- A word of format SR. -/
def wordSR (mj d a b func : Nat) : Nat := mj * 2 ^ 26 + d * 2 ^ 21 + a * 2 ^ 16 + b * 2 ^ 11 + func

/-- The descriptor at a plane line, with its ring entry reserved. -/
def State.readDesc (s : State) (ln : Nat) : Copy :=
  let c := { mkCopy s.me.at_.id s.me.at_.team s.me.at_.asid none (s.lineBits ln) (s.lineBits (ln + 1)) (s.line ln).tags with launch := s.me.at_.launch }
  let q := s.me.ctl.qring.toNat
  if c.crec then { c with ring := some (s.getC (bits q 0 4), bits q 4 4, bits q 32 32) } else c

/-- The next sequence number (R292). -/
def Ctl.nextRecord (k : Ctl) : Ctl :=
  { k with qring := word (k.qring.toNat % 2 ^ 32 + (bits k.qring.toNat 32 32 + 1) % 2 ^ 32 * 2 ^ 32) }

/-- The descriptor lines are loaded as R297 gives; a landing line is waited for. A poisoned one gives no good descriptor: POISON, as for a
blocking load (log 106). -/
def State.descLines (s : State) (lane : Nat) (ls : List Nat) : Res Unit :=
  match s.linesSay s.me.at_.id s.me.at_.team false lane ls with
  | (.ok, _) => (match ls.find? fun l => (s.line l).poison with
    | some l => trap (poisonMem (512 * l))
    | none => .ok ())
  | (.bad t, l) => trap { code := cOWNERSHIP, detail := 4, tinfo := t, taddr := 512 * l }
  | (.waits p, l) => .error (s.lineWait p l)
  | _ => parkOn .landing

/-- The descriptors at successive line pairs, with their ring entries reserved in order; and the state with QRING moved on. -/
def State.readDescs (s : State) (ln : Nat) : Nat → State × List (Nat × Copy)
  | 0 => (s, [])
  | n + 1 =>
    let c := s.readDesc ln
    let (s1, l) := (if c.crec then s.onCtl Ctl.nextRecord else s).readDescs (ln + 2) n
    (s1, (ln, c) :: l)

/-- Check descriptors j, j + 1, … in order. -/
def State.checkDescs (s : State) (lane j : Nat) : List (Nat × Copy) → Res Unit
  | [] => .ok ()
  | (ln, c) :: l => match s.checkCopy c false lane j (512 * ln) with
    | .error e => .error e
    | .ok _ => s.checkDescs lane (j + 1) l

/-- R297: read the descriptors, check all of them, and start all of them. -/
def State.kickFrom (s : State) (lane ln n : Nat) : Res State :=
  match s.descLines lane ((List.range (2 * n)).map (· + ln)) with
  | .error e => .error e
  | .ok _ =>
    let (s1, l) := s.readDescs ln n
    match s.checkDescs lane 0 l with
    | .error e => .error e
    | .ok _ => .ok (l.foldl (fun s q => s.startCopy q.2) s1)

/-- Descriptors accepted by the ruling unit of the issuer's core (R276). -/
def State.rulingLoad (s : State) : Nat :=
  (s.copies.filter fun q => q.2.queue.isNone && q.2.coll.isNone && q.2.sid.toNat / 64 = s.me.at_.id.toNat / 64).length

/-- The plane bit address of descriptor 0's first line; a lane outside the patch has no cell, and 0 stands for its address (log 120). -/
def State.descAt (s : State) (lane sp : Nat) : Nat := if lane < s.me.at_.lanes then planeAddr (s.me.at_.peOf lane) (sp / 512 * 512 % 131072) else 0

/-- R296, R297: QKICK. A depth that is no multiple of 512 is ALIGN with TINFO 0: no capability is at fault, and the spec names no value (the
model's choice, log 143; the same of SPUB and COLL). -/
def execQkick (l p n : BitVec 5) (s : State) : Host.Outcome State Fault Refusal :=
  finish s (match s.sdry [l.toNat, p.toNat, n.toNat] with
    | .error e => .error e
    | .ok _ =>
      let lane := (s.getS l.toNat).toNat
      let sp := (s.getS p.toNat).toNat
      let cnt := (s.getS n.toNat).toNat
      if s.me.at_.lanes ≤ lane ∨ s.hole (s.me.at_.peOf lane) ∨ cnt = 0 ∨ 16 < cnt then trap (quillFault 12 0 (s.descAt lane sp))
      else if sp % 512 ≠ 0 ∨ 131072 < sp + 1024 * cnt then trap { code := cALIGN, detail := 3, taddr := sp }
      else match s.release 2 with
        | .error e => .error e
        | .ok _ =>
          if 16 < s.rulingLoad + cnt then parkOn .rulingUnit
          else s.kickFrom lane (planeAddr (s.me.at_.peOf lane) sp / 512) cnt)

def State.myCopies (s : State) : List (Nat × Copy) := s.copies.filter fun q => q.2.queue.isNone && q.2.coll.isNone && q.2.sid = s.me.at_.id && q.2.team = s.me.at_.team

def execQdrain (s : State) : Host.Outcome State Fault Refusal :=
  finish s (if s.myCopies ≠ [] ∨ s.lcopies.any (fun q => q.2.sid = s.me.at_.id && q.2.team = s.me.at_.team) then parkOn .qdrain
    else match s.acquire 1 with
      | .error e => .error e
      | .ok _ => .ok s)

def execQstat (d : BitVec 5) (s : State) : Host.Outcome State Fault Refusal :=
  finish s (.ok (s.setS d.toNat (word (s.myCopies.length % 2 ^ 16 + (s.myCopies.filter fun q => q.2.queued ≠ 0).length % 2 ^ 16 * 2 ^ 16))))

/-- A copy is cancelled: at its line-request boundary, or, when only its record is still owed, in its record (log 121). -/
def State.cancelCopy (s : State) (k : Nat) (c : Copy) : State :=
  if c.ended then { s with copies := set s.copies k { c with status := c.status / 8 * 8 ||| 4, fcode := 0, fdetail := 0 } }
  else s.stopCopy k c 4 0 0

def State.cancelAll (s : State) : List Nat → State
  | [] => s
  | k :: ks => (match find s.copies k with
    | some c => s.cancelCopy k c
    | none => s).cancelAll ks

def execQcancel (d a : BitVec 5) (s : State) : Host.Outcome State Fault Refusal :=
  finish s (match s.sval a.toNat with
    | .error e => .error e
    | .ok v =>
      let hit := s.myCopies.filter fun q => q.2.corr = v.toNat % 2 ^ 24
      if hit.any fun q => !q.2.ended && s.barReads q.2 then parkOn .qcancel
      else .ok ((s.cancelAll (hit.map (·.1))).setS d.toNat (word hit.length)))

/-! ## LCOPY (R299) -/

/-- What the checks of one lane give: a rank in the order of causes and a trap, or the wait, or nothing. -/
inductive LaneKick where
  | ok
  | waits (p : Park) (ln : Nat)
  | fails (rank : Nat) (t : Trap)
  deriving DecidableEq, Repr

def capRank (code : Nat) : Nat := if code = cCAP_TAG then 0 else if code = cCAP_PERM then 1 else if code = cCAP_BOUNDS then 2 else 3

def State.lcopySrc (s : State) (c : Cap) (v lane : Nat) : Nat := modw 64 ((c.cursor : Int) + (s.getV v lane).toInt)

def State.lcopyCheck (s : State) (c : Cap) (cr v d lane : Nat) : LaneKick :=
  let a := s.lcopySrc c v lane
  let dep := (s.getV d lane).toNat
  let at_ := planeAddr (s.me.at_.peOf lane) dep
  match capCheck c a 128 pLoad .load false with
  | some code => .fails (capRank code) { code := code, detail := 1, tinfo := accessInfo cr 128 .load lane, taddr := a }
  | none =>
    if dep % 128 ≠ 0 ∨ 131072 < dep + 128 then .fails 3 { code := cALIGN, detail := 1, tinfo := 127 * 16 + lane * 2 ^ 16, taddr := at_ }
    else
      let src := if c.space = 1 ∧ ¬ s.hole (a / 131072) then (s.linesSay s.me.at_.id s.me.at_.team false lane (linesIn a 128)) else (.ok, 0)
      match s.lineSay s.me.at_.id s.me.at_.team true lane (at_ / 512), src with
      | .waits p, _ => .waits p (at_ / 512)
      | _, (.waits p, l) => .waits p l
      | .bad t, _ => .fails 4 { code := cOWNERSHIP, detail := 1, tinfo := s.refusal true at_ 128 (at_ / 512) t, taddr := at_ / 512 * 512 }
      | _, (.bad t, l) => .fails 4 { code := cOWNERSHIP, detail := 1, tinfo := t, taddr := 512 * l }
      | _, _ =>
        if s.barHit at_ 128 then .fails 4 { code := cOWNERSHIP, detail := 1, tinfo := barInfo (s.line (at_ / 512)) lane, taddr := at_ / 512 * 512 } else .ok

/-- The trap of the lowest rank, for its lowest lane. -/
def firstKick (l : List LaneKick) : Nat → Option Trap
  | 0 => none
  | n + 1 => (firstKick l n).orElse fun _ => l.findSome? fun k => match k with
    | .fails r t => if r = n then some t else none
    | _ => none

/-- Start the copies of the lanes. -/
def State.lcopyStart (s : State) (c : Cap) (v d bar : Nat) : List Nat → State
  | [] => s
  | l :: ls =>
    let at_ := planeAddr (s.me.at_.peOf l) (s.getV d l).toNat
    let s1 := s.takeLine s.me.at_.id false (engineId 3 (engIndex s.me.at_.id)) false (at_ / 512)
    let k : LaneCopy := { sid := s.me.at_.id, team := s.me.at_.team, asid := s.me.at_.asid, launch := s.me.at_.launch, cap := c, addr := s.lcopySrc c v l,
                          line := at_ / 512, dest := at_, bar := bar, queued := 0, place := placeOf .lcopy s.nextLcopy,
                          srcLines := if c.space = 1 ∧ ¬ s.hole (s.lcopySrc c v l / 131072) then linesIn (s.lcopySrc c v l) 128 else [] }
    ({ s1 with lcopies := set s1.lcopies s1.nextLcopy k, nextLcopy := s1.nextLcopy + 1 }).lcopyStart c v d bar ls

def execLcopy (a c : BitVec 5) (v d : BitVec 6) (n : BitVec 1) (q : BitVec 3) (s : State) : Host.Outcome State Fault Refusal :=
  finish s (match s.sval a.toNat with
    | .error e => .error e
    | .ok bv => match s.cval c.toNat with
      | .error e => .error e
      | .ok k =>
        let m := s.live &&& s.me.guard (BitVec.ofNat 4 (n.toNat * 8 + q.toNat))
        let (rv, rd) := (s.vr v.toNat, s.vr d.toNat)
        match s.vdryAll m [rv, rd] with
        | .error e => .error e
        | .ok _ => match s.release 2 with
        | .error e => .error e
        | .ok _ =>
          let sayings := (lanesOf m).map fun l => s.lcopyCheck k c.toNat rv rd l
          match sayings.findSome? fun x => match x with
            | .waits p l => some (s.lineWait p l)
            | _ => none with
          | some e => .error e
          | none => match firstKick sayings 5 with
            | some t => trap t
            | none =>
              let bar := bv.toNat % 2 ^ 33
              match s.barCheck bar true with
              | .error e => .error e
              | .ok _ => match s.barLive bar (0x90000000 + a.toNat * 2 ^ 21 + c.toNat * 2 ^ 16 + v.toNat * 2 ^ 10 + d.toNat * 16 + n.toNat * 8 + q.toNat) with
                | .error e => .error e
                | .ok _ => .ok (s.lcopyStart k rv rd bar (lanesOf m)))

/-- A per-lane copy as a copy, for landing. -/
def LaneCopy.asCopy (k : LaneCopy) : Copy :=
  { mkCopy k.sid k.team k.asid none ((BitVec.ofNat 512 k.bar) <<< 474) 0 0 with owed := [(k.line, 128, 128)], launch := k.launch }

/-- The agent of a per-lane copy. -/
def LaneCopy.who (k : LaneCopy) : Who :=
  { code := (engineId 3 (engIndex k.sid)).toNat, sid := some k.sid, team := k.team, asid := k.asid, launch := k.launch, place := k.place }

/-- The 128 bits land, or the copy fails (R294). -/
def State.lcopyLand (s : State) (n : Nat) (k : LaneCopy) : Option State :=
  let who := k.who
  let fin := fun (s : State) (v : Option Nat) (bad : Bool) =>
    let s1 := { (s.leaveLine who) with lcopies := del s.lcopies n }
    let s2 := match v with
      | some v => s1.planeStore k.dest 128 v
      | none => s1
    ((s2.landLine k.asCopy k.line 128 bad).1).progress k.asid
  let mine := (s.line k.line).st = .engine && !(s.line k.line).present && (s.line k.line).holder = k.sid && !(s.line k.line).packet
  if ¬ mine then some { s with lcopies := del s.lcopies n }
  else if s.barReads k.asCopy then s.stepAside who
  else match s.engineGet who k.asid k.cap.space k.addr 128 (k.asCopy.fillv s) with
    | .got s1 v bad => some (fin s1 (some v) bad)
    | .unreachable => some (fin s none true)
    | .waits ly => s.standBy who ly
    | .fault m =>
      let s0 := s.walkedTo who m
      if m.detail = 2 then (s0.faultNote k.asid 1 who.code .load m.detail m.addr).map fun s1 => fin s1 none true
      else match s0.faultQ k.asid 1 1 who.code .load m.detail m.addr with
        | (_, none) => none
        | (s1, some e) => some { s1 with lcopies := set s1.lcopies n { k with queued := e + 1 } }

def execLcopyLanding (n : Nat) (s : State) : Host.Outcome State Fault Refusal :=
  match find s.lcopies n with
  | none => .refused .notEnabled
  | some k =>
    if k.queued ≠ 0 ∨ s.copyPaused k.asCopy then .refused .notEnabled
    else match s.lcopyLand n k with
      | some t => .next t
      | none => .refused .notEnabled

end Sys2Proof.Machine
end

