-- ==== Sys2Proof/Machine/Feed.lean ====
section
/-! DEFINITION. The feed (R300 to R305): streams, their subscriptions, chunks, cell rings, and major 0x30. -/

namespace Sys2Proof.Machine

open Sys2Proof

/-- A stream number that nothing is published on. -/
def emptyStream : Stream := { pub := none, kc := 0, total := 0, head := 0, kept := [], subs := [] }

def State.stream (s : State) (key : Nat) : Stream := (find s.streams key).getD emptyStream

/-- Keep a stream while something is published on it or subscribed to it. -/
def State.setStream (s : State) (key : Nat) (t : Stream) : State :=
  { s with streams := if t.pub.isNone ∧ t.subs = [] then del s.streams key else set s.streams key t }

def State.myStream (s : State) (n : Nat) : Nat := streamKey (dieOf s.me.at_.id) n

/-! ## Major 0x30 (R301) -/

def subWord (form a b n e : Nat) : Nat := wordY 0x30 a b (n * 2 ^ 10 + e * 2 ^ 6 + form)

/-- R301: what stops a subscription. -/
def State.subBad (s : State) (key : Nat) (cell : Bool) (window : Nat) : Bool :=
  window = 0 || 64 < window || (s.stream key).subs.any fun u => u.cell = cell && u.of s.me.at_.id

def State.subscribe (s : State) (key : Nat) (u : Sub) : State :=
  let t := s.stream key
  s.setStream key { t with subs := t.subs ++ [u] }

def execSsubNib (b : BitVec 5) (n : BitVec 6) (s : State) : Host.Outcome State Fault Refusal :=
  finish s (match s.sval b.toNat with
    | .error e => .error e
    | .ok v =>
      let key := s.myStream n.toNat
      if s.subBad key false v.toNat then trap (illegal9 (subWord 0 0 b.toNat n.toNat 0))
      else .ok (s.subscribe key { cell := false, sid := s.me.at_.id, window := v.toNat, rect := 0, bar := 0, next := 0, got := [], used := 0 }))

/-- The identifier that takes the lines of a cell ring. -/
def ringId (n : Nat) : BitVec 14 := engineId 0 (0x200 + n)

def execSsubCell (a b : BitVec 5) (n : BitVec 6) (e : BitVec 3) (s : State) : Host.Outcome State Fault Refusal :=
  finish s (match s.sdry [a.toNat, b.toNat] with
    | .error x => .error x
    | .ok _ => match s.rect e.toNat with
      | .error x => .error x
      | .ok r =>
        let key := s.myStream n.toNat
        let w := (s.getS b.toNat).toNat
        let t := s.stream key
        if s.subBad key true w ∨ (t.pub.isSome ∧ rN r % (t.kc / 512) ≠ 0) then trap (illegal9 (subWord 1 a.toNat b.toNat n.toNat e.toNat))
        else match s.own e.toNat { accepts := s.ownedByMe, st := .engine, owner := ringId n.toNat, release := true, written := true } with
          | .error x => .error x
          | .ok s1 =>
            let u : Sub := { cell := true, sid := s.me.at_.id, window := w, rect := r, bar := (s.getS a.toNat).toNat % 2 ^ 33, next := 0, got := [], used := 0 }
            .ok (s1.subscribe key u))

/-! ## Cell rings (R303) -/

/-- Write a chunk into the lines of a slot at one position and give them to the subscriber. A line with a live barrier object keeps its
bits (R262). -/
def State.landChunk (s : State) (sid : BitVec 14) (v : Nat) (bad : Bool) : List Nat → State
  | [] => s
  | l :: ls => ((if s.barHit (512 * l) 512 then s else s.writeLine l (v % 2 ^ 512) bad).flip l .own sid).landChunk sid (v / 2 ^ 512) bad ls

/-- The lines of slot `k` of a ring at one position, for chunks of `n` lines. -/
def slotLines (r : Word) (pe n k : Nat) : List Nat := peLines pe (rLine r + k * n) n

/-- The launch of a subscriber. -/
def State.subLaunch (s : State) (sid : BitVec 14) : Nat :=
  match s.scribe sid with
  | some c => c.at_.launch
  | none => noLaunch

/-- The lines of a cell ring. -/
def State.ringLines (s : State) (u : Sub) : List Nat := s.rectLinesFor (s.subLaunch u.sid) u.rect (rectPes u.rect)

/-- The lines of the slot that the next chunk of a ring goes to, position by position. -/
def State.slotOf (s : State) (t : Stream) (u : Sub) : List (List Nat) :=
  let n := t.kc / 512
  ((rectPes u.rect).filter fun p => !s.holeFor (s.subLaunch u.sid) p).map fun p => slotLines u.rect p n (u.next % (rN u.rect / n))

/-- The lines of a slot turn to PRESENT 0, landing for the subscriber. -/
def State.turnLines (s : State) (sid : BitVec 14) : List Nat → State
  | [] => s
  | l :: ls => ((s.touchLine l).setLine l { (s.touchLine l).line l with holder := sid, present := false }).turnLines sid ls

/-- Replace subscription i. -/
def Stream.setSub (t : Stream) (i : Nat) (u : Sub) : Stream := { t with subs := t.subs.set i u }

/-- The publisher's record tells that a landing would have changed a live barrier object (R262): OWNERSHIP in FCODE, for no word is under way
to raise it at (the model's choice, log 119). -/
def Copy.metObject (c : Copy) : Copy := if c.fcode = 0 then { c with status := c.status ||| 2, fcode := cOWNERSHIP, fdetail := 4 } else c

/-- The chunk that a slot waits for lands, and is counted on the ring's barrier. -/
def State.landSlot (s : State) (key i : Nat) (t : Stream) (u : Sub) (v : Nat) (bad : Bool) : State :=
  let hit := (s.slotOf t u).flatten.any fun l => s.barHit (512 * l) 512
  let s1 := ((s.slotOf t u).foldl (fun s ls => s.landChunk u.sid v bad ls) s).resolveLanded
  let s2 := match t.pub with
    | some c => s1.progress c.asid
    | none => s1
  let (s3, live) := if u.bar = noBar then (s2, true) else s2.landing u.bar t.kc
  let pub := t.pub.map fun c =>
    let c1 := if hit then c.metObject else c
    if live then c1 else { c1 with status := c1.status ||| 2 ^ 7 }
  s3.setStream key ({ t with pub := pub }.setSub i { u with next := u.next + 1, got := [] })

/-- A slot of a ring that has turned, if one has, takes the chunk under way. -/
def State.landUnderWay (s : State) (key i : Nat) : State :=
  let t := s.stream key
  match t.subs[i]? with
  | none => s
  | some u => match u.cell, u.got with
    | true, (_, v, bad) :: _ => s.landSlot key i t u v bad
    | _, _ => s

/-- R305: the lines of a ring that wait for a chunk go back to their subscriber. -/
def State.ringBack (s : State) (sid ring : BitVec 14) : List Nat → State
  | [] => s
  | l :: ls =>
    let m := s.line l
    (if m.st = .engine ∧ m.owner = ring then s.flip l .own sid else s).ringBack sid ring ls

/-- End the subscriptions of a scribe to a stream; a chunk under way lands first. -/
def State.unsubscribe (s0 : State) (key : Nat) (sid : BitVec 14) : State :=
  let s := (List.range (s0.stream key).subs.length).foldl (fun s i =>
    if (((s.stream key).subs[i]?).any fun u => u.of sid) then s.landUnderWay key i else s) s0
  let t := s.stream key
  let mine := t.subs.filter fun u => u.of sid
  let s1 := mine.foldl (fun s u => if u.cell then s.ringBack sid (ringId (key % 64)) (s.ringLines u) else s) s
  s1.setStream key { t with subs := t.subs.filter fun u => !u.of sid }

/-! ## Chunks (R300, R302) -/

/-- Visits that chunk i of a stream covers: the first, and how many. -/
def chunkVisits (c : Copy) (kc i : Nat) : Nat × Nat :=
  let lo := i * kc / c.w
  (lo, min c.total (((i + 1) * kc + c.w - 1) / c.w) - lo)

/-- What reading a chunk comes to. -/
inductive Chunk where
  | got (s : State) (c : Copy) (v : Nat) (bad : Bool)
  | waits (layer : Option Nat)
  | fault (m : Miss)
  | fails (code detail : Nat)

/-- Read n elements from visit `at_` on, the first at bit `sh`. -/
def State.gatherElems (s : State) (c : Copy) (at_ sh : Nat) : Nat → Chunk
  | 0 => .got s c 0 false
  | n + 1 => match s.elemValue c at_ with
    | .waits ly => .waits ly
    | .fault m => .fault m
    | .fails k d => .fails k d
    | .got s1 c1 v _ bad => match s1.gatherElems { c1 with status := c1.status ||| bad.toNat * 8 } (at_ + 1) (sh + c.w) n with
      | .got s2 c2 rest bad2 => .got s2 c2 (v * 2 ^ sh + rest) (bad || bad2)
      | x => x

/-- Chunk i, padded with zeros; it reads each word under it once (R276, R365). -/
def State.readChunk (s : State) (c : Copy) (kc i : Nat) : Chunk :=
  let (lo, n) := chunkVisits c kc i
  match (s.requestWords c.who c.asid (c.reqReads s lo n)).gatherElems c lo 0 n with
  | .got s1 c1 v bad => .got s1 c1 (v / 2 ^ (i * kc - lo * c.w) % 2 ^ kc) bad
  | x => x

/-- The chunks that a subscription gets: all of the stream's, or, once its re-feed has failed, those it has. -/
def Stream.totalFor (t : Stream) (u : Sub) : Nat := if u.cut then u.next else t.total

/-- R305: whether a subscriber has received its last chunk. -/
def State.subDone (s : State) (key : Nat) (t : Stream) (u : Sub) : Bool :=
  if u.saved.isSome then false
  else if u.cell then t.totalFor u ≤ u.next
  else t.totalFor u ≤ u.used && !(s.loops.any fun l => l.2.sid = u.sid && l.2.bsrc = 2 && streamKey (dieOf l.2.sid) l.2.stream = key)

/-- R305: end a stream; the publisher's record is owed. -/
def State.closeStream (s : State) (key : Nat) : State :=
  let t := s.stream key
  match t.pub with
  | none => s
  | some c =>
    let rings := t.subs.filter (·.cell)
    let s1 := rings.foldl (fun s u => s.ringBack u.sid (ringId (key % 64)) (s.ringLines u)) s
    let s2 := s1.setStream key emptyStream
    if c.ring.isSome then
      s2.addCopy { c with ended := true, srcLines := [], bitsDone := t.head * t.kc,
                          status := c.status ||| (if c.fcode = 0 ∧ c.status / 4 % 2 = 0 then 1 else 0), queued := 0 }
    else s2

/-- R305: a stream ends when every subscriber is done. -/
def State.endStream (s : State) (key : Nat) : State :=
  let t := s.stream key
  if t.head = t.total ∧ t.subs.all (s.subDone key t) then s.closeStream key else s

/-- R305: the subscriptions of a scribe to a stream end; the last one to go ends the stream with the chunks it has. -/
def State.leaveStream (s : State) (key : Nat) (sid : BitVec 14) : State :=
  let t := s.unsubscribe key sid
  if ((s.stream key).subs.any fun u => u.of sid) ∧ (t.stream key).subs = [] then t.closeStream key else t.endStream key

/-- What a step of a stream that cannot read on comes to: its head's ends the stream with the chunks it has (R294), a subscription's that is
read for again ends that subscription alone (R302; the model's choice, log 147). -/
def Stream.failed (t : Stream) (c : Copy) (i code detail : Nat) : Stream :=
  let t1 := { t with pub := some { c with status := c.status ||| 2, fcode := code, fdetail := detail } }
  match t.subs[i]? with
  | none => { t1 with total := t.head }
  | some u => t1.setSub i { u with cut := true }

/-- The step waits on an entry of the fault queue: the head, or one subscription, which holds back no other (R302). -/
def Stream.parked (t : Stream) (c : Copy) (i e : Nat) : Stream :=
  match t.subs[i]? with
  | none => { t with pub := some { c with queued := e + 1 } }
  | some u => t.setSub i { u with queued := e + 1 }

/-- The chunk that a subscription is served from what the feed keeps, if it is not too far behind. -/
def Stream.keptFor (t : Stream) (u : Sub) : Option (Nat × Bool) := if t.head - u.next ≤ u.window then find t.kept u.next else none

/-- A chunk for a subscriber that is `next` along: kept, or read again when it is too far behind. -/
def State.feedChunk (s : State) (t : Stream) (c : Copy) (u : Sub) : Chunk :=
  match t.keptFor u with
  | some (v, bad) => .got s c v bad
  | none => s.readChunk c t.kc u.next

/-- The publisher's copy as one step of its stream reads for it: a step stands in line at a layer for itself (R343). -/
def Copy.atStep (c : Copy) (key step : Nat) : Copy := { c with place := placeOf .stream (256 * step + key) }

/-- A chunk could not be read: its step waits for its layer or its page, or fails. None when it just waits. -/
def State.chunkFault (s : State) (key : Nat) (t : Stream) (c : Copy) (i : Nat) : Chunk → Option State
  | .fault m =>
    let s0 := (s.leaveLine c.who).walkedTo c.who m
    if m.detail = 2 then (s0.faultNote c.asid 1 c.who.code .load m.detail m.addr).map fun s1 => (s1.setStream key (t.failed c i cTRANSLATION 2)).endStream key
    else match s0.faultQ c.asid 1 1 c.who.code .load m.detail m.addr with
      | (_, none) => none
      | (s1, some e) => some (s1.setStream key (t.parked c i e))
  | .fails code d => some (((s.leaveLine c.who).setStream key (t.failed c i code d)).endStream key)
  | .waits ly => s.standBy c.who ly
  | .got .. => none

/-- R302: the head reads a chunk; or a nib subscriber is given its next one. -/
def State.feedStep (s : State) (key i : Nat) : Option State :=
  let t := s.stream key
  match t.pub with
  | none => none
  | some c =>
    if s.copyPaused c then none
    else match t.subs[i]? with
      | none =>
        let c := c.atStep key 0
        if c.queued ≠ 0 then none
        else if t.total ≤ t.head then (if t.subs.all (s.subDone key t) then some (s.endStream key) else none)
        else match s.readChunk c t.kc t.head with
          | .got s1 c1 v bad =>
            let kept := (set t.kept t.head (v, bad)).filter fun p => t.head < p.1 + 64
            let c2 := { c1 with srcLines := c1.srcLines.filter fun l => (c1.readLines s ((t.head + 1) * t.kc / c1.w)).contains l }
            some (((s1.leaveLine c.who).setStream key { t with pub := some c2, head := t.head + 1, kept := kept }).endStream key)
          | x => s.chunkFault key t c i x
      | some u =>
        let c := c.atStep key (i + 1)
        if u.cell ∨ u.waits t.head = false then none
        else match s.feedChunk t c u with
          | .got s1 c1 v bad => some ((s1.leaveLine c.who).setStream key ({ t with pub := some c1 }.setSub i { u with next := u.next + 1, got := set u.got u.next (v, bad) }))
          | x => s.chunkFault key t c i x

def execChunk (key i : Nat) (s : State) : Host.Outcome State Fault Refusal :=
  match s.feedStep key i with
  | some t => .next t
  | none => .refused .notEnabled

/-- A step of a cell ring: once its slot has been passed back, the next chunk is read and the slot's lines turn; then the chunk lands. A
count on an object that a loop reads waits (R225). -/
def State.ringStep (s : State) (key i : Nat) : Option State :=
  let t := s.stream key
  match t.pub, t.subs[i]? with
  | some c, some u =>
    let ls := (s.slotOf t u).flatten
    let c := c.atStep key (i + 1)
    if s.copyPaused c ∨ u.saved.isSome ∨ u.cell = false ∨ rN u.rect / (t.kc / 512) = 0 then none
    else match u.got with
      | _ :: _ => if u.bar ≠ noBar ∧ s.loopHolders (u.bar / 512) ≠ [] then none else some ((s.landUnderWay key i).endStream key)
      | [] =>
        let back := ls.all fun l => (s.line l).st = .engine && (s.line l).present && (s.line l).owner = ringId (key % 64)
        if u.waits t.head = false ∨ back = false then none
        else match s.feedChunk t c u with
          | .got s1 c1 v bad => some (((s1.leaveLine c.who).turnLines u.sid ls).setStream key ({ t with pub := some c1 }.setSub i { u with got := [(u.next, v, bad)] }))
          | x => s.chunkFault key t c i x
  | _, _ => none

def execCellRingSlotLanding (key i : Nat) (s : State) : Host.Outcome State Fault Refusal :=
  match s.ringStep key i with
  | some t => .next t
  | none => .refused .notEnabled

/-! ## SUNSUB and SPUB -/

/-- R305: SUNSUB; without a subscription nothing ends. -/
def execSunsub (n : BitVec 6) (s : State) : Host.Outcome State Fault Refusal :=
  let key := s.myStream n.toNat
  finish s (.ok (s.leaveStream key s.me.at_.id))

/-- Chunks of a stream. -/
def Copy.chunks (c : Copy) : Nat := (c.total * c.w + c.dstr 1 - 1) / c.dstr 1

/-- R303: a ring whose lines are no whole number of chunks of k bits; of rings that subscribed before a descriptor was published, the
descriptor is at fault (the model's choice, log 131). -/
def Stream.misfit (t : Stream) (k : Nat) : Bool := k % 512 = 0 && k ≠ 0 && t.subs.any fun u => u.cell && rN u.rect % (k / 512) ≠ 0

def execSpub (a : BitVec 5) (n : BitVec 6) (s : State) : Host.Outcome State Fault Refusal :=
  finish s (match s.barAddr a.toNat with
    | .error e => .error e
    | .ok ad =>
      let key := s.myStream n.toNat
      if s.hole (ad / 131072) then trap (quillFault 12 0 ad)
      else if ad % 512 ≠ 0 ∨ 131072 < ad % 131072 + 1024 then trap { code := cALIGN, detail := 3, taddr := ad }
      else match s.release 2 with
        | .error e => .error e
        | .ok _ => match s.descLines 0 [ad / 512, ad / 512 + 1] with
          | .error e => .error e
          | .ok _ =>
            let c := s.readDesc (ad / 512)
            if (s.stream key).pub.isSome then trap (quillFault 1 0 ad)
            else if (s.stream key).misfit (c.dstr 1) then trap (quillFault 8 0 ad)
            else match s.checkCopy c true 0 0 ad with
              | .error e => .error e
              | .ok _ =>
                let s1 := s.setStream key { s.stream key with pub := some { c with srcLines := c.readLines s 0 }, kc := c.dstr 1, total := c.chunks, head := 0, kept := [] }
                .ok (if c.crec then s1.onCtl Ctl.nextRecord else s1))

end Sys2Proof.Machine
end

