-- ==== Sys2Proof/Machine/LaneInt.lean ====
section
/-! DEFINITION. Integer lane words: majors 0x14 to 0x17 (R119 to R122), with the operations that keep a
register wet (R151). -/

namespace Sys2Proof.Machine

open Sys2Proof

/-! ## Shapes -/

/-- A lane form with two dry sources. -/
def State.lane2 (s : State) (g : BitVec 4) (d a b : BitVec 6) (f : Lane → Lane → Lane) : Res State :=
  let m := s.active g
  match s.vdryAll m [s.vr a.toNat, s.vr b.toNat] with
  | .error e => .error e
  | .ok _ => .ok (s.setV (s.vr d.toNat) m fun l => f (s.getV (s.vr a.toNat) l) (s.getV (s.vr b.toNat) l))

/-- A lane form with one dry source. -/
def State.lane1 (s : State) (g : BitVec 4) (d a : BitVec 6) (f : Lane → Lane) : Res State :=
  let m := s.active g
  match s.vdryAll m [s.vr a.toNat] with
  | .error e => .error e
  | .ok _ => .ok (s.setV (s.vr d.toNat) m fun l => f (s.getV (s.vr a.toNat) l))

/-- A lane form that reads its destination as well. -/
def State.lane3 (s : State) (g : BitVec 4) (d a b : BitVec 6) (f : Lane → Lane → Lane → Lane) : Res State :=
  let m := s.active g
  match s.vdryAll m [s.vr a.toNat, s.vr b.toNat, s.vr d.toNat] with
  | .error e => .error e
  | .ok _ => .ok (s.setV (s.vr d.toNat) m fun l => f (s.getV (s.vr a.toNat) l) (s.getV (s.vr b.toNat) l) (s.getV (s.vr d.toNat) l))

/-- An affine lane form on two registers. -/
def State.laneAffine (s : State) (o : Affine) (g : BitVec 4) (d a b : BitVec 6) : Res State :=
  s.affineV o (s.vr d.toNat) (s.vr a.toNat) (s.vr b.toNat) (s.active g)

/-! ## Values -/

def lane (n : Nat) : Lane := BitVec.ofNat 32 n

def clampI (i : Int) : Lane := BitVec.ofInt 32 (max (-2 ^ 31) (min (2 ^ 31 - 1) i))
def clampB (i : Int) : Lane := BitVec.ofInt 32 (max 0 (min (2 ^ 32 - 1) i))
def absLane (x : Lane) : Lane := if x.toInt < 0 then 0 - x else x

/-- R122: position and length of a field. -/
def fieldPos (c : Lane) : Nat := bits c.toNat 0 5
def fieldLen (c : Lane) : Nat := min (bits c.toNat 5 5 + 1) (32 - fieldPos c)

/-! ## Major 0x14 (R119) -/

def execVadd (g : BitVec 4) (d a b : BitVec 6) (s : State) : Host.Outcome State Fault Refusal := finish s (s.laneAffine .add g d a b)
def execVsub (g : BitVec 4) (d a b : BitVec 6) (s : State) : Host.Outcome State Fault Refusal := finish s (s.laneAffine .sub g d a b)
def execVand (g : BitVec 4) (d a b : BitVec 6) (s : State) : Host.Outcome State Fault Refusal := finish s (s.lane2 g d a b fun x y => x &&& y)
def execVor (g : BitVec 4) (d a b : BitVec 6) (s : State) : Host.Outcome State Fault Refusal := finish s (s.lane2 g d a b fun x y => x ||| y)
def execVxor (g : BitVec 4) (d a b : BitVec 6) (s : State) : Host.Outcome State Fault Refusal := finish s (s.lane2 g d a b fun x y => x ^^^ y)
def execVandn (g : BitVec 4) (d a b : BitVec 6) (s : State) : Host.Outcome State Fault Refusal := finish s (s.lane2 g d a b fun x y => x &&& ~~~y)
def execVnot (g : BitVec 4) (d a : BitVec 6) (s : State) : Host.Outcome State Fault Refusal := finish s (s.lane1 g d a fun x => ~~~x)
def execVabs (g : BitVec 4) (d a : BitVec 6) (s : State) : Host.Outcome State Fault Refusal := finish s (s.lane1 g d a absLane)
/-- VNEG is 0 − va (R151). -/
def execVneg (g : BitVec 4) (d a : BitVec 6) (s : State) : Host.Outcome State Fault Refusal :=
  finish s (s.affineVI .sub false (s.vr d.toNat) (s.vr a.toNat) (s.active g) 0)
def execVminI (g : BitVec 4) (d a b : BitVec 6) (s : State) : Host.Outcome State Fault Refusal := finish s (s.lane2 g d a b fun x y => if x.toInt ≤ y.toInt then x else y)
def execVminB (g : BitVec 4) (d a b : BitVec 6) (s : State) : Host.Outcome State Fault Refusal := finish s (s.lane2 g d a b fun x y => if x.toNat ≤ y.toNat then x else y)
def execVmaxI (g : BitVec 4) (d a b : BitVec 6) (s : State) : Host.Outcome State Fault Refusal := finish s (s.lane2 g d a b fun x y => if x.toInt ≤ y.toInt then y else x)
def execVmaxB (g : BitVec 4) (d a b : BitVec 6) (s : State) : Host.Outcome State Fault Refusal := finish s (s.lane2 g d a b fun x y => if x.toNat ≤ y.toNat then y else x)
def execVaddsatI (g : BitVec 4) (d a b : BitVec 6) (s : State) : Host.Outcome State Fault Refusal := finish s (s.lane2 g d a b fun x y => clampI (x.toInt + y.toInt))
def execVaddsatB (g : BitVec 4) (d a b : BitVec 6) (s : State) : Host.Outcome State Fault Refusal := finish s (s.lane2 g d a b fun x y => clampB ((x.toNat : Int) + y.toNat))
def execVsubsatI (g : BitVec 4) (d a b : BitVec 6) (s : State) : Host.Outcome State Fault Refusal := finish s (s.lane2 g d a b fun x y => clampI (x.toInt - y.toInt))
def execVsubsatB (g : BitVec 4) (d a b : BitVec 6) (s : State) : Host.Outcome State Fault Refusal := finish s (s.lane2 g d a b fun x y => clampB ((x.toNat : Int) - y.toNat))

/-! ## Major 0x15 (R120) -/

/-- The 8-bit immediate, 34 bits after the word XIM, as the lanes use it. -/
def State.imm8 (s : State) (i : BitVec 8) : Lane := BitVec.ofInt 32 (s.simm 8 i.toNat)

def execVaddi (g : BitVec 4) (d a : BitVec 6) (i : BitVec 8) (s : State) : Host.Outcome State Fault Refusal :=
  finish s (s.affineVI .add true (s.vr d.toNat) (s.vr a.toNat) (s.active g) (s.imm8 i))
def execVandi (g : BitVec 4) (d a : BitVec 6) (i : BitVec 8) (s : State) : Host.Outcome State Fault Refusal := finish s (s.lane1 g d a fun x => x &&& s.imm8 i)
def execVori (g : BitVec 4) (d a : BitVec 6) (i : BitVec 8) (s : State) : Host.Outcome State Fault Refusal := finish s (s.lane1 g d a fun x => x ||| s.imm8 i)
/-- VSHLI is a product with 2^n (R151). -/
def execVshli (g : BitVec 4) (d a : BitVec 6) (n : BitVec 5) (s : State) : Host.Outcome State Fault Refusal :=
  finish s (s.noPay (.vshli g d a n) (s.affineVI .mul true (s.vr d.toNat) (s.vr a.toNat) (s.active g) (1#32 <<< n.toNat)))

/-! ## Major 0x16 (R121) -/

def execVmul (g : BitVec 4) (d a b : BitVec 6) (s : State) : Host.Outcome State Fault Refusal := finish s (s.laneAffine .mul g d a b)
def execVmulhI (g : BitVec 4) (d a b : BitVec 6) (s : State) : Host.Outcome State Fault Refusal := finish s (s.lane2 g d a b fun x y => BitVec.ofInt 32 (x.toInt * y.toInt / 2 ^ 32))
def execVmulhB (g : BitVec 4) (d a b : BitVec 6) (s : State) : Host.Outcome State Fault Refusal := finish s (s.lane2 g d a b fun x y => lane (x.toNat * y.toNat / 2 ^ 32))

/-- VMAD, with vd wet and the factors dry, stays wet (Table 07-1). -/
def State.vmad (s : State) (d a b : Nat) (m : Word) : Res State :=
  match s.vdryAll m [a, b] with
  | .error e => .error e
  | .ok _ =>
    let p := fun l => s.getV a l * s.getV b l
    match s.vclean d m with
    | .error e => .error e
    | .ok _ =>
      if s.me.touchedByWet d m then
        match s.me.intRec d m with
        | some r => s.affineWetV .add true d d m r 0 fun l => (p l, 0)
        | none => match s.vdry d m with
          | .error e => .error e
          | .ok _ => .ok s
      else
        let s1 := { s with me := s.me.dropV d m }
        .ok (s1.onR (writeLanes d (fun l => (s.getV d l + p l, s.me.carry d l)) (lanesOf m)))

def execVmad (g : BitVec 4) (d a b : BitVec 6) (s : State) : Host.Outcome State Fault Refusal :=
  finish s (s.vmad (s.vr d.toNat) (s.vr a.toNat) (s.vr b.toNat) (s.active g))

/-! ## Major 0x17 (R122) -/

def execVshl (g : BitVec 4) (d a b : BitVec 6) (s : State) : Host.Outcome State Fault Refusal := finish s (s.lane2 g d a b fun x y => x <<< (y.toNat % 32))
def execVshr (g : BitVec 4) (d a b : BitVec 6) (s : State) : Host.Outcome State Fault Refusal := finish s (s.lane2 g d a b fun x y => x >>> (y.toNat % 32))
def execVsar (g : BitVec 4) (d a b : BitVec 6) (s : State) : Host.Outcome State Fault Refusal := finish s (s.lane2 g d a b fun x y => x.sshiftRight (y.toNat % 32))
def execVclz (g : BitVec 4) (d a : BitVec 6) (s : State) : Host.Outcome State Fault Refusal := finish s (s.lane1 g d a fun x => lane (clzNat 32 x.toNat))
def execVpopc (g : BitVec 4) (d a : BitVec 6) (s : State) : Host.Outcome State Fault Refusal := finish s (s.lane1 g d a fun x => lane (popcNat 32 x.toNat))
def execVbfx (g : BitVec 4) (d a b : BitVec 6) (s : State) : Host.Outcome State Fault Refusal :=
  finish s (s.lane2 g d a b fun x c => lane (bits x.toNat (fieldPos c) (fieldLen c)))
def execVbfxI (g : BitVec 4) (d a b : BitVec 6) (s : State) : Host.Outcome State Fault Refusal :=
  finish s (s.lane2 g d a b fun x c => BitVec.ofInt 32 (signed (fieldLen c) (bits x.toNat (fieldPos c) (fieldLen c))))
def execVbfi (g : BitVec 4) (d a b : BitVec 6) (s : State) : Host.Outcome State Fault Refusal :=
  finish s (s.lane3 g d a b fun x c z =>
    let m := lane ((2 ^ fieldLen c - 1) * 2 ^ fieldPos c)
    (z &&& ~~~m) ||| ((x <<< fieldPos c) &&& m))

end Sys2Proof.Machine
end

