-- ==== Sys2Proof/Machine/LaneFp.lean ====
section
/-! DEFINITION. Floating-point lane words: majors 0x18 to 0x1A (R123 to R127), with the step that a wet
register may take (R152). -/

namespace Sys2Proof.Machine

open Sys2Proof

/-! ## One value -/

/-- round(x op y) of two operands of a format. -/
def fpAdd (c : Ctl) (f : Fmt) (neg : Bool) (x y : Nat) (st : Lane) : LaneOut :=
  let b := opval c.daz f y
  roundLane (Val.sum c.rmField [opval c.daz f x, if neg then b.negate else b]) f c.rm st

def fpMul (c : Ctl) (f : Fmt) (x y : Nat) (st : Lane) : LaneOut :=
  roundLane ((opval c.daz f x).mul (opval c.daz f y)) f c.rm st

/-- A form that rounds nothing and raises nothing. -/
def quiet (n : Nat) (st : Lane) : LaneOut := { v := lane n, rng := st }

def fpMin (c : Ctl) (f : Fmt) (isMax : Bool) (x y : Nat) (st : Lane) : LaneOut :=
  quiet (fminmax isMax f (dazBits c.daz f x) (dazBits c.daz f y)) st

/-- FABS and FNEG: the sign of a number alone changes. -/
def fpSign (c : Ctl) (f : Fmt) (neg : Bool) (x : Nat) (st : Lane) : LaneOut :=
  let n := dazBits c.daz f x
  if (fval f n).isNan then quiet f.canon st
  else
    let mag := n % 2 ^ (f.width - 1)
    quiet (if neg && bits n (f.width - 1) 1 = 0 then mag + 2 ^ (f.width - 1) else mag) st

/-- R124: FCLASS. -/
def fpClass (f : Fmt) (x : Nat) : Nat :=
  let neg := bits x (f.width - 1) 1 = 1
  let ex := bits x f.mb f.eb
  match fval f x with
  | .nan => 256
  | .inf _ => if neg then 1 else 128
  | .fin _ m _ _ =>
    if m = 0 then (if neg then 8 else 16)
    else if ex = 0 then (if neg then 4 else 32)
    else if neg then 2 else 64

/-- R124: FRND in a mode: an integral value of the same sign. -/
def fpRnd (c : Ctl) (f : Fmt) (mode : Nat) (x : Nat) (st : Lane) : LaneOut :=
  let (st', u) := draw mode st
  let exact : Rm := { mode := 0, daz := false, ftz := false, sat := false }
  match opval c.daz f x with
  | .fin neg m e _ =>
    let (i, inexact) := roundInt neg m e mode u
    { v := lane (round (.fin neg i.natAbs 0 false) f exact 0).code, flags := if inexact then fNX else 0, rng := st' }
  | v => { v := lane (round v f exact 0).code, rng := st' }

/-- R124: the mode of a 3-bit field. -/
def Ctl.mode3 (c : Ctl) (m : BitVec 3) : Nat := if m = 7 then c.rmField else m.toNat

/-- a·b + z with one rounding; 0 × ∞ raises NV even when z is NaN (R127). -/
def fpFma (c : Ctl) (f : Fmt) (negP negZ : Bool) (x y z : Nat) (st : Lane) : LaneOut :=
  let p := (opval c.daz f x).mul (opval c.daz f y)
  let zv := opval c.daz f z
  let t := Val.sum c.rmField [if negP then p.1.negate else p.1, if negZ then zv.negate else zv]
  roundLane (t.1, p.2 ||| t.2) f c.rm st

/-- R126: FDOT2 on two halves, with the NaN rule of R42: NaN operands raise NV as well. -/
def fpDot2 (c : Ctl) (h : Fmt) (x y z : Lane) (st : Lane) : LaneOut :=
  let op := fun (v : Lane) (hi : Bool) => opval c.daz h (half hi v)
  let zv := opval c.daz .f32 z.toNat
  let p := (op x false).mul (op y false)
  let q := (op x true).mul (op y true)
  let t := Val.sum c.rmField [zv, p.1, q.1]
  let nan : Flags := if t.1.isNan then fNV else 0
  roundLane (t.1, p.2 ||| q.2 ||| t.2 ||| nan) .f32 c.rm st

/-! ## Shapes -/

/-- A form on one register. -/
def State.fp1 (s : State) (g : BitVec 4) (d a : BitVec 6) (f : Lane → Lane → LaneOut) : Res State :=
  let m := s.active g
  let ra := s.vr a.toNat
  match s.vdry ra m with
  | .error e => .error e
  | .ok _ => .ok (s.runLanes (s.vr d.toNat) m fun l st => f (s.getV ra l) st)

/-- A form on two registers. -/
def State.fp2 (s : State) (g : BitVec 4) (d a b : BitVec 6) (f : Lane → Lane → Lane → LaneOut) : Res State :=
  let m := s.active g
  let ra := s.vr a.toNat
  let rb := s.vr b.toNat
  match s.vdryAll m [ra, rb] with
  | .error e => .error e
  | .ok _ => .ok (s.runLanes (s.vr d.toNat) m fun l st => f (s.getV ra l) (s.getV rb l) st)

/-- A form that reads its destination as well. -/
def State.fp3 (s : State) (g : BitVec 4) (d a b : BitVec 6) (f : Lane → Lane → Lane → Lane → LaneOut) : Res State :=
  let m := s.active g
  let ra := s.vr a.toNat
  let rb := s.vr b.toNat
  let rd := s.vr d.toNat
  match s.vdryAll m [ra, rb, rd] with
  | .error e => .error e
  | .ok _ => .ok (s.runLanes rd m fun l st => f (s.getV ra l) (s.getV rb l) (s.getV rd l) st)

/-- R152: register `w` takes a step when it is fresh; `dry` are the registers that must be dry.
A register that is wet and not fresh is tested as `w`, so it decides before the others, poisoned or wet (the model's choice, log 101). -/
def State.fpStep (s : State) (d w : Nat) (m : Word) (dry : List Nat) (op : StepOp) (k : Lane) (o : Nat → Lane) (other : Nat → Lane → LaneOut) : Res State :=
  match s.freshRec w m with
  | none => (match s.vdryAll m (w :: dry) with
    | .error e => .error e
    | .ok _ => .ok s)
  | some r => match s.vdryAll m dry with
    | .error e => .error e
    | .ok _ =>
      if s.me.poisonLanes w m true ≠ 0 then trap (s.me.poisonV w (s.me.poisonLanes w m true))
      else s.stepV d m r op k o other

/-- An f32 word with DAZ applied. -/
def Ctl.dazLane (c : Ctl) (x : Lane) : Lane := lane (dazBits c.daz .f32 x.toNat)
def flipSign (x : Lane) : Lane := x ^^^ 0x80000000#32
def minusOne : Lane := 0xBF800000#32
def plusOne : Lane := 0x3F800000#32

/-! ## Major 0x18 (R123) -/

/-- FADD and FSUB. -/
def State.fpAddWord (s : State) (neg : Bool) (g : BitVec 4) (d a b : BitVec 6) : Res State :=
  let m := s.active g
  let ra := s.vr a.toNat
  let rb := s.vr b.toNat
  let rd := s.vr d.toNat
  let other := fun l st => fpAdd s.me.ctl .f32 neg (s.getV ra l).toNat (s.getV rb l).toNat st
  let dz := s.me.ctl.dazLane
  match s.me.touchedByWet ra m, s.me.touchedByWet rb m with
  | true, false => s.fpStep rd ra m [rb] .add plusOne (fun l => if neg then flipSign (dz (s.getV rb l)) else dz (s.getV rb l)) other
  | false, true => s.fpStep rd rb m [ra] (if neg then .fma else .add) (if neg then minusOne else plusOne) (fun l => dz (s.getV ra l)) other
  | _, _ => s.fp2 g d a b fun x y st => fpAdd s.me.ctl .f32 neg x.toNat y.toNat st

def execFadd (g : BitVec 4) (d a b : BitVec 6) (s : State) : Host.Outcome State Fault Refusal := finish s (s.fpAddWord false g d a b)
def execFsub (g : BitVec 4) (d a b : BitVec 6) (s : State) : Host.Outcome State Fault Refusal := finish s (s.fpAddWord true g d a b)

/-- FMUL: with a wet operand the other must be uniform. -/
def State.fpMulWord (s : State) (g : BitVec 4) (d a b : BitVec 6) : Res State :=
  let m := s.active g
  let ra := s.vr a.toNat
  let rb := s.vr b.toNat
  let rd := s.vr d.toNat
  let other := fun l st => fpMul s.me.ctl .f32 (s.getV ra l).toNat (s.getV rb l).toNat st
  let dz := s.me.ctl.dazLane
  match s.me.touchedByWet ra m, s.me.touchedByWet rb m, s.uniform ra m, s.uniform rb m with
  | true, false, _, some k => s.fpStep rd ra m [rb] .mul (dz k) (fun _ => 0) other
  | false, true, some k, _ => s.fpStep rd rb m [ra] .mul (dz k) (fun _ => 0) other
  | _, _, _, _ => s.fp2 g d a b fun x y st => fpMul s.me.ctl .f32 x.toNat y.toNat st

def execFmul (g : BitVec 4) (d a b : BitVec 6) (s : State) : Host.Outcome State Fault Refusal := finish s (s.fpMulWord g d a b)
def execFmin (g : BitVec 4) (d a b : BitVec 6) (s : State) : Host.Outcome State Fault Refusal :=
  finish s (s.fp2 g d a b fun x y st => fpMin s.me.ctl .f32 false x.toNat y.toNat st)
def execFmax (g : BitVec 4) (d a b : BitVec 6) (s : State) : Host.Outcome State Fault Refusal :=
  finish s (s.fp2 g d a b fun x y st => fpMin s.me.ctl .f32 true x.toNat y.toNat st)
def execFabs (g : BitVec 4) (d a : BitVec 6) (s : State) : Host.Outcome State Fault Refusal :=
  finish s (s.fp1 g d a fun x st => fpSign s.me.ctl .f32 false x.toNat st)

/-- FNEG of a fresh or stepped record (Table 07-2): N := NOT N. On a fresh record it is a product with
1.0 that flushes nothing. -/
def State.fneg (s : State) (g : BitVec 4) (d a : BitVec 6) : Res State :=
  let m := s.active g
  let ra := s.vr a.toNat
  let rd := s.vr d.toNat
  let c := s.me.ctl
  let dryForm := s.fp1 g d a fun x st => fpSign c .f32 true x.toNat st
  let wetForm := fun (r : WetRec) (st : WetStep) (one : Lane) =>
    if s.me.poisonLanes ra m true ≠ 0 then trap (s.me.poisonV ra (s.me.poisonLanes ra m true))
    else s.wetV rd m { r with kind := .step, a := one.setWidth 64, mask := r.mask &&& m, step := some { st with neg := !st.neg, draws := st.draws.filter fun p => bitOf m p.1 } }
      fun l => (if bitOf r.mask l then s.getV ra l else (fpSign c .f32 true (s.getV ra l).toNat 0).v, 0)
  if s.me.touchedByWet ra m then
    match s.me.wetV ra with
    | some r => (match r.step with
      | some st => wetForm r st (r.a.setWidth 32)
      | none => match s.freshRec ra m with
        | some r => wetForm r { op := .mul, neg := false, rm := 0, daz := c.daz, ftz := false, draws := [] } plusOne
        | none => dryForm)
    | none => dryForm
  else dryForm

def execFneg (g : BitVec 4) (d a : BitVec 6) (s : State) : Host.Outcome State Fault Refusal := finish s (s.fneg g d a)
def execFrnd (g : BitVec 4) (d a : BitVec 6) (m : BitVec 3) (s : State) : Host.Outcome State Fault Refusal :=
  finish s (s.fp1 g d a fun x st => fpRnd s.me.ctl .f32 (s.me.ctl.mode3 m) x.toNat st)
def execFclass (g : BitVec 4) (d a : BitVec 6) (s : State) : Host.Outcome State Fault Refusal :=
  finish s (s.lane1 g d a fun x => lane (fpClass .f32 x.toNat))

/-! ## Major 0x19 (R125, R126) -/

/-- The 16-bit format P names. -/
def halfFmt (p : BitVec 1) : Fmt := if p = 1 then .bf16 else .f16

/-- A packed form on two registers. -/
def State.packed2 (s : State) (g : BitVec 4) (d a b : BitVec 6) (f : Nat → Nat → Lane → LaneOut) : Res State :=
  s.fp2 g d a b fun x y st => packHalves (fun h st => f (half h x) (half h y) st) st

def State.packed1 (s : State) (g : BitVec 4) (d a : BitVec 6) (f : Nat → Lane → LaneOut) : Res State :=
  s.fp1 g d a fun x st => packHalves (fun h st => f (half h x) st) st

def execFaddPacked (g : BitVec 4) (d a b : BitVec 6) (p : BitVec 1) (s : State) : Host.Outcome State Fault Refusal :=
  finish s (s.packed2 g d a b (fpAdd s.me.ctl (halfFmt p) false))
def execFsubPacked (g : BitVec 4) (d a b : BitVec 6) (p : BitVec 1) (s : State) : Host.Outcome State Fault Refusal :=
  finish s (s.packed2 g d a b (fpAdd s.me.ctl (halfFmt p) true))
def execFmulPacked (g : BitVec 4) (d a b : BitVec 6) (p : BitVec 1) (s : State) : Host.Outcome State Fault Refusal :=
  finish s (s.packed2 g d a b (fpMul s.me.ctl (halfFmt p)))
def execFminPacked (g : BitVec 4) (d a b : BitVec 6) (p : BitVec 1) (s : State) : Host.Outcome State Fault Refusal :=
  finish s (s.packed2 g d a b (fpMin s.me.ctl (halfFmt p) false))
def execFmaxPacked (g : BitVec 4) (d a b : BitVec 6) (p : BitVec 1) (s : State) : Host.Outcome State Fault Refusal :=
  finish s (s.packed2 g d a b (fpMin s.me.ctl (halfFmt p) true))
def execFabsPacked (g : BitVec 4) (d a : BitVec 6) (p : BitVec 1) (s : State) : Host.Outcome State Fault Refusal :=
  finish s (s.packed1 g d a (fpSign s.me.ctl (halfFmt p) false))
def execFnegPacked (g : BitVec 4) (d a : BitVec 6) (p : BitVec 1) (s : State) : Host.Outcome State Fault Refusal :=
  finish s (s.packed1 g d a (fpSign s.me.ctl (halfFmt p) true))
def execFclassPacked (g : BitVec 4) (d a : BitVec 6) (p : BitVec 1) (s : State) : Host.Outcome State Fault Refusal :=
  finish s (s.packed1 g d a fun x st => quiet (fpClass (halfFmt p) x) st)
def execFrndPacked (g : BitVec 4) (d a : BitVec 6) (m : BitVec 3) (p : BitVec 1) (s : State) : Host.Outcome State Fault Refusal :=
  finish s (s.packed1 g d a (fpRnd s.me.ctl (halfFmt p) (s.me.ctl.mode3 m)))
def execFdot2 (g : BitVec 4) (d a b : BitVec 6) (p : BitVec 1) (s : State) : Host.Outcome State Fault Refusal :=
  finish s (s.fp3 g d a b fun x y z st => fpDot2 s.me.ctl (halfFmt p) x y z st)

/-! ## Major 0x1A (R127) -/

/-- A fused form, in the format of its field. -/
def State.fused (s : State) (g : BitVec 4) (d a b : BitVec 6) (f : BitVec 2) (negP negZ : Bool) : Res State :=
  if f = 0 then s.fp3 g d a b fun x y z st => fpFma s.me.ctl .f32 negP negZ x.toNat y.toNat z.toNat st
  else
    let h := if f = 2 then Fmt.bf16 else Fmt.f16
    s.fp3 g d a b fun x y z st => packHalves (fun hi st => fpFma s.me.ctl h negP negZ (half hi x) (half hi y) (half hi z) st) st

/-- FMA with one wet factor, the other uniform and vd dry, takes a step (Table 07-2). -/
def State.fma (s : State) (g : BitVec 4) (d a b : BitVec 6) (f : BitVec 2) : Res State :=
  let m := s.active g
  let ra := s.vr a.toNat
  let rb := s.vr b.toNat
  let rd := s.vr d.toNat
  let c := s.me.ctl
  let other := fun l st => fpFma c .f32 false false (s.getV ra l).toNat (s.getV rb l).toNat (s.getV rd l).toNat st
  if f ≠ 0 ∨ s.me.touchedByWet rd m then s.fused g d a b f false false
  else match s.me.touchedByWet ra m, s.me.touchedByWet rb m, s.uniform ra m, s.uniform rb m with
    | true, false, _, some k => s.fpStep rd ra m [rb, rd] .fma (c.dazLane k) (fun l => c.dazLane (s.getV rd l)) other
    | false, true, some k, _ => s.fpStep rd rb m [ra, rd] .fma (c.dazLane k) (fun l => c.dazLane (s.getV rd l)) other
    | _, _, _, _ => s.fused g d a b f false false

def execFma (g : BitVec 4) (d a b : BitVec 6) (f : BitVec 2) (s : State) : Host.Outcome State Fault Refusal := finish s (s.fma g d a b f)
def execFms (g : BitVec 4) (d a b : BitVec 6) (f : BitVec 2) (s : State) : Host.Outcome State Fault Refusal := finish s (s.fused g d a b f false true)
def execFnma (g : BitVec 4) (d a b : BitVec 6) (f : BitVec 2) (s : State) : Host.Outcome State Fault Refusal := finish s (s.fused g d a b f true false)

end Sys2Proof.Machine
end

