-- ==== Sys2Proof/Machine/SpecFn.lean ====
section
/-! DEFINITION. The special functions of major 0x1E (R137, Table 06-5). Each answers the value f(x) as
a `Val`: exact where f(x) is a binary fraction, else a mantissa with `sticky` set, from which `round`
gives the once-rounded result. Reciprocals and roots are exact integer arithmetic. The others are
computed with 512 fractional bits (log 13). -/

namespace Sys2Proof.Machine

/-- The integer square root, bit by bit from bit k down, on top of r. -/
def isqrtFrom (n : Nat) : Nat → Nat → Nat
  | 0, r => r
  | k + 1, r => isqrtFrom n k (if (r + 2 ^ k) * (r + 2 ^ k) ≤ n then r + 2 ^ k else r)

def isqrt (n : Nat) : Nat := isqrtFrom n (Nat.log2 n / 2 + 1) 0

/-- Fractional bits of the fixed-point numbers below. -/
def fp : Nat := 512
def fpOne : Nat := 2 ^ fp

/-- Σ z^(2i+1)/(2i+1) over i, `n` terms, with alternating signs when `alt`: artanh or arctan of z. -/
def oddSeries (alt : Bool) (z2 : Nat) : Nat → Nat → Nat → Nat → Nat → Nat
  | 0, _, _, plus, minus => plus - minus
  | n + 1, i, p, plus, minus =>
    let term := p / (2 * i + 1)
    let neg := alt && i % 2 = 1
    oddSeries alt z2 n (i + 1) (p * z2 / fpOne) (if neg then plus else plus + term) (if neg then minus + term else minus)

/-- artanh z for a fixed-point z up to 1/3. -/
def artanh (z : Nat) : Nat := oddSeries false (z * z / fpOne) 170 0 z 0 0

/-- arctan (1/k). -/
def arctanInv (k : Nat) : Nat := oddSeries true (fpOne / (k * k)) 120 0 (fpOne / k) 0 0

def ln2 : Nat := 2 * artanh (fpOne / 3)
def piFp : Nat := 4 * (4 * arctanInv 5 - arctanInv 239)

/-- Σ y^i/i!, `n` terms from term i on, the term p being next. -/
def expSeries (y : Nat) : Nat → Nat → Nat → Nat → Nat
  | 0, _, _, acc => acc
  | n + 1, i, p, acc => expSeries y n (i + 1) (p * y / fpOne / (i + 1)) (acc + p)

/-- e^y for a fixed-point y below 1. -/
def expFp (y : Nat) : Nat := expSeries y 110 0 fpOne 0

/-- Σ ± y^(i)/i! over every second i from i on: sin from i = 1 and p = y, cos from i = 0 and p = 1. -/
def trigSeries (y2 : Nat) : Nat → Nat → Nat → Nat → Nat → Bool → Nat
  | 0, _, _, plus, minus, _ => plus - minus
  | n + 1, i, p, plus, minus, neg =>
    trigSeries y2 n (i + 2) (p * y2 / fpOne / ((i + 1) * (i + 2))) (if neg then plus else plus + p)
      (if neg then minus + p else minus) (!neg)

def sinFp (y : Nat) : Nat := trigSeries (y * y / fpOne) 60 1 y 0 0 false
def cosFp (y : Nat) : Nat := trigSeries (y * y / fpOne) 60 0 fpOne 0 0 false

/-- An irrational value close to a fixed-point number. -/
def Val.near (neg : Bool) (n : Nat) : Val := .fin neg n (-(fp : Int)) true

/-- A fixed-point magnitude m·2^e, or none when it needs more fractional bits. -/
def toFp (m : Nat) (e : Int) : Nat := if 0 ≤ e + fp then m * 2 ^ (e + fp).toNat else m / 2 ^ (-(e + fp)).toNat

/-- Strip factors of two from a mantissa. -/
def oddPart : Nat → Nat → Int → Nat × Int
  | 0, m, e => (m, e)
  | n + 1, m, e => if m % 2 = 0 then oddPart n (m / 2) (e + 1) else (m, e)

def frcp : Val → Val × Flags
  | .nan => (.nan, 0)
  | .inf n => (.fin n 0 0 false, 0)
  | .fin n m e _ =>
    if m = 0 then (.inf n, fDZ)
    else (.fin n (2 ^ 128 / m) (-e - 128) (2 ^ 128 % m ≠ 0), 0)

def fsqrt : Val → Val × Flags
  | .nan => (.nan, 0)
  | .inf n => if n then (.nan, fNV) else (.inf false, 0)
  | .fin n m e st =>
    if m = 0 then (.fin n 0 e st, 0)
    else if n then (.nan, fNV)
    else
      let sh : Nat := if e % 2 = 0 then 128 else 129
      let v := m * 2 ^ sh
      let r := isqrt v
      (.fin false r ((e - sh) / 2) (r * r ≠ v), 0)

def frsqrt : Val → Val × Flags
  | .nan => (.nan, 0)
  | .inf n => if n then (.nan, fNV) else (.fin false 0 0 false, 0)
  | .fin n m e _ =>
    if m = 0 then (.inf n, fDZ)
    else if n then (.nan, fNV)
    else
      let k : Nat := if e % 2 = 0 then 256 else 257
      let r := isqrt (2 ^ k / m)
      (.fin false r ((-e - k) / 2) (r * r * m ≠ 2 ^ k), 0)

def fexp2 : Val → Val × Flags
  | .nan => (.nan, 0)
  | .inf n => (if n then .fin false 0 0 false else .inf false, 0)
  | .fin n m e _ =>
    if m = 0 then (.fin false 1 0 false, 0)
    else if 9 ≤ (Nat.log2 m : Nat) + e then (.fin false 1 (if n then -400 else 400) n, 0)
    else
      let x := toFp m e
      let i := x / fpOne
      let f := x % fpOne
      if f = 0 then (.fin false 1 (if n then -(i : Int) else i) false, 0)
      else
        let ip : Int := if n then -(i : Int) - 1 else i
        let fr := if n then fpOne - f else f
        (.fin false (expFp (fr * ln2 / fpOne)) (ip - fp) true, 0)

def flog2 : Val → Val × Flags
  | .nan => (.nan, 0)
  | .inf n => if n then (.nan, fNV) else (.inf false, 0)
  | .fin n m e _ =>
    if m = 0 then (.inf true, fDZ)
    else if n then (.nan, fNV)
    else
      let k := Nat.log2 m
      let i : Int := k + e
      if m = 2 ^ k then (.fin (i < 0) i.natAbs 0 false, 0)
      else
        let z := (m - 2 ^ k) * fpOne / (m + 2 ^ k)
        let f := 2 * artanh z * fpOne / ln2
        if 0 ≤ i then (Val.near false (i.toNat * fpOne + f), 0)
        else (Val.near true (i.natAbs * fpOne - f), 0)

/-- Reduce m·2^e half-turns to a quarter: the quotient by 1/2 modulo 4 and the rest, fixed-point. -/
def halfTurns (m : Nat) (e : Int) : Nat × Nat :=
  let x := toFp m e % (2 * fpOne)
  (x / (fpOne / 2), x % (fpOne / 2))

/-- sin(π·r) and cos(π·r) for a fixed-point r below 1/2. -/
def sinPi (r : Nat) : Nat := sinFp (r * piFp / fpOne)
def cosPi (r : Nat) : Nat := cosFp (r * piFp / fpOne)

def fsin : Val → Val × Flags
  | .nan => (.nan, 0)
  | .inf _ => (.nan, fNV)
  | .fin n m e _ =>
    let (q, r) := halfTurns m e
    if r = 0 then
      (if q = 0 ∨ q = 2 then .fin n 0 0 false else .fin (n != decide (q = 3)) 1 0 false, 0)
    else
      let v := if q % 2 = 0 then sinPi r else cosPi r
      (Val.near (n != decide (2 ≤ q)) v, 0)

def fcos : Val → Val × Flags
  | .nan => (.nan, 0)
  | .inf _ => (.nan, fNV)
  | .fin _ m e _ =>
    let (q, r) := halfTurns m e
    if r = 0 then
      (if q = 1 ∨ q = 3 then .fin false 0 0 false else .fin (q = 2) 1 0 false, 0)
    else
      let v := if q % 2 = 0 then cosPi r else sinPi r
      (Val.near (q = 1 || q = 2) v, 0)

def ftanh : Val → Val × Flags
  | .nan => (.nan, 0)
  | .inf n => (.fin n 1 0 false, 0)
  | .fin n m e st =>
    if m = 0 then (.fin n 0 e st, 0)
    else
      let top := (Nat.log2 m : Nat) + e
      if top < -60 then (.fin n (m * 2 ^ 60 - 1) (e - 60) true, 0)
      else if 7 ≤ top then (Val.near n (fpOne - 1), 0)
      else
        let t := 2 * toFp m e
        let k := t / ln2
        let w := fpOne * fpOne / expFp (t % ln2) / 2 ^ k
        (Val.near n ((fpOne - w) * fpOne / (fpOne + w)), 0)

end Sys2Proof.Machine
end

