-- ==== Sys2Proof/Machine/LaneMove.lean ====
section
/-! DEFINITION. Compares, selection, moves, predicates, conversions and special functions: majors 0x1B to
0x1E (R128 to R137). -/

namespace Sys2Proof.Machine

open Sys2Proof

/-! ## Compares (R128) -/

/-- A compare of two registers into a predicate. -/
def State.compare (s : State) (g : BitVec 4) (q : BitVec 3) (a b : BitVec 6) (f : Lane → Lane → Bool) : Res State :=
  let m := s.active g
  match s.vdryAll m [s.vr a.toNat, s.vr b.toNat] with
  | .error e => .error e
  | .ok _ => .ok (s.setQ q.toNat m (maskOf 64 fun l => f (s.getV (s.vr a.toNat) l) (s.getV (s.vr b.toNat) l)))

/-- The integer conditions, by func. -/
def icond (c : Nat) (x y : Lane) : Bool :=
  match c with
  | 0 => x = y
  | 1 => x ≠ y
  | 2 => x.toInt < y.toInt
  | 3 => x.toInt ≤ y.toInt
  | 4 => y.toInt < x.toInt
  | 5 => y.toInt ≤ x.toInt
  | 6 => x.toNat < y.toNat
  | 7 => x.toNat ≤ y.toNat
  | 8 => y.toNat < x.toNat
  | _ => y.toNat ≤ x.toNat

/-- The f32 conditions: a NaN makes all but NE false. -/
def fcond (k : Ctl) (c : Nat) (x y : Lane) : Bool :=
  let v := opval k.daz .f32 x.toNat
  let w := opval k.daz .f32 y.toNat
  if v.isNan || w.isNan then c = 1
  else
    let o := v.cmp w
    match c with
    | 0 => o = 0
    | 1 => o ≠ 0
    | 2 => o < 0
    | 3 => o ≤ 0
    | 4 => 0 < o
    | _ => 0 ≤ o

def execVcmp (g : BitVec 4) (q : BitVec 3) (a b : BitVec 6) (c : BitVec 4) (s : State) : Host.Outcome State Fault Refusal :=
  finish s (s.compare g q a b (icond c.toNat))
def execVcmpF (g : BitVec 4) (q : BitVec 3) (a b : BitVec 6) (c : BitVec 4) (s : State) : Host.Outcome State Fault Refusal :=
  finish s (s.compare g q a b (fcond s.me.ctl c.toNat))
def execFcmpu (g : BitVec 4) (q : BitVec 3) (a b : BitVec 6) (s : State) : Host.Outcome State Fault Refusal :=
  finish s (s.compare g q a b fun x y => (fval .f32 x.toNat).isNan || (fval .f32 y.toNat).isNan)

/-! ## Moves and predicates (R129 to R131) -/

/-- R130: VSEL reads in each lane only the operand it selects. -/
def execVsel (g : BitVec 4) (d a b : BitVec 6) (s : State) : Host.Outcome State Fault Refusal :=
  finish s (
    let m := s.active g
    let n := s.live &&& ~~~m
    match s.vdry (s.vr a.toNat) m with
    | .error e => .error e
    | .ok _ => match s.vdry (s.vr b.toNat) n with
      | .error e => .error e
      | .ok _ => .ok (s.setV (s.vr d.toNat) s.live fun l => if bitOf m l then s.getV (s.vr a.toNat) l else s.getV (s.vr b.toNat) l))

def execVmov (g : BitVec 4) (d a : BitVec 6) (s : State) : Host.Outcome State Fault Refusal :=
  finish s (s.copyV (s.vr d.toNat) (s.vr a.toNat) (s.active g))
def execVmovi (g : BitVec 4) (d : BitVec 6) (i : BitVec 12) (s : State) : Host.Outcome State Fault Refusal :=
  finish s (.ok (s.setV (s.vr d.toNat) (s.active g) fun _ => i.signExtend 32))
def execVfromg (g : BitVec 4) (d : BitVec 6) (sreg : BitVec 5) (s : State) : Host.Outcome State Fault Refusal :=
  finish s (match s.sval sreg.toNat with
    | .error e => .error e
    | .ok v => .ok (s.setV (s.vr d.toNat) (s.active g) fun _ => v.setWidth 32))

/-- Segment width and height under PART (R16). -/
def Ctl.sw (c : Ctl) : Nat := 2 ^ bits c.part.toNat 0 2
def Ctl.sh (c : Ctl) : Nat := 2 ^ bits c.part.toNat 2 2

/-- R131: the number VLANE writes. -/
def Scribe.laneNum (c : Scribe) (sel l : Nat) : Nat :=
  let p := c.at_
  let px := l % p.pw
  let py := l / p.pw
  match sel with
  | 0 => l
  | 1 => px
  | 2 => py
  | 3 => p.ox + px
  | 4 => p.oy + py
  | 5 => py / c.ctl.sh * (p.pw / c.ctl.sw) + px / c.ctl.sw
  | _ => py % c.ctl.sh * c.ctl.sw + px % c.ctl.sw

def execVlane (g : BitVec 4) (d sel : BitVec 6) (s : State) : Host.Outcome State Fault Refusal :=
  finish s (.ok (s.setV (s.vr d.toNat) (s.active g) fun l => lane (s.me.laneNum sel.toNat l)))

def execPand (g : BitVec 4) (d a b : BitVec 3) (s : State) : Host.Outcome State Fault Refusal := finish s (.ok (s.setQ d.toNat (s.active g) (s.getQ a.toNat &&& s.getQ b.toNat)))
def execPor (g : BitVec 4) (d a b : BitVec 3) (s : State) : Host.Outcome State Fault Refusal := finish s (.ok (s.setQ d.toNat (s.active g) (s.getQ a.toNat ||| s.getQ b.toNat)))
def execPxor (g : BitVec 4) (d a b : BitVec 3) (s : State) : Host.Outcome State Fault Refusal := finish s (.ok (s.setQ d.toNat (s.active g) (s.getQ a.toNat ^^^ s.getQ b.toNat)))
def execPnot (g : BitVec 4) (d a : BitVec 3) (s : State) : Host.Outcome State Fault Refusal := finish s (.ok (s.setQ d.toNat (s.active g) (~~~(s.getQ a.toNat))))
def execPmov (g : BitVec 4) (d a : BitVec 3) (s : State) : Host.Outcome State Fault Refusal := finish s (.ok (s.setQ d.toNat (s.active g) (s.getQ a.toNat)))

/-! ## Conversions (R132, R133) -/

/-- A lane format (Table 06-4): a float format, or an integer of a width, signed or not. -/
inductive XFmt where
  | float (f : Fmt)
  | int (sgn : Bool) (w : Nat)
  deriving DecidableEq, Repr

def xfmt : Nat → XFmt
  | 0 => .float .f32
  | 1 => .float .f16
  | 2 => .float .bf16
  | 3 => .float .e4m3
  | 4 => .float .e5m2
  | 5 => .int true 32
  | 6 => .int false 32
  | 7 => .int true 16
  | 8 => .int false 16
  | 9 => .int true 8
  | _ => .int false 8

def intLo (sgn : Bool) (w : Nat) : Int := if sgn then -(2 ^ (w - 1) : Nat) else 0
def intHi (sgn : Bool) (w : Nat) : Int := if sgn then (2 ^ (w - 1) : Nat) - 1 else (2 ^ w : Nat) - 1

/-- R133: one conversion. -/
def convert (c : Ctl) (src dst : XFmt) (rm : Rm) (x st : Lane) : LaneOut :=
  match src, dst with
  | .float f, .float g => roundLane (opval c.daz f (x.toNat % 2 ^ f.width), 0) g rm st
  | .float f, .int sgn w =>
    let (st', u) := draw rm.mode st
    let (i, fl) := toInt (opval c.daz f (x.toNat % 2 ^ f.width)) (intLo sgn w) (intHi sgn w) rm.mode u
    { v := BitVec.ofInt 32 i, flags := fl, rng := st' }
  | .int sgn w, .float g =>
    roundLane (Val.ofInt (if sgn then signed w x.toNat else (x.toNat % 2 ^ w : Nat)), 0) g rm st
  | .int sgn w, .int sgn' w' =>
    let i : Int := if sgn then signed w x.toNat else (x.toNat % 2 ^ w : Nat)
    let j := max (intLo sgn' w') (min (intHi sgn' w') i)
    { v := BitVec.ofInt 32 j, flags := if j = i then 0 else fNV, rng := st }

def State.cvt (s : State) (g : BitVec 4) (d a : BitVec 6) (src dst : XFmt) (r : BitVec 2) : Res State :=
  s.fp1 g d a (convert s.me.ctl src dst (s.me.ctl.rnd r.toNat))

def execCvtF32ToX (g : BitVec 4) (d a : BitVec 6) (x : BitVec 4) (r : BitVec 2) (s : State) : Host.Outcome State Fault Refusal :=
  finish s (s.cvt g d a (.float .f32) (xfmt x.toNat) r)
def execCvtI32ToX (g : BitVec 4) (d a : BitVec 6) (x : BitVec 4) (r : BitVec 2) (s : State) : Host.Outcome State Fault Refusal :=
  finish s (s.cvt g d a (.int true 32) (xfmt x.toNat) r)
def execCvtXToF32 (g : BitVec 4) (d a : BitVec 6) (x : BitVec 4) (r : BitVec 2) (s : State) : Host.Outcome State Fault Refusal :=
  finish s (s.cvt g d a (xfmt x.toNat) (.float .f32) r)
def execCvtXToI32 (g : BitVec 4) (d a : BitVec 6) (x : BitVec 4) (r : BitVec 2) (s : State) : Host.Outcome State Fault Refusal :=
  finish s (s.cvt g d a (xfmt x.toNat) (.int true 32) r)

/-- An f32 word that holds a value exactly. -/
def exactF32 (v : Val) : Lane := lane (round v .f32 { mode := 0, daz := false, ftz := false, sat := false } 0).code

/-- R134. -/
def execVunpack (g : BitVec 4) (d a : BitVec 6) (f h : BitVec 1) (s : State) : Host.Outcome State Fault Refusal :=
  finish s (s.lane1 g d a fun x => exactF32 (opval s.me.ctl.daz (halfFmt f) (half (h = 1) x)))

def State.pack (s : State) (g : BitVec 4) (d a b : BitVec 6) (h : Fmt) : Res State :=
  s.fp2 g d a b fun x y st => packHalves (fun hi st => roundLane (opval s.me.ctl.daz .f32 (if hi then y else x).toNat, 0) h s.me.ctl.rm st) st

def execVpackF16 (g : BitVec 4) (d a b : BitVec 6) (s : State) : Host.Outcome State Fault Refusal := finish s (s.pack g d a b .f16)
def execVpackBf16 (g : BitVec 4) (d a b : BitVec 6) (s : State) : Host.Outcome State Fault Refusal := finish s (s.pack g d a b .bf16)

/-! ## Quantisation (R135, R136) -/

/-- A value divided by 2^(x − 32). -/
def Val.unscale (v : Val) (x : Nat) : Val :=
  match v with
  | .fin n m e st => .fin n m (e + 32 - x) st
  | v => v

/-- One element of a block with exponent x: format 0 to 2 narrow, 3 e4m3. -/
def quantElem (v : Val) (f t x : Nat) (rm : Rm) (u : Nat) : Rounded :=
  if f = 3 then
    let r := round (v.unscale x) .e4m3 { rm with ftz := false } u
    { r with nanBlock := !rm.sat && r.code % 128 = 127 }
  else roundNarrow v t x (narrowWidth f) rm.mode rm.sat u

/-- One block: lanes, values and stochastic states in, outputs out. In a block with a NaN every element is one: its
round draws and raises nothing (R34, R135, log 22). -/
def quantBlock (f t : Nat) (rm : Rm) (b : List (Nat × Val × Lane)) : List (Nat × LaneOut) :=
  let x := fitScale (if f = 3 then 448 * 16 else maxmag16 t (narrowWidth f)) (b.map (·.2.1))
  let nan := fun (l : Nat × Val × Lane) (fl : Flags) (rng : Lane) => (l.1, { v := lane ((64 * t + 63) * 2 ^ 24), flags := fl, rng := rng : LaneOut })
  if x = 63 then b.map fun l => nan l 0 (draw rm.mode l.2.2).1
  else
    let rs := b.map fun l => (l, quantElem l.2.1 f t x rm (draw rm.mode l.2.2).2)
    if rs.any (·.2.nanBlock) then rs.map fun r => nan r.1 r.2.flags (draw rm.mode r.1.2.2).1
    else rs.map fun r => (r.1.1, { v := lane ((64 * t + x) * 2 ^ 24 + r.2.code), flags := r.2.flags, rng := (draw rm.mode r.1.2.2).1 })

/-- R135: blocks of len consecutive lanes, of their active lanes. -/
def State.vquant (s : State) (g : BitVec 4) (d a : BitVec 6) (rm : Rm) (f t len : Nat) : Res State :=
  let m := s.active g
  let ra := s.vr a.toNat
  match s.vdry ra m with
  | .error e => .error e
  | .ok _ =>
    let outs := (List.range (64 / len)).flatMap fun j =>
      quantBlock f t rm (((lanesOf m).filter fun l => l / len = j).map fun l =>
        (l, opval s.me.ctl.daz .f32 (s.getV ra l).toNat, look 0 s.me.r.rng l))
    .ok (s.putOuts (s.vr d.toNat) m outs)

def execVquant (g : BitVec 4) (d a : BitVec 6) (r t l f : BitVec 2) (s : State) : Host.Outcome State Fault Refusal :=
  finish s (s.vquant g d a (s.me.ctl.rnd r.toNat) f.toNat t.toNat (8 * 2 ^ l.toNat))

/-- R136: the value of a code in its block. -/
def dequant (f : Nat) (x : Lane) : Lane :=
  let sc := bits x.toNat 24 8
  exactF32 (if f = 3 then scaledE4m3 (sc % 64) (x.toNat % 256) else narrowVal sc (narrowWidth f) (x.toNat % 2 ^ narrowWidth f))

def execVdequant (g : BitVec 4) (d a : BitVec 6) (f : BitVec 2) (s : State) : Host.Outcome State Fault Refusal :=
  finish s (s.lane1 g d a (dequant f.toNat))

/-! ## Special functions (R137) -/

/-- A function rounded once in FPM.RM; mode 5 acts as mode 0 and draws nothing. -/
def State.special (s : State) (g : BitVec 4) (d a : BitVec 6) (f : Val → Val × Flags) : Res State :=
  let c := s.me.ctl
  let rm := if c.rmField = 5 then c.rmWith 0 else c.rm
  s.fp1 g d a fun x st =>
    let y := f (opval c.daz .f32 x.toNat)
    let r := round y.1 .f32 rm 0
    { v := lane r.code, flags := y.2 ||| r.flags, rng := st }

def execFrcp (g : BitVec 4) (d a : BitVec 6) (s : State) : Host.Outcome State Fault Refusal := finish s (s.special g d a frcp)
def execFrsqrt (g : BitVec 4) (d a : BitVec 6) (s : State) : Host.Outcome State Fault Refusal := finish s (s.special g d a frsqrt)
def execFsqrt (g : BitVec 4) (d a : BitVec 6) (s : State) : Host.Outcome State Fault Refusal := finish s (s.special g d a fsqrt)
def execFexp2 (g : BitVec 4) (d a : BitVec 6) (s : State) : Host.Outcome State Fault Refusal := finish s (s.special g d a fexp2)
def execFlog2 (g : BitVec 4) (d a : BitVec 6) (s : State) : Host.Outcome State Fault Refusal := finish s (s.special g d a flog2)
def execFsin (g : BitVec 4) (d a : BitVec 6) (s : State) : Host.Outcome State Fault Refusal := finish s (s.special g d a fsin)
def execFcos (g : BitVec 4) (d a : BitVec 6) (s : State) : Host.Outcome State Fault Refusal := finish s (s.special g d a fcos)
def execFtanh (g : BitVec 4) (d a : BitVec 6) (s : State) : Host.Outcome State Fault Refusal := finish s (s.special g d a ftanh)

end Sys2Proof.Machine
end

