-- ==== Sys2Proof/Machine/Coll.lean ====
section
/-! DEFINITION. Collectives (R386 to R396, R45): COLL, contributions, completion, and partial ends. -/

namespace Sys2Proof.Machine

open Sys2Proof

/-! ## The descriptor (Table 25-1) -/

def Coll.f (c : Coll) (lo w : Nat) : Nat := bits c.desc.toNat lo w
def Coll.op (c : Coll) : Nat := c.f 384 4
def Coll.wire (c : Coll) : Nat := c.f 388 5
def Coll.lc (c : Coll) : Nat := c.f 393 2
def Coll.t (c : Coll) : Nat := c.f 395 2
def Coll.alg (c : Coll) : Nat := c.f 397 2
def Coll.rank (c : Coll) : Nat := c.f 399 12
def Coll.nrank (c : Coll) : Nat := c.f 411 12
def Coll.n (c : Coll) : Nat := c.f 423 28
def Coll.bar (c : Coll) : Nat := c.f 451 33
def Coll.corr (c : Coll) : BitVec 24 := BitVec.ofNat 24 (c.f 484 24)
def Coll.crec (c : Coll) : Bool := c.f 508 1 = 1

/-- A wire format without blocks: bf16 or f32. -/
def plainWire (wire : Nat) : Bool := wire = 5 || wire = 7

/-- The block length L. -/
def Coll.len (c : Coll) : Nat := if plainWire c.wire then 1 else 8 * 2 ^ c.lc

/-- c of R389. -/
def Coll.chunk (c : Coll) : Nat := c.n / c.nrank

/-- Elements from `a` on, `k` of them. -/
def span (a k : Nat) : List Nat := (List.range k).map (· + a)

/-- R389: the elements this rank sends at all, and those it sends to rank k. -/
def Coll.sends (c : Coll) : List Nat := if c.op = 2 then span (c.rank * c.chunk) c.chunk else span 0 c.n
def Coll.sendsTo (c : Coll) (k : Nat) : List Nat := if c.op = 1 then span (k * c.chunk) c.chunk else c.sends

/-- Elements this rank writes. -/
def Coll.writes (c : Coll) : List Nat := if c.op = 1 then span (c.rank * c.chunk) c.chunk else span 0 c.n

/-! ## The checks of R388 -/

/-- A copy that counts on a barrier, for the check of it. -/
def barOnly (bar : Nat) : Copy := mkCopy 0 0 0 none ((BitVec.ofNat 512 bar) <<< 474) 0 0

/-- The DETAIL of the first breach of the other fields. -/
def State.collFault (s : State) (c : Coll) : Option Nat :=
  if c.crec ∧ (bits s.me.ctl.qring.toNat 4 4 = 0 ∨ 14 ≤ bits s.me.ctl.qring.toNat 0 4) then some 11
  else if 3 ≤ c.op ∨ c.alg = 3 then some 13
  else if ¬ ([0x0A, 0x0B, 2, 5, 7].contains c.wire) ∨ (c.t ≠ 0 ∧ c.wire ≠ 0x0A ∧ c.wire ≠ 0x0B) ∨ (c.lc ≠ 0 ∧ plainWire c.wire) then some 14
  else if c.nrank = 0 ∨ c.nrank ≤ c.rank ∨ c.n = 0 ∨ c.n % (if c.op = 0 then c.len else c.nrank * c.len) ≠ 0 then some 15
  else none

/-- A capability trap of COLL: which capability, and the entry's index. -/
def collCap (code which k addr : Nat) : Trap := { code := code, detail := 3, tinfo := which + k * 16, taddr := addr }

/-- A buffer: space 0, load, store and engine. -/
def bufCheck (c : Cap) (w which : Nat) : Res Unit :=
  if c.tag = false then trap (collCap cCAP_TAG which 0 c.cursor)
  else if c.space ≠ 0 then trap (collCap cCAP_PERM which 0 c.cursor)
  else match capCheck c c.cursor w (pLoad + pStore + pEngine) .store false with
    | some code => trap (collCap code which 0 c.cursor)
    | none => .ok ()

/-- What is wrong with the entry of rank k. -/
def entryFault (c : Coll) (k : Nat) (e : Cap) : Option Nat :=
  if e.tag = false then some cCAP_TAG
  else if ¬ e.has pEngine ∨ ¬ (e.space = 0 ∨ (e.space = 3 ∧ e.has pShare)) then some cCAP_PERM
  else if k = c.rank ∧ ¬ (e.space = c.buf.space ∧ e.cursor = c.buf.cursor) then some cCAP_BOUNDS
  else none

/-- Read the entries of TABLE from rank k on. -/
def State.readTable (s : State) (c : Coll) (table : Cap) (k : Nat) : Nat → Res (State × List Cap)
  | 0 => .ok (s, [])
  | n + 1 =>
    let a := modw 64 ((table.cursor : Int) + (128 * k : Nat))
    match s.getBlocking 0 table a 128 with
    | .error e => .error e
    | .ok (s1, v, poison) =>
      let e : Cap := ⟨s.tagAt table a && !poison, BitVec.ofNat 128 v⟩
      match entryFault c k e with
      | some code => trap (collCap code 7 k a)
      | none => match s1.readTable c table (k + 1) n with
        | .error x => .error x
        | .ok (s2, es) => .ok (s2, e :: es)

/-! ## Reading BUF and RES (R393, R394) -/

def Coll.who (c : Coll) : Who := { code := (engineId 4 c.slot).toNat, sid := some c.sid, team := c.team, asid := c.asid, place := c.place }

/-- One read of a collective at the issue of its COLL. An uncorrectable word is POISON at the COLL, as for a blocking load: Table 20-3 has no
row for a collective (the model's choice, log 106). TINFO [3:0] of TRANSLATION is 0, since no register holds the capability (the model's
choice, log 143). -/
def State.collGet (s : State) (c : Coll) (a w : Nat) : Res (State × Nat) :=
  match s.getFarAs c.who none c.asid 0 a w .load with
  | .error m => s.translationStop 0 .load m
  | .ok g => match g.waits, g.bad with
    | some ly, _ => s.tripStop ly
    | none, some (_, b) => .error (.trapIn g.st (poisonMem b))
    | none, none => .ok (g.st, g.n)

/-- 32-bit words of a buffer, by element. -/
def State.collWords (s : State) (c : Coll) (base : Nat) : List Nat → Res (State × Tbl Lane)
  | [] => .ok (s, [])
  | i :: is =>
    match s.collGet c (base + 32 * i) 32 with
    | .error e => .error e
    | .ok (s1, v) => match s1.collWords c base is with
      | .error e => .error e
      | .ok (s2, t) => .ok (s2, (i, BitVec.ofNat 32 v) :: t)

/-! ## Quantising (R391) -/

/-- Rounding as a collective does: mode 0, saturating, subnormals kept, no flag. -/
def wireRm : Rm := { mode := 0, daz := false, ftz := false, sat := true }

def f32Round (v : Val) : Lane := BitVec.ofNat 32 (round v .f32 wireRm 0).code
def f32Sum (a b : Val) : Lane := f32Round (Val.sum 0 [a, b]).1
def laneVal (x : Lane) : Val := fval .f32 x.toNat

/-- The element format of a scaled wire, as VQUANT numbers it: 1 m4, 2 m6, 3 e4m3. -/
def wireElem (wire : Nat) : Nat := if wire = 0x0A then 1 else if wire = 0x0B then 2 else 3

/-- One element sent: d, its residual, and whether it saturated. -/
structure Wired where
  d : Lane
  r : Lane
  sat : Bool := false

/-- One element of bf16 or f32. -/
def wirePlain (wire : Nat) (v : Lane) : Wired :=
  let d := if wire = 5 then f32Round (fval .bf16 (round (laneVal v) .bf16 wireRm 0).code) else v
  { d := d, r := f32Sum (laneVal v) (laneVal d).negate }

/-- One block of v. -/
def wireBlock (wire t : Nat) (vs : List (Nat × Lane)) : List (Nat × Wired) :=
  if plainWire wire then vs.map fun p => (p.1, wirePlain wire p.2)
  else
    let f := wireElem wire
    let x := fitScale (if f = 3 then 448 * 16 else maxmag16 t (narrowWidth f)) (vs.map fun p => laneVal p.2)
    vs.map fun p =>
      if x = 63 then (p.1, { d := f32Round .nan, r := 0 })
      else
        let q := quantElem (laneVal p.2) f t x wireRm 0
        let d := f32Round (if f = 3 then scaledE4m3 x q.code else narrowVal (64 * t + x) (narrowWidth f) q.code)
        (p.1, { d := d, r := f32Sum (laneVal p.2) (laneVal d).negate, sat := q.flags &&& fSV ≠ 0 })

/-- The first `n` elements of a list as one block, and the rest. -/
def wireAll (wire t len : Nat) : Nat → List (Nat × Lane) → List (Nat × Wired)
  | 0, _ => []
  | fuel + 1, vs => if vs = [] then [] else wireBlock wire t (vs.take len) ++ wireAll wire t len fuel (vs.drop len)

/-! ## Ending (R394, R395) -/

/-- Bits that the collective counts. -/
def Coll.counted (c : Coll) : Nat := 32 * c.writes.length

/-- The subtraction from PEND, held back while the team is saved (R396). -/
def State.collCount (s : State) (c : Coll) : State × Bool :=
  if c.bar = noBar then (s, true)
  else match s.team c.team with
    | some t =>
      if t.saved then
        match find t.savedBars c.bar with
        | some b => (s.setTeam { t with savedBars := set t.savedBars c.bar { b with owed := b.owed ++ [c.counted] } }, true)
        | none => (s, false)
      else s.landing c.bar c.counted
    | none => s.landing c.bar c.counted

/-- The record of a collective, as a copy that is over. -/
def Coll.asCopy (c : Coll) (status fcode fdetail : Nat) : Copy :=
  { mkCopy c.sid c.team c.asid none ((BitVec.ofNat 512 c.corr.toNat) <<< 450) 0 0 with
    bitsDone := c.counted, status := status, fcode := fcode, fdetail := fdetail, ring := c.ring, ended := true, coll := some c.slot }

/-- What forgets a collective that ends. -/
def State.collGone (s : State) (key : Nat) : State :=
  let who : Who := { place := placeOf .coll key }
  let t := s.leaveLine who
  { t with colls := del s.colls key, sentContribs := s.sentContribs.filter fun x => x.sender ≠ key,
           heldContribs := s.heldContribs.map fun h => if h.sender = some key then { h with sender := none } else h }

/-- Subtract, write the record, and free the slot. -/
def State.collEnd (s : State) (key : Nat) (c : Coll) (bit fcode fdetail : Nat) : State :=
  let (s2, live) := (s.collGone key).collCount c
  let status := c.status ||| bit ||| (if live then 0 else 2 ^ 7)
  let s3 := s2.progress c.asid
  if c.ring.isSome then
    let s4 := s3.addCopy (c.asCopy status fcode fdetail)
    (s4.recordStep s3.nextCopy).getD s4
  else s3

/-- STATUS bits of a collective. -/
def stPartial : Nat := 2 ^ 9
def stMismatch : Nat := 2 ^ 10
def stReset : Nat := 2 ^ 11
def stSaturated : Nat := 2 ^ 12

/-- Every contribution has come. -/
def Coll.full (c : Coll) : Bool := c.got.length = c.nrank

/-- End the collective of a key, if it is in progress and still needs a contribution (R395). -/
def State.collStop (s : State) (key bit : Nat) : State :=
  match find s.colls key with
  | some c => if c.full then s else s.collEnd key c bit 0 0
  | none => s

/-- Write words of a buffer whose pages are there. -/
def State.collPut (s : State) (c : Coll) (base : Nat) : List (Nat × Lane) → State
  | [] => s
  | (i, v) :: vs => (match s.engineSet c.who c.asid 0 (base + 32 * i) 32 v.toNat .store false with
    | .done s1 => s1
    | _ => s).collPut c base vs

/-- The value of an element from what came: its sum in rank order (R45, R392), or for OP 2 the sender's d. -/
def Coll.folded (c : Coll) (i : Nat) : Lane :=
  let term := fun (k : Nat) => (c.got.find? fun (m : Contrib) => m.rank = k).elim 0 fun m =>
    m.vals.getD (if c.op = 0 then i else i % c.chunk) 0
  if c.op = 2 then term (i / c.chunk)
  else (span 1 (c.nrank - 1)).foldl (fun a k => f32Sum (laneVal a) (laneVal (term k))) (term 0)

/-- A page that the results or residuals go to is not there when they are to be written: the writes wait for it; a walk error
ends the collective without them. -/
def State.collFaulted (s : State) (key : Nat) (c : Coll) (m : Miss) : State :=
  let s0 := s.walkedTo c.who m
  let later : State := { s with colls := set s.colls key { c with queued := 0 } }
  if m.detail = 2 then (s0.faultNote c.asid 1 c.who.code .store m.detail m.addr).elim later fun s1 => s1.collEnd key c (2 ||| stPartial) cTRANSLATION 2
  else match s0.faultQ c.asid 1 1 c.who.code .store m.detail m.addr with
    | (_, none) => later
    | (s1, some e) => { s1 with colls := set s1.colls key { c with queued := e + 1 } }

/-- R393, R394: where a rank writes at completion: its results, its residuals and the tie word with the zeros above it. -/
def Coll.spans (c : Coll) : List (Nat × Nat) :=
  (c.writes.map fun i => (c.buf.cursor + 32 * i, 32)) ++ (c.newRes.map fun p => (c.res.cursor + 128 + 32 * p.1, 32)) ++ [(c.res.cursor, 128)]

/-- The first of them whose page is not there. -/
def State.collMiss (s : State) (c : Coll) : Option Miss :=
  c.spans.findSome? fun p => match s.translate c.who.core c.asid .store p.1 p.2 with
    | .error (d, v) => some ⟨c.asid, d, v, p.1⟩
    | .ok _ => none

/-- R393, R394: every contribution has come: write BUF and RES and end. -/
def State.collDone (s : State) (key : Nat) (c : Coll) : State :=
  match s.collMiss c with
  | some m => s.collFaulted key c m
  | none =>
    let later := fun (u : State) => { u with colls := set u.colls key { c with queued := 0 } }
    if s.barReads (barOnly c.bar) then later (s.leaveLine c.who)
    else match c.spans.findSome? fun p => s.farLayer c.who c.asid 0 p.1 p.2 with
    | some ly => later ((s.standBy c.who (some ly)).getD s)
    | none =>
      let s1 := s.collPut c c.buf.cursor (c.writes.map fun i => (i, c.folded i))
      let s2 := s1.collPut c (c.res.cursor + 128) c.newRes
      let s3 := match s2.engineSet c.who c.asid 0 c.res.cursor 128 c.buf.cursor .store false with
        | .done t => t
        | _ => s2
      s3.collEnd key c 1 0 0

/-- Try again the writes of collectives that waited for a page or a layer. -/
def State.retryColls (s : State) : State :=
  s.colls.foldl (fun s p => match find s.colls p.1 with
    | some c => if c.full ∧ c.queued = 0 then s.collDone p.1 c else s
    | none => s) s

/-! ## Contributions (R390) -/

/-- The fields a contribution carries agree with a COLL's. -/
def Coll.agrees (c : Coll) (m : Contrib) : Bool :=
  m.op = c.op && m.wire = c.wire && m.lc = c.lc && m.t = c.t && m.n = c.n && m.nrank = c.nrank && m.rank < c.nrank
    && m.vals.length = (if c.op = 0 then c.n else c.chunk)

/-- The incomplete COLL a contribution is for, that has none of its rank yet. -/
def State.collFor (s : State) (m : Contrib) (asid : BitVec 14) (addr : Nat) : Option (Nat × Coll) :=
  s.colls.find? fun p => p.2.asid = asid && p.2.buf.cursor = addr && p.2.corr = m.corr && !(p.2.got.any fun (g : Contrib) => g.rank = m.rank)

/-- A contribution and its COLL disagree: both collectives end with MISMATCH. -/
def State.mismatch (s : State) (key sender : Option Nat) : State :=
  let stop := fun (s : State) (k : Option Nat) => match k with
    | some k => s.collStop k stMismatch
    | none => s
  stop (stop s key) sender

/-- A contribution arrives at a buffer of this package; `time` is when it came first. -/
def State.arrive (s : State) (m : Contrib) (asid : BitVec 14) (addr time : Nat) (sender : Option Nat) : State :=
  match s.collFor m asid addr with
  | none => { s with heldContribs := s.heldContribs ++ [{ m := m, asid := asid, addr := addr, time := time, sender := sender }] }
  | some (k, c) =>
    if c.agrees m then
      let c1 := { c with got := c.got ++ [m] }
      let s1 := { s with colls := set s.colls k c1 }
      if c1.full then s1.collDone k c1 else s1
    else s.mismatch (some k) (if sender = some k then none else sender)

/-- Contributions that waited for their COLL are matched again. -/
def State.rematch (s : State) (hs : List Held) : State :=
  hs.foldl (fun s h => s.arrive h.m h.asid h.addr h.time (h.sender.filter fun k => (find s.colls k).isSome)) { s with heldContribs := [] }

/-- R390: a contribution of another package arrives. -/
def execContribution (m : Contrib) (s : State) : Host.Outcome State Fault Refusal :=
  event (m.src ≠ s.mgmt.pkg && s.pkgReachable m.src && (s.ownWindow m.target.toNat 32).isSome)
    (fun t => match t.ownWindow m.target.toNat 32 with
      | some (asid, a) => t.arrive m asid a t.time none
      | none => t) s

/-- 100 ms in ns. -/
def holdTime : Nat := 100000000

/-- R390: held contributions first, then those sent to other packages, whose package tells that no COLL there matched them. -/
def execContributionTimeout (k : Nat) (s : State) : Host.Outcome State Fault Refusal :=
  match s.heldContribs[k]? with
  | some h =>
    event (h.time + holdTime ≤ s.time) (fun t =>
      let key := (t.colls.find? fun p => p.2.asid = h.asid && p.2.buf.cursor = h.addr).map (·.1)
      { t with heldContribs := t.heldContribs.eraseIdx k }.mismatch key (if h.sender = key then none else h.sender)) s
  | none => match s.sentContribs[k - s.heldContribs.length]? with
    | some x => event (x.time + holdTime ≤ s.time) (fun t => t.collStop x.sender stMismatch) s
    | none => .refused .notEnabled

/-! ## COLL (R386) -/

/-- The descriptor at a line, with its ring entry reserved. -/
def State.collDesc (s : State) (ln slot : Nat) : Coll :=
  let v := (s.lineBits ln).toNat
  let tags := (s.line ln).tags.toNat
  let cap := fun (u : Nat) => (⟨bits tags u 1 = 1, BitVec.ofNat 128 (bits v (128 * u) 128)⟩ : Cap)
  let q := s.me.ctl.qring.toNat
  let c : Coll := { sid := s.me.at_.id, team := s.me.at_.team, asid := s.me.at_.asid, die := dieOf s.me.at_.id, slot := slot, desc := s.lineBits ln,
                    buf := cap 0, res := cap 1, tbl := [cap 2], status := 0, ring := none, mine := [], newRes := [], got := [], queued := 0 }
  if c.crec then { c with ring := some (s.getC (bits q 0 4), bits q 4 4, bits q 32 32) } else c

/-- The lowest free slot of a die: a collective is incomplete until its record is written (R394). -/
def State.collSlot (s : State) (die : Nat) : Option Nat :=
  (List.range 64).find? fun i => (find s.colls (64 * die + i)).isNone && !s.copies.any fun q => q.2.coll = some i && q.2.die = die

/-- The contribution to rank k. -/
def Coll.contrib (c : Coll) (pkg k : Nat) (target : Nat) : Contrib :=
  { src := pkg, op := c.op, wire := c.wire, lc := c.lc, t := c.t, n := c.n, nrank := c.nrank, corr := c.corr, rank := c.rank,
    target := BitVec.ofNat 64 target, vals := (c.sendsTo k).map fun i => look 0 c.mine i }

/-- Send one contribution to the buffer of an entry: here, or to another package within reach. Of a collective that has ended by then,
nothing is left to end. -/
def State.sendOne (s : State) (key : Nat) (asid : BitVec 14) (m : Contrib) (e : Cap) : State :=
  match s.served asid e.space e.cursor 32 with
  | some (id, a) => s.arrive m id a s.time (if (find s.colls key).isSome then some key else none)
  | none =>
    if s.peerReachable e.cursor ∧ (find s.colls key).isSome then { s with sentContribs := s.sentContribs ++ [{ m := m, sender := key, time := s.time }] } else s

/-- Send to the ranks from k on. -/
def State.sendFrom (s : State) (key : Nat) (c : Coll) (k : Nat) : List Cap → State
  | [] => s
  | e :: es =>
    let m := c.contrib s.mgmt.pkg k e.cursor
    (s.sendOne key c.asid m e).sendFrom key c (k + 1) es

/-- Whether a rank whose contribution is missing lies in a package out of reach (R395). -/
def State.collCut (s : State) (c : Coll) : Bool :=
  (List.range c.nrank).any fun k =>
    !(c.got.any fun (g : Contrib) => g.rank = k) && (c.tbl[k]?).any fun e => s.outOfReach e.space e.cursor 32

/-- R395: collectives that need what an unreachable package would send end partial. -/
def State.cutColls (s : State) : State :=
  s.colls.foldl (fun s p => match find s.colls p.1 with
    | some c => if s.collCut c then s.collStop p.1 stPartial else s
    | none => s) s

/-- Start a collective that has passed its checks. -/
def State.collStart (s : State) (c : Coll) (ring : Bool) : Res State :=
  match s.collGet c c.res.cursor 64 with
  | .error e => .error e
  | .ok (s1, tie) => match s1.collWords c c.buf.cursor c.sends with
    | .error e => .error e
    | .ok (s2, xs) =>
      let reset := tie ≠ c.buf.cursor
      match (if reset then .ok (s2, []) else s2.collWords c (c.res.cursor + 128) c.sends) with
      | .error e => .error e
      | .ok (s3, rs) =>
        let vs := xs.map fun p => (p.1, f32Sum (laneVal p.2) (laneVal (look 0 rs p.1)))
        let w := wireAll c.wire c.t c.len vs.length vs
        let sat := w.any fun p => p.2.sat
        let c1 := { c with mine := w.map fun p => (p.1, p.2.d), newRes := w.map fun p => (p.1, p.2.r), place := placeOf .coll (64 * c.die + c.slot),
                           status := (if reset then stReset else 0) ||| (if sat then stSaturated else 0) }
        let key := 64 * c.die + c.slot
        let s4 := (if ring then s3.onCtl Ctl.nextRecord else s3).endRollback c.team 4
        let sx : State := { s4 with colls := set s4.colls key c1 }
        let s5 := (sx.rematch s4.heldContribs).sendFrom key c1 0 c1.tbl
        .ok (match find s5.colls key with
          | some c2 => if s5.collCut c2 then s5.collStop key stPartial else s5
          | none => s5)

/-- The plane lines that a COLL accesses for its scribe: its descriptor's, its object's, its table's, and its ring entry's. -/
def State.collTouches (s : State) (lane dep : Nat) : List Nat :=
  let ln := planeAddr (s.me.at_.peOf lane) dep / 512
  let c := s.collDesc ln 0
  let table := c.tbl.headD emptyCap
  ln :: ((barOnly c.bar).barObjs.map (· / 512) ++ (if table.space = 1 then linesIn table.cursor (128 * c.nrank) else []) ++ recordLines c.ring)

/-- The checks of R388 and the start. -/
def State.coll (s : State) (lane ln : Nat) : Res State :=
  match s.collSlot (dieOf s.me.at_.id) with
  | none => parkOn .collSlot
  | some slot =>
    let c := s.collDesc ln slot
    let table := c.tbl.headD emptyCap
    if c.f 511 1 = 1 then trap (quillFault 8 0 (512 * ln)) else
    match s.barFault (barOnly c.bar) (quillFault 10 0 (512 * ln)) with
    | .error e => .error e
    | .ok _ => match s.collFault c with
    | some d => trap (quillFault d 0 (512 * ln))
    | none => match (if c.crec then (s.cval (bits s.me.ctl.qring.toNat 0 4)).map fun _ => () else .ok ()) with
    | .error e => .error e
    | .ok _ => match bufCheck c.buf (32 * c.n) 4 with
      | .error e => .error e
      | .ok _ => match bufCheck c.res (128 + 32 * c.n) 5 with
        | .error e => .error e
        | .ok _ => match capCheck table table.cursor (128 * c.nrank) (pLoad + pLoadCap + pEngine) .load true with
          | some code => trap (collCap code 6 0 table.cursor)
          | none => match s.readTable c table 0 c.nrank with
            | .error e => .error e
            | .ok (s1, es) =>
              match (c.ring.bind fun r => ringCaps r.1 r.2.1 0) with
              | some t => trap t
              | none => match s1.ringLine lane c.ring with
                | .error e => .error e
                | .ok _ => s1.collStart { c with tbl := es } c.crec

def execColl (a b : BitVec 5) (s : State) : Host.Outcome State Fault Refusal :=
  finish s (match s.sdry [a.toNat, b.toNat] with
    | .error e => .error e
    | .ok _ =>
      let lane := (s.getS a.toNat).toNat
      let dep := (s.getS b.toNat).toNat
      if s.me.at_.lanes ≤ lane ∨ s.hole (s.me.at_.peOf lane) then trap (quillFault 12 0 (s.descAt lane dep))
      else if dep % 512 ≠ 0 ∨ 131072 < dep + 512 then trap { code := cALIGN, detail := 3, taddr := dep }
      else
        let ln := planeAddr (s.me.at_.peOf lane) dep / 512
        match s.release 2 with
        | .error e => .error e
        | .ok _ => match s.descLines lane [ln] with
          | .error e => .error e
          | .ok _ => s.coll lane ln)

end Sys2Proof.Machine
end

