-- ==== Sys2Proof/Machine/Cross.lean ====
section
/-! DEFINITION. Cross-lane words: major 0x1F (R138 to R145), with the tree of R43 and the scan of R44. -/

namespace Sys2Proof.Machine

open Sys2Proof

/-! ## Segments -/

/-- Segment size. -/
def Ctl.segSize (c : Ctl) : Nat := c.sw * c.sh

/-- The lane at position t of the segment of lane l. -/
def Scribe.laneAt (c : Scribe) (l t : Nat) : Nat :=
  let w := c.at_.pw
  let x := l % w / c.ctl.sw * c.ctl.sw + t % c.ctl.sw
  let y := l / w / c.ctl.sh * c.ctl.sh + t / c.ctl.sw
  y * w + x

/-- R139: the lane that a read of position t gives a value from; none for a miss. -/
def State.source (s : State) (l : Nat) (t : Option Nat) : Option Nat :=
  match t with
  | none => none
  | some t =>
    if s.me.ctl.segSize ≤ t then none
    else
      let k := s.me.laneAt l t
      if s.hole (s.me.at_.peOf k) then none else some k

/-- The lanes that active lanes read. -/
def State.sources (s : State) (m : Word) (pos : Nat → Option Nat) : Word :=
  (lanesOf m).foldl (fun acc l => match s.source l (pos l) with
    | some k => acc ||| word (2 ^ k)
    | none => acc) 0

/-- A form in which active lane l takes va of position pos l. -/
def State.gather (s : State) (m : Word) (d a : Nat) (pos : Nat → Option Nat) : Res State :=
  match s.vdry a (s.sources m pos) with
  | .error e => .error e
  | .ok _ => .ok (s.setV d m fun l => match s.source l (pos l) with
      | some k => s.getV a k
      | none => 0)

/-! ## Permutes, shuffles, broadcast (R140 to R142) -/

/-- VPERM. Where both operands are wet or poisoned, the positions of vb decide before va (the model's choice, log 101). -/
def State.vperm (s : State) (g : BitVec 4) (d a b : BitVec 6) (misses : Bool) : Res State :=
  let m := s.active g
  let rb := s.vr b.toNat
  let pos := fun l => some (bits (s.getV rb l).toNat 0 6)
  match s.vdry rb m with
  | .error e => .error e
  | .ok _ => match s.gather m (s.vr d.toNat) (s.vr a.toNat) pos with
    | .error e => .error e
    | .ok s1 => .ok (if misses then s1.setQ 7 m (maskOf 64 fun l => (s.source l (pos l)).isNone) else s1)

def execVperm (g : BitVec 4) (d a b : BitVec 6) (s : State) : Host.Outcome State Fault Refusal := finish s (s.vperm g d a b false)
def execVpermM (g : BitVec 4) (d a b : BitVec 6) (s : State) : Host.Outcome State Fault Refusal := finish s (s.vperm g d a b true)

/-- R141: the moved coordinate, of n, in a mode. -/
def shuffled (mode : Nat) (x : Nat) (k : Int) (n : Nat) : Option Nat :=
  match mode with
  | 0 => some (((x : Int) + k) % (n : Int)).toNat
  | 1 => if 0 ≤ (x : Int) + k ∧ (x : Int) + k < n then some ((x : Int) + k).toNat else none
  | _ => if x ^^^ k.toNat < n then some (x ^^^ k.toNat) else none

/-- The position a VSHUFX (or VSHUFY) of lane l reads. -/
def Scribe.shufPos (c : Scribe) (isY : Bool) (mode : Nat) (k : Int) (l : Nat) : Option Nat :=
  let p := c.laneNum 6 l
  let sx := p % c.ctl.sw
  let sy := p / c.ctl.sw
  if isY then (shuffled mode sy k c.ctl.sh).map fun y => y * c.ctl.sw + sx
  else (shuffled mode sx k c.ctl.sw).map fun x => sy * c.ctl.sw + x

def execVshufx (g : BitVec 4) (d a : BitVec 6) (mode : BitVec 2) (k : BitVec 4) (s : State) : Host.Outcome State Fault Refusal :=
  finish s (s.gather (s.active g) (s.vr d.toNat) (s.vr a.toNat) (s.me.shufPos false mode.toNat k.toInt))
def execVshufy (g : BitVec 4) (d a : BitVec 6) (mode : BitVec 2) (k : BitVec 4) (s : State) : Host.Outcome State Fault Refusal :=
  finish s (s.gather (s.active g) (s.vr d.toNat) (s.vr a.toNat) (s.me.shufPos true mode.toNat k.toInt))
def execVbcast (g : BitVec 4) (d a p : BitVec 6) (s : State) : Host.Outcome State Fault Refusal :=
  finish s (s.gather (s.active g) (s.vr d.toNat) (s.vr a.toNat) fun _ => some p.toNat)

/-! ## Reductions and scans (R143, R43, R44) -/

/-- One combination of Table 06-7. FMIN and FMAX follow R27: they return an operand, so nothing is rounded, flushed to zero or drawn for (the
model's reading of R143, log 134). -/
def combine (c : Ctl) (op : Nat) (x y st : Lane) : LaneOut :=
  match op with
  | 0 => { v := x + y, rng := st }
  | 1 => fpAdd c .f32 false x.toNat y.toNat st
  | 2 => { v := if x.toInt ≤ y.toInt then x else y, rng := st }
  | 3 => { v := if x.toInt ≤ y.toInt then y else x, rng := st }
  | 4 => { v := if x.toNat ≤ y.toNat then x else y, rng := st }
  | 5 => { v := if x.toNat ≤ y.toNat then y else x, rng := st }
  | 6 => fpMin c .f32 false x.toNat y.toNat st
  | 7 => fpMin c .f32 true x.toNat y.toNat st
  | 8 => { v := x &&& y, rng := st }
  | 9 => { v := x ||| y, rng := st }
  | _ => { v := x ^^^ y, rng := st }

/-- What a reduction carries along: stochastic states and flags. -/
abbrev Acc := Tbl Lane × Flags

/-- One level of the tree: nodes are absent, or a value with the lane at the lowest present position. -/
def treeLevel (f : Lane → Lane → Lane → LaneOut) : List (Option (Nat × Lane)) → Acc → List (Option (Nat × Lane)) × Acc
  | some a :: some b :: t, acc =>
    let o := f a.2 b.2 (look 0 acc.1 a.1)
    let (rest, acc') := treeLevel f t (put 0 acc.1 a.1 o.rng, acc.2 ||| o.flags)
    (some (a.1, o.v) :: rest, acc')
  | none :: b :: t, acc => let (rest, acc') := treeLevel f t acc; (b :: rest, acc')
  | a :: none :: t, acc => let (rest, acc') := treeLevel f t acc; (a :: rest, acc')
  | [a], acc => ([a], acc)
  | [], acc => ([], acc)

/-- Levels of the tree until one root remains. -/
def tree (f : Lane → Lane → Lane → LaneOut) : Nat → List (Option (Nat × Lane)) → Acc → Option (Nat × Lane) × Acc
  | 0, l, acc => (l.headD none, acc)
  | n + 1, l, acc => let (l', acc') := treeLevel f l acc; tree f n l' acc'

/-- The inclusive scan of the present values, each with its lane, in order. -/
def scan (f : Lane → Lane → Lane → LaneOut) : Option Lane → List (Nat × Lane) → Acc → List (Nat × Lane) × Acc
  | _, [], acc => ([], acc)
  | none, (l, x) :: t, acc => let (rest, acc') := scan f (some x) t acc; ((l, x) :: rest, acc')
  | some v, (l, x) :: t, acc =>
    let o := f v x (look 0 acc.1 l)
    let (rest, acc') := scan f (some o.v) t (put 0 acc.1 l o.rng, acc.2 ||| o.flags)
    ((l, o.v) :: rest, acc')

/-- The lanes of the segment that the lane `l` lies in, by position. -/
def Scribe.segLanes (c : Scribe) (l : Nat) : List Nat := (List.range c.ctl.segSize).map (c.laneAt l)

/-- The first lane of each segment. -/
def Scribe.segHeads (c : Scribe) : List Nat := (List.range c.at_.lanes).filter fun l => c.laneNum 6 l = 0

/-- VRED on one segment: the results of its active lanes. -/
def State.redSeg (s : State) (m : Word) (a op head : Nat) (acc : Acc) : List (Nat × Lane) × Acc :=
  let ls := s.me.segLanes head
  let (root, acc') := tree (combine s.me.ctl op) 6 (ls.map fun l => if bitOf m l then some (l, s.getV a l) else none) acc
  ((ls.filter (bitOf m)).map fun l => (l, (root.map (·.2)).getD 0), acc')

/-- VSCAN on one segment. -/
def State.scanSeg (s : State) (m : Word) (a op head : Nat) (acc : Acc) : List (Nat × Lane) × Acc :=
  scan (combine s.me.ctl op) none (((s.me.segLanes head).filter (bitOf m)).map fun l => (l, s.getV a l)) acc

/-- Run a form over the segments. -/
def overSegs (f : Nat → Acc → List (Nat × Lane) × Acc) : List Nat → Acc → List (Nat × Lane) × Acc
  | [], acc => ([], acc)
  | h :: hs, acc =>
    let (r, acc) := f h acc
    let (rs, acc) := overSegs f hs acc
    (r ++ rs, acc)

/-- VRED and VSCAN. -/
def State.reduce (s : State) (g : BitVec 4) (d a : BitVec 6) (f : Word → Nat → Nat → Acc → List (Nat × Lane) × Acc) : Res State :=
  let m := s.active g
  let ra := s.vr a.toNat
  match s.vdry ra m with
  | .error e => .error e
  | .ok _ =>
    let (outs, acc) := overSegs (f m ra) s.me.segHeads (s.me.r.rng, 0)
    .ok (((s.setV (s.vr d.toNat) m fun l => look 0 outs l).onR fun r => { r with rng := acc.1 }).addFlags acc.2)

def execVred (g : BitVec 4) (d a : BitVec 6) (o : BitVec 4) (s : State) : Host.Outcome State Fault Refusal :=
  finish s (s.reduce g d a fun m ra => s.redSeg m ra o.toNat)
def execVscan (g : BitVec 4) (d a : BitVec 6) (o : BitVec 4) (s : State) : Host.Outcome State Fault Refusal :=
  finish s (s.reduce g d a fun m ra => s.scanSeg m ra o.toNat)

/-! ## Match, pick and vote (R144, R145) -/

/-- R144: the lowest position that holds a lane's pattern, and how many active lanes hold it. -/
def State.matches (s : State) (m : Word) (a l : Nat) : Lane :=
  let same := (s.me.segLanes l).filter fun k => bitOf m k && s.getV a k = s.getV a l
  lane (s.me.laneNum 6 (same.headD l) + same.length * 2 ^ 16)

def execVmatch (g : BitVec 4) (d a : BitVec 6) (s : State) : Host.Outcome State Fault Refusal :=
  finish s (
    let m := s.active g
    let ra := s.vr a.toNat
    match s.vdry ra m with
    | .error e => .error e
    | .ok _ => .ok (s.setV (s.vr d.toNat) m (s.matches m ra)))

def execVpick (g : BitVec 4) (d : BitVec 5) (a : BitVec 6) (s : State) : Host.Outcome State Fault Refusal :=
  finish s (
    let m := s.active g
    let ra := s.vr a.toNat
    match s.vdry ra m with
    | .error e => .error e
    | .ok _ => match lanesOf m with
      | [] => .ok (s.setS d.toNat 0)
      | l :: ls =>
        let bad := ls.filter fun k => s.getV ra k ≠ s.getV ra l
        if bad = [] then .ok (s.setS d.toNat ((s.getV ra l).setWidth 64))
        else trap { code := cUNIFORM, detail := 0, tinfo := (maskOf 64 fun k => bad.contains k).toNat })

def execVvote (g : BitVec 4) (d : BitVec 5) (q : BitVec 3) (s : State) : Host.Outcome State Fault Refusal :=
  finish s (.ok (s.setS d.toNat (s.active g &&& s.getQ q.toNat)))

end Sys2Proof.Machine
end

