-- ==== Sys2Proof/Machine/Pace.lean ====
section
/-! DEFINITION. Steps, marks and the end of a scribe: STEPB and STEPE (R354, R355), MARK (R381), EXIT (R23), and
how a team completes or is killed (R186, R349). -/

namespace Sys2Proof.Machine

open Sys2Proof

/-! ## Major 0x32 (R354, R355) -/

def stepWord (a b i form : Nat) : Nat := wordY 0x32 a b (i * 4 + form)

/-- The identifier, with the payload of a word XIM above it. -/
def State.stepIdOf (s : State) (i w : Nat) : Res Lane :=
  match s.me.ctl.xim with
  | none => .ok (BitVec.ofNat 32 i)
  | some p => if bits p.toNat 20 6 ≠ 0 then trap { code := cILLEGAL, detail := 4, tinfo := w } else .ok (BitVec.ofNat 32 (p.toNat * 2 ^ 12 + i))

def execStepb (a b : BitVec 5) (i : BitVec 12) (s : State) : Host.Outcome State Fault Refusal :=
  let w := stepWord a.toNat b.toNat i.toNat 0
  finish s (match s.stepIdOf i.toNat w with
    | .error e => .error e
    | .ok id => match s.sval a.toNat with
      | .error e => .error e
      | .ok dl => match s.sval b.toNat with
        | .error e => .error e
        | .ok wk =>
          if s.me.ctl.stepOpen ∨ wk = 0 ∨ 2 ^ 48 ≤ wk.toNat then trap (illegal9 w)
          else .ok (s.onCtl fun c => { c with stepId := id, deadline := dl, work := wk.toNat, done := 0, stepOpen := true, risked := false }))

/-- Close the open step, with its records. -/
def State.closeStep (s : State) : State :=
  let ns := sat32 (s.me.ctl.toDeadline s.time)
  let s1 := s.onCtl fun c => { c with stepOpen := false, slackNs := ns }
  (s1.traceMe 0x08 (ns.toNat * 2 ^ 32 + s.me.ctl.stepId.toNat)).traceMe 0x09 s.me.ctl.deadline.toNat

def execStepe (i : BitVec 12) (s : State) : Host.Outcome State Fault Refusal :=
  let w := stepWord 0 0 i.toNat 1
  finish s (match s.stepIdOf i.toNat w with
    | .error e => .error e
    | .ok id =>
      if s.me.ctl.stepOpen = false ∨ id ≠ s.me.ctl.stepId then trap (illegal9 w) else .ok s.closeStep)

/-! ## Major 0x33 (R381) -/

def execMark (a : BitVec 5) (n : BitVec 12) (s : State) : Host.Outcome State Fault Refusal :=
  finish s (match s.sval a.toNat with
    | .error e => .error e
    | .ok v => .ok (s.traceMe 0x04 (v.toNat % 2 ^ 32 * 2 ^ 32 + n.toNat * 2 ^ 20 + s.codeWordNo % 2 ^ 20)))

/-! ## What a scribe leaves -/

/-- R268: the barriers of which a scribe is a participant that has not dropped. -/
def State.breakBars (s : State) (id : BitVec 14) : List (Nat × BarrierRec) → State
  | [] => s
  | (a, b) :: bs =>
    (if b.participants.contains id ∧ ¬ b.dropping.contains id then
      if b.arrivals.any fun x => x.1 = id then { s with bars := set s.bars a { b with breakAtCompletion := b.breakAtCompletion.or (some id) } }
      else s.breakObj a id
    else s).breakBars id bs

/-- R305: the subscriptions of a scribe end. -/
def State.leaveStreams (s : State) (id : BitVec 14) : State :=
  s.streams.foldl (fun s p => if p.2.subs.any fun u => u.of id then s.leaveStream p.1 id else s) s

/-- A context becomes free. -/
def State.dropScribe (s : State) (id : BitVec 14) : State :=
  if s.me.at_.id = id ∧ s.me.run.life ≠ .free then { s with me := {} } else { s with others := del s.others id.toNat }

/-- A scribe and its shadow leave their contexts. -/
def State.dropPair (s : State) (c : Scribe) : State :=
  match c.at_.pair with
  | some sh => (s.dropScribe sh).dropScribe c.at_.id
  | none => s.dropScribe c.at_.id

/-! ## Teams that end (R186, R349) -/

/-- The lines a scribe's place holds, undo margin included. -/
def Place.allLines (p : Place) (s : State) : List Nat :=
  ((boxPes p.ox p.oy p.pw p.ph).filter fun q => !s.holeFor p.launch q).flatMap fun q => peLines q p.firstLine (p.lines + p.undo)

def Team.allLines (t : Team) (s : State) : List Nat := t.places.flatMap fun p => if p.shadow then [] else p.allLines s

/-- Lines become FREE. -/
def State.freeLines (s : State) : List Nat → State
  | [] => s
  | l :: ls => (s.setLine l { s.line l with st := .free, owner := 0, holder := 0, landShared := false, packet := false, present := true, poison := false }).freeLines ls

/-- Landings and reads that copies still owe to lines of an ended team are dropped. -/
def Copy.without (ls : List Nat) (c : Copy) : Copy :=
  { c with owed := c.owed.filter fun p => !ls.contains p.1, srcLines := c.srcLines.filter fun l => !ls.contains l }

/-- The cluster of a team. -/
def Team.cluster (t : Team) : Nat := (t.cores.headD 0) / 4

/-- A team completion on its cores of a die (R187). -/
def Die.sawCompletion (d : Die) (cores : List Nat) : Die :=
  { d with doneOn := cores.foldl (fun t c => set t (c % 64) (look 0 t (c % 64) + 1)) d.doneOn }

/-- R239: a launch is over: the positions that no launch placed before their addition holds back any more become holes for all. -/
def State.promoteHoles (s : State) (launch : Nat) : State :=
  let ps := s.pendingHoles.map fun p => (p.1, p.2.filter (· ≠ launch))
  { s with holes := (ps.filter fun p => p.2 = []).map (·.1) ++ s.holes, pendingHoles := ps.filter fun p => p.2 ≠ [] }

/-- A team ends: its lines become FREE, its barriers and peak go, its launch counts it. -/
def State.endTeam (s : State) (t : Team) (status : Nat) : State :=
  let ls := if t.saved && t.moving = 0 then [] else t.allLines s
  let cl : Cluster := look {} s.clusters t.cluster
  let die := dieOf t.id
  let dd : Die := look {} s.dies die
  let s1 : State := { s with
    teams := del s.teams t.id.toNat,
    bars := s.bars.filter fun b => b.2.team ≠ t.id,
    copies := s.copies.map fun p => (p.1, p.2.without ls),
    clusters := put {} s.clusters t.cluster { cl with peak := cl.peak - t.peak },
    dies := put {} s.dies die (dd.sawCompletion t.cores),
    launches := match find s.launches t.launch with
      | some l => set s.launches t.launch { l with completed := l.completed + 1, status := if status = 0 then l.status else status }
      | none => s.launches }
  (s1.freeLines ls).progress t.asid

/-- The last scribe of a team has exited. -/
def State.teamOver (s : State) (team : BitVec 14) : State :=
  if s.allScribes.any fun c => c.at_.team = team then s
  else match s.team team with
    | some t => s.endTeam t 0
    | none => s

/-! ## EXIT (R23) -/

/-- What an EXIT waits for: loops, scrolls and fills, and wet tags that have not faulted; an access in the fault queue too
(R162). -/
def State.exitWaits (s : State) : Option Park :=
  if s.loops.any fun p => p.2.sid = s.me.at_.id then some .exiting
  else if s.me.run.jobs ≠ [] then some .exiting
  else if s.me.wet.tags.all fun t => t.2.fault.isSome then none else some .exiting

/-- R158: faulted tags that a scribe holds as it exits are discarded, and counted. -/
def Scribe.discardFaults (c : Scribe) : Scribe :=
  { c with ctl := { c.ctl with wets := BitVec.ofNat 32 (min (2 ^ 32 - 1) (c.ctl.wets.toNat + (c.wet.tags.filter fun t => t.2.fault.isSome).length)) },
           wet := { c.wet with tags := c.wet.tags.filter fun t => t.2.fault.isNone } }

/-- The scribe that issues ends. -/
def State.leaveAll (s : State) : State :=
  let c := s.me.discardFaults
  let s := { s with me := c }
  let s1 := if c.ctl.stepOpen then s.closeStep else s
  let s2 := (s1.breakBars c.at_.id s1.bars).leaveStreams c.at_.id
  (s2.dropPair c).teamOver c.at_.team

def execExit (s : State) : Host.Outcome State Fault Refusal :=
  finishAt s (match s.exitWaits with
    | some p => parkOn p
    | none => .ok s.leaveAll)

/-! ## Killing a team (R349, R370) -/

/-- What is left of a copy that a saved team had under way: its record. -/
def Copy.cancelled (c : Copy) : Copy :=
  if c.ended then c else { c with status := c.status ||| 4, ended := true, owed := [], srcLines := [], queued := 0 }

/-- The copies of a team are cancelled as QCANCEL does (R298, R370), also those it had under way when it was saved; its per-lane copies,
which have no records, are dropped. -/
def State.dropCopies (s : State) (t : Team) : State :=
  let mine := s.copies.filter fun p => p.2.team = t.id && p.2.queue.isNone && p.2.coll.isNone
  let s1 := s.cancelAll (mine.map (·.1))
  { s1 with copies := t.savedCopies.foldl (fun l p => if p.2.ring.isSome then set l p.1 p.2.cancelled else l) s1.copies,
            lcopies := s1.lcopies.filter fun p => p.2.team ≠ t.id }

/-- A stream whose publisher's team is gone ends with the chunks it has, cancelled. -/
def State.endPublished (s : State) (team : BitVec 14) : State :=
  s.streams.foldl (fun s p => match (s.stream p.1).pub with
    | some c => if c.team = team then (s.setStream p.1 { s.stream p.1 with total := (s.stream p.1).head, pub := some { c with status := c.status ||| 4 } }).endStream p.1 else s
    | none => s) s

/-- The scribes of a team, as the contexts hold them. -/
def State.teamScribes (s : State) (team : BitVec 14) : List Scribe := s.allScribes.filter fun c => c.at_.team = team

/-- Kill a team: its scribes stop, its lines become FREE, and its launch's entry carries KILLED. -/
def State.killTeam (s : State) (t : Team) : State :=
  let s1 := s.trace t.asid (t.cores.headD 0 / 64 * 16 + t.cores.headD 0 % 64 / 4) 0x0B 0 (s.corrOf t.launch) 3
  let s2 := (s1.dropCopies t).endPublished t.id
  let s3 := (s2.teamScribes t.id).foldl (fun s c => (s.leaveStreams c.at_.id).dropScribe c.at_.id) s2
  let s4 : State := { s3 with
    loops := s3.loops.filter fun p => !(t.scribes.contains p.2.sid),
    faulted := s3.faulted.filter fun f => !(f.source = 0 && t.scribes.any fun i => i.toNat = f.agent),
    streams := s3.streams.map fun p => (p.1, { p.2 with subs := p.2.subs.filter fun u => u.saved ≠ some t.id }) }
  s4.endTeam t 4

end Sys2Proof.Machine
end

