-- ==== Sys2Proof/Machine/Teams.lean ====
section
/-! DEFINITION. Placing teams: shares and quotas (R183 to R187, R236, R259), Reservoir's admission (R363), the start state of a
scribe (R17, R101, R323), and the steps of the die and global dispatchers (R325, R326). -/

namespace Sys2Proof.Machine

open Sys2Proof

/-! ## What a launch asks for (Table 18-2) -/

def Launch.f (l : Launch) (lo w : Nat) : Nat := pktField l.packet lo w

def Launch.team (l : Launch) : Nat := l.f 146 6
def Launch.persist (l : Launch) : Bool := l.f 175 1 = 1
def Launch.paired (l : Launch) : Bool := l.f 176 1 = 1
def Launch.clean (l : Launch) : Bool := l.f 177 1 = 1
def Launch.energy (l : Launch) : Nat := l.f 488 32
def Launch.peak (l : Launch) : Nat := l.f 520 16
def Launch.gx (l : Launch) : Nat := l.f 96 16
def Launch.gy (l : Launch) : Nat := l.f 112 16
def Launch.gz (l : Launch) : Nat := l.f 128 16
def Launch.total (l : Launch) : Nat := l.gx * l.gy * l.gz

/-- What the scribes of a launch have in common. -/
def Launch.shape (l : Launch) (key : Nat) : Place :=
  { asid := l.asid, launch := key, width := l.f 144 2, vregs := 16 * (l.f 152 2 + 1), tiles := l.f 154 3, lines := l.f 157 9, undo := l.f 166 9,
    persist := l.persist, strict := l.f 178 1 = 1, codeBase := word l.code.base,
    launchPos := word (l.f 64 32 + l.f 32 32 * 2 ^ 32) }

/-! ## Shares (Table 09-1) -/

/-- The block of register words that a scribe takes. -/
def Place.vBlock (p : Place) : Nat := if p.vregs = 48 then 64 else p.vregs

def Place.zBlock (p : Place) : Nat := tileGroup p.tiles

/-- Patches that share a PE. -/
def Place.meets (p q : Place) : Bool :=
  p.ox < q.ox + q.pw && q.ox < p.ox + p.pw && p.oy < q.oy + q.ph && q.oy < p.oy + p.ph

/-- Ranges [a, a + n) and [b, b + m) that share a number. -/
def overlap (a n b m : Nat) : Bool := 0 < n && 0 < m && a < b + m && b < a + n

/-- The first of the candidate offsets that is free in every PE of a patch. -/
def Place.firstFree (p : Place) (taken : List (Place × Nat × Nat)) (n : Nat) (cands : List Nat) : Option Nat :=
  cands.find? fun a => taken.all fun t => !(p.meets t.1 && overlap a n t.2.1 t.2.2)

/-- What is occupied: scribes with registers and contexts, and places with lines. -/
structure Occ where
  regs : List Place
  lines : List Place

def State.occ (s : State) : Occ :=
  { regs := s.allScribes.map (·.at_) ++ (s.teams.filter fun t => t.2.moving ≠ 0).flatMap fun t => t.2.savedScribes.map (·.at_),
    lines := (s.teams.filter fun t => !t.2.saved || t.2.moving ≠ 0).flatMap fun t => t.2.places.filter fun p => !p.shadow }

/-- Positions of a patch within a quadrant (Table 01-1). -/
def patchSpots : Nat → List (Nat × Nat)
  | 2 => [(0, 0)]
  | 1 => [(0, 0), (0, 4)]
  | _ => [(0, 0), (4, 0), (0, 4), (4, 4)]

/-- The quota record of a context on a core; its reset value when the host has written none. -/
def State.quota (s : State) (core : Nat) (asid : BitVec 14) : Nat :=
  (look (word (16 + 512 * 2 ^ 5 + 256 * 2 ^ 15 + 8 * 2 ^ 24)) s.quotas (core * 2 ^ 14 + asid.toNat)).toNat

/-- One PE of each 4 by 4 block of a patch. Every patch is made of whole blocks (Table 01-1), so a block's PEs share alike. -/
def Place.blocks (p : Place) : List Nat :=
  (List.range (p.ph / 4)).flatMap fun j => (List.range (p.pw / 4)).map fun i => (p.oy + 4 * j) * 256 + p.ox + 4 * i

/-- The most that a context's places hold of something in one PE of a patch. -/
def Place.held (p : Place) (l : List Place) (n : Place → Nat) : Nat :=
  p.blocks.foldl (fun m pe => max m ((l.filter fun q => q.asid = p.asid && q.covers pe).map n).sum) 0

/-- Place one scribe in a slot of a core at a spot: in the lowest free context, at the lowest offsets. -/
def State.fitAt (s : State) (o : Occ) (clean : Bool) (p0 : Place) (core slot : Nat) (spot : Nat × Nat) : Option Place :=
  let (cx, cy) := coreOrigin core
  let p := { p0 with ox := cx + 8 * (slot % 2) + spot.1, oy := cy + 8 * (slot / 2) + spot.2 }
  let here := o.regs.filter fun q => q.id.toNat / 16 = 4 * core + slot
  let quota := s.quota core p.asid
  let n := if p.shadow then 0 else p.lines + p.undo
  match (List.range 16).find? fun c => here.all fun q => q.id.toNat % 16 ≠ c with
  | none => none
  | some ctx =>
    if clean && (boxPes p.ox p.oy p.pw p.ph).any (s.holeFor p.launch) then none
    else if bits quota 0 5 ≤ (here.filter fun q => q.asid = p.asid).length then none
    else if bits quota 5 10 < p.held o.regs Place.vBlock + p.vBlock then none
    else if bits quota 24 4 < p.held o.regs Place.zBlock + p.zBlock then none
    else if bits quota 15 9 < p.held o.lines (fun q => q.lines + q.undo) + n then none
    else
      match p.firstFree (o.regs.map fun q => (q, q.vBase, q.vBlock)) p.vBlock ((List.range (512 / p.vBlock)).map (· * p.vBlock)),
            p.firstFree (o.regs.map fun q => (q, q.zBase, q.zBlock)) p.zBlock (if p.zBlock = 0 then [0] else (List.range (8 / p.zBlock)).map (· * p.zBlock)),
            p.firstFree (o.lines.map fun q => (q, q.firstLine, q.lines + q.undo)) n (List.range (257 - n)) with
      | some v, some z, some l => some { p with id := BitVec.ofNat 14 (16 * (4 * core + slot) + ctx), vBase := v, zBase := z, firstLine := l }
      | _, _, _ => none

/-- A scribe, and its shadow when the launch is paired, at the first spot of a slot that has room for both. -/
def State.fitSlot (s : State) (o : Occ) (clean paired : Bool) (p0 : Place) (core slot : Nat) : Option (List Place) :=
  (patchSpots p0.width).findSome? fun spot =>
    match s.fitAt o clean p0 core slot spot with
    | none => none
    | some p =>
      if ¬ paired then some [p]
      else match s.fitAt { regs := p :: o.regs, lines := p :: o.lines } clean { p0 with shadow := true, lines := 0, undo := 0 } core slot spot with
        | none => none
        | some q => some [{ p with pair := some q.id }, { q with pair := some p.id }]

def Occ.add (o : Occ) (l : List Place) : Occ := { regs := l ++ o.regs, lines := (l.filter fun p => !p.shadow) ++ o.lines }

/-- Place n scribes in a core from a slot on. -/
def State.fitCore (s : State) (clean paired : Bool) (p0 : Place) (core : Nat) : Nat → Nat → Occ → Nat → Option (List Place)
  | _, _, _, 0 => some []
  | 0, _, _, _ => none
  | fuel + 1, slot, o, n + 1 =>
    if 4 ≤ slot then none
    else match s.fitSlot o clean paired p0 core slot with
      | none => s.fitCore clean paired p0 core fuel (slot + 1) o (n + 1)
      | some l => (s.fitCore clean paired p0 core fuel slot (o.add l) n).map (l ++ ·)

/-- Whether a package core belongs to a context's partition. -/
def State.partition (s : State) (asid : BitVec 14) (core : Nat) : Bool :=
  match find s.ctxs asid.toNat with
  | some c => bits c.cores.toNat core 1 = 1
  | none => false

/-- R363: whether a cluster's Reservoir admits a team, given the energy and peak already promised. -/
def State.admits (s : State) (l : Launch) (cluster usedE usedP : Nat) : Bool :=
  let c := look {} s.clusters cluster
  (l.energy = 0 && l.peak = 0) || (l.energy + usedE ≤ c.level && l.peak + usedP + c.peak ≤ 700)

/-- R187: drain to fit keeps smaller requests off the candidate core. -/
def State.drainAllows (s : State) (p0 : Place) (core : Nat) : Bool :=
  match (look {} s.dies (core / 64)).draining with
  | some (c, n) => c ≠ core % 64 || n ≤ p0.vregs
  | none => true

/-- The priority of a launch's queue. -/
def State.prioOf (s : State) (l : Launch) : Nat :=
  match find s.queues l.queue with
  | some k => k.prio
  | none => 0

/-- R335: a saved team goes ahead of new teams of equal or lower priority on its cores. -/
def State.restoreFirst (s : State) (l : Launch) (core : Nat) : Bool :=
  s.teams.any fun t => t.2.saved && !t.2.held && t.2.cores.contains core && (match find s.launches t.2.launch with
    | some m => decide (s.prioOf l ≤ s.prioOf m)
    | none => false)

/-- What is occupied in one core: patches of other cores share no PE with it. -/
def Occ.on (o : Occ) (core : Nat) : Occ :=
  { regs := o.regs.filter fun p => p.id.toNat / 64 = core, lines := o.lines.filter fun p => p.id.toNat / 64 = core }

/-- The launch a queue is handing out. -/
def State.handing (s : State) (q : Nat) : Option (Nat × Launch) :=
  match find s.queues q with
  | some k => (match k.handing with
    | some n => (find s.launches n).map fun l => (n, l)
    | none => none)
  | none => none

/-- R326: a core in the partition of a persistent launch that waits takes no new team of equal or lower priority; of persistent launches
of one priority that wait, the one accepted first goes first (the model's choice, log 126). `key` is the launch `l` to start, `waits` tells
which launches wait. -/
def State.barred (s : State) (waits : Nat → Launch → Bool) (key : Nat) (l : Launch) (core : Nat) : Bool :=
  s.queues.any fun q => match s.handing q.1 with
    | some (n, m) => m.persist && n ≠ key && m.handed = 0 && !m.stopped
        && (s.prioOf l < q.2.prio || (s.prioOf l = q.2.prio && (!l.persist || n < key))) && s.partition m.asid core && waits n m
    | none => false

/-- Place n scribes of a team in a package core. -/
def State.fitPart (s : State) (o : Occ) (l : Launch) (p0 : Place) (core n : Nat) : Option (List Place) :=
  if s.partition l.asid core && s.drainAllows p0 core && !s.restoreFirst l core then s.fitCore l.clean l.paired p0 core (n + 4) 0 (o.on core) n
  else none

/-- Place a team in a pair, n of its scribes in the first core and the rest, at most 16, in the second; or with fewer in the first. -/
def State.fitPair (s : State) (o : Occ) (l : Launch) (p0 : Place) (core : Nat) : Nat → Option (List Place)
  | 0 => none
  | n + 1 =>
    if 16 + (n + 1) < l.team then none
    else match s.fitPart o l p0 core (n + 1), s.fitPart o l p0 (core + 1) (l.team - (n + 1)) with
      | some a, some b => some (a ++ b)
      | _, _ => s.fitPair o l p0 core n

/-- Place a team at a package core: there, or in the pair that the core begins (R183), with as many scribes in its first core as fit. -/
def State.fitTeam (s : State) (o : Occ) (l : Launch) (p0 : Place) (core : Nat) : Option (List Place) :=
  if l.team ≤ 16 then s.fitPart o l p0 core l.team
  else if core % 2 = 1 then none
  else s.fitPair o l p0 core 16

/-- A team number that is held: by a live team, or by copies, streams and collectives that a finished one has left (R314). -/
def State.teamHeld (s : State) (n : Nat) : Bool :=
  (find s.teams n).isSome || s.copies.any (fun p => p.2.team.toNat = n && p.2.queue.isNone) || s.lcopies.any (fun p => p.2.team.toNat = n)
    || s.streams.any (fun p => p.2.pub.any fun c => c.team.toNat = n) || s.colls.any fun p => p.2.team.toNat = n

/-- R314, R322: a die has a number for one team more, besides those promised: without one a team waits. -/
def State.numbersFor (s : State) (die promised : Nat) : Bool :=
  s.teams.length + s.copies.length + s.lcopies.length + s.streams.length + s.colls.length + promised < 4096
    || ((List.range 4096).filter fun n => s.teamHeld (4096 * die + n)).length + promised < 4096

/-- Place a team at a core that Reservoir admits it to, given the teams already promised to clusters. -/
def State.fitHere (s : State) (o : Occ) (l : Launch) (p0 : Place) (used : List Nat) (core : Nat) : Option (List Place) :=
  let n := used.count (core / 4)
  if s.admits l (core / 4) (n * l.energy) (n * l.peak) ∧ s.numbersFor (core / 64) (used.filter fun c => c / 16 = core / 64).length then
    s.fitTeam o l p0 core
  else none

/-- The first core of a list where a team fits. -/
def State.fitCores (s : State) (o : Occ) (l : Launch) (p0 : Place) (cores : List Nat) : Option (Nat × List Place) :=
  cores.findSome? fun core => (s.fitHere o l p0 [] core).map fun ps => (core, ps)

def dieCores (die : Nat) : List Nat := (List.range 64).map (· + 64 * die)

/-- The teams of a launch that the cores could take now, up to n, with their places, each at the first core with room.
A core without room has none for a later team either. -/
def State.fitMany (s : State) (l : Launch) (p0 : Place) : Nat → Nat → Occ → List Nat → List Nat → List (Nat × List Place)
  | 0, _, _, _, _ => []
  | _, _, _, _, [] => []
  | _, 0, _, _, _ => []
  | fuel + 1, n + 1, o, used, core :: cores =>
    match s.fitHere o l p0 used core with
    | some ps => (core, ps) :: s.fitMany l p0 fuel n (o.add ps) (core / 4 :: used) (core :: cores)
    | none => s.fitMany l p0 fuel (n + 1) o used cores

/-- Up to n teams on some cores. -/
def State.fits (s : State) (key : Nat) (l : Launch) (o : Occ) (n : Nat) (cores : List Nat) : List (Nat × List Place) :=
  s.fitMany l (l.shape key) (n + cores.length) n o [] cores

/-- The whole grid of a persistent launch on some cores. -/
def State.gridOn (s : State) (key : Nat) (l : Launch) (cores : List Nat) : Option (List (Nat × List Place)) :=
  let r := s.fits key l s.occ l.total cores
  if r.length = l.total then some r else none

/-- The cores of a list on which a launch may start teams, for all that persistent launches wait for. -/
def State.openCores (s : State) (key : Nat) (l : Launch) (cores : List Nat) : List Nat :=
  let out := s.barred (fun n m => (s.gridOn n m (List.range 256)).isNone) key l
  cores.filter fun c => !out c && (l.team ≤ 16 || !out (c + 1))

/-- Places for the whole grid of a persistent launch. -/
def State.wholeGrid (s : State) (key : Nat) (l : Launch) : Option (List (Nat × List Place)) := s.gridOn key l (s.openCores key l (List.range 256))

/-- R325: the free slots a die advertises. -/
def State.freeSlots (s : State) (key : Nat) (l : Launch) (die : Nat) : Nat := (s.fits key l s.occ 64 (s.openCores key l (dieCores die))).length

/-- The package with every core empty, for NOFIT. -/
def State.emptied (s : State) : State :=
  { s with dies := s.dies.map fun p => (p.1, { p.2 with draining := none }), teams := [], copies := [], lcopies := [], streams := [], colls := [] }

/-- R363: a launch that asks nothing of Reservoir, for a launch that waits only for Reservoir does not fail. -/
def Launch.unaccounted (l : Launch) : Launch := { l with packet := l.packet &&& ~~~(BitVec.ofNat 1024 ((2 ^ 48 - 1) * 2 ^ 488)) }

def noOcc : Occ := { regs := [], lines := [] }

/-- R325, R326, R236: whether a launch can never be placed. -/
def State.noFit (s : State) (key : Nat) (l : Launch) : Bool :=
  let e := s.emptied
  let n := if l.persist then l.total else 1
  53100 < l.energy || 700 < l.peak || 16384 < n || (e.fits key l.unaccounted noOcc n (List.range 256)).length < n

/-! ## Starting a team -/

/-- The spill capability of a scribe (Table 18-2), tagged (R17): over SPILLK KiB at the pool's base + i·SPILLK KiB. -/
def Launch.spillOf (l : Launch) (id : BitVec 14) : Cap :=
  let len := l.f 208 16 * 8192
  mkCap (l.spill.base + id.toNat * len) len l.spill.perm l.spill.space

/-- k0 to k63 (R17): the first 256 bytes of the argument block. -/
def Launch.kRegs (l : Launch) : Tbl Lane :=
  (List.range 64).foldl (fun t i => put 0 t i (BitVec.ofNat 32 (readBytes l.argMem (4 * i) 4))) []

/-- Table 01-3. -/
def Launch.startRegs (l : Launch) (p : Place) (index j : Nat) : Regs :=
  let x := index % l.gx
  let y := index / l.gx % l.gy
  let z := index / l.gx / l.gy
  { x := put 0 (put 0 (put 0 (put 0 [] 0 (word (x + y * 2 ^ 16 + z * 2 ^ 32))) 1 (word j)) 2 (word (p.ox + p.oy * 256))) 3 (word l.number),
    c := put emptyCap (put emptyCap [] 0 l.arg) 14 (l.spillOf p.id),
    k := l.kRegs,
    rng := (List.range p.lanes).foldl (fun t i => put 0 t i (rngSeed (BitVec.ofNat 32 (l.f 256 32)) i)) [] }

def Launch.startCtl (l : Launch) (p : Place) : Ctl :=
  { pc := word (l.code.cursor + l.f 288 32), codeCap := l.code, fpm := word (l.f 184 6),
    part := word (if p.width = 2 then 15 else if p.width = 1 then 11 else 10),
    seed := BitVec.ofNat 32 (l.f 256 32), tvec := if l.f 320 32 = 0 then 0 else word (l.code.cursor + l.f 320 32),
    fillv := BitVec.ofNat 32 (l.f 224 32), qring := word (l.f 448 8 + l.f 456 32 * 2 ^ 32),
    stepId := BitVec.ofNat 32 (l.f 352 32), deadline := word (l.f 384 64) }

/-- A scribe before its first word. -/
def State.newScribe (s : State) (l : Launch) (index j : Nat) (p : Place) : Scribe :=
  { at_ := p, r := l.startRegs p index j, ctl := l.startCtl p,
    run := { life := .running, stamp := (look {} s.islands (islandOf p.id)).issues } }

/-- Number the places of a team: a leader and its shadow have one g1. -/
def numbered : Nat → List Place → List (Nat × Place)
  | _, [] => []
  | j, p :: ps => if p.shadow then (j - 1, p) :: numbered j ps else (j, p) :: numbered (j + 1) ps

/-- R186: prepare a scribe's lines: zero and OWN, and the undo margin for rollback. -/
def State.prepare (s : State) (p : Place) : List Nat → State
  | [] => s
  | pe :: pes =>
    let own : LineMeta := { st := .own, owner := p.id }
    let undo : LineMeta := { st := .engine, owner := engineId 6 (engIndex p.id), holder := p.id }
    let s1 := { s with plane := writeBits s.plane (512 * lineNo pe p.firstLine) (512 * p.lines) 0 }
    let s2 := (peLines pe p.firstLine p.lines).foldl (fun s l => s.setLine l own) s1
    ((peLines pe (p.firstLine + p.lines) p.undo).foldl (fun s l => s.setLine l undo) s2).prepare p pes

/-- The lowest team number free on a die (the model's choice, log 11). A team starts only where there is one (`numbersFor`). -/
def State.freeTeam (s : State) (die : Nat) : BitVec 14 :=
  BitVec.ofNat 14 (((List.range 4096).find? fun n => !s.teamHeld (4096 * die + n)).elim (4096 * die) (· + 4096 * die))

/-- An island that now holds a scribe. -/
def Island.settled (i : Island) (time : Nat) : Island := if i.resident then i else { i.catchUp time with resident := true }

/-- Islands that now hold scribes. -/
def State.markIslands (s : State) (ps : List Place) : State :=
  { s with islands := ps.foldl (fun t p => put {} t (islandOf p.id) ((look {} t (islandOf p.id)).settled s.time)) s.islands }

/-- Start a team at its places. -/
def State.startTeam (s : State) (key : Nat) (l : Launch) (index core : Nat) (places : List Place) : State :=
  let id := s.freeTeam (core / 64)
  let ps := places.map fun p => { p with team := id }
  let scribes := (numbered 0 ps).map fun q => s.newScribe l index q.1 q.2
  let leaders := ps.filter fun p => !p.shadow
  let team : Team :=
    { id := id, asid := l.asid, launch := key, index := index, scribes := leaders.map (·.id), places := ps,
      cores := (ps.map fun p => p.id.toNat / 64).eraseDups, peak := l.peak, interval := .noCheckpoint, rollbacks := 0, undo := [], image := [],
      imageBars := [], failing := false, saved := false, held := false, savedScribes := [], savedLines := [], savedBars := [], started := s.time }
  let cl : Cluster := look {} s.clusters (core / 4)
  let s1 : State := { s with
    teams := set s.teams id.toNat team,
    others := scribes.foldl (fun t c => set t c.at_.id.toNat c) s.others,
    clusters := put {} s.clusters (core / 4) { cl with level := cl.level - l.energy, peak := cl.peak + l.peak } }
  let s2 := if s.allScribes.any fun c => c.at_.asid = l.asid then s1 else { s1 with lastProgress := set s1.lastProgress l.asid.toNat s1.time }
  (leaders.foldl (fun s p => s.prepare p ((boxPes p.ox p.oy p.pw p.ph).filter fun q => !s.holeFor p.launch q)) s2).markIslands ps

/-! ## The die dispatcher (R187) -/

/-- Scribes whose register requests the free words of a spot would cover, if alignment were ignored, within quota: `k` contexts each. -/
def State.roomAt (s : State) (p : Place) (core k : Nat) : Nat :=
  let o := s.occ
  let quota := s.quota core p.asid
  let used := (p.blocks.map fun pe => ((o.regs.filter fun q => q.covers pe).map Place.vBlock).sum).foldl max 0
  let per := fun (free need : Nat) => if need = 0 then 16 else free / need
  min (min (per (512 - used) (k * p.vregs)) (per (bits quota 5 10 - p.held o.regs Place.vBlock) (k * p.vBlock)))
    (min (per (bits quota 24 4 - p.held o.regs Place.zBlock) (k * p.zBlock))
      (per (bits quota 15 9 - p.held o.lines (fun q => q.lines + q.undo)) (p.lines + p.undo)))

/-- Scribes of a shape that a slot has room for: in words, within quota, and in contexts that are free (the last the model's reading, log
76). -/
def State.roomFor (s : State) (p0 : Place) (core slot k : Nat) : Nat :=
  let (cx, cy) := coreOrigin core
  let here := s.occ.regs.filter fun q => q.id.toNat / 16 = 4 * core + slot
  let mine := (here.filter fun q => q.asid = p0.asid).length
  min (min (16 - here.length) (bits (s.quota core p0.asid) 0 5 - mine) / k)
    (((patchSpots p0.width).map fun spot => s.roomAt { p0 with ox := cx + 8 * (slot % 2) + spot.1, oy := cy + 8 * (slot / 2) + spot.2 } core k).sum)

/-- R187, R236: the first core of a die whose free register words would cover a team, within quota; for a team of 17 to 32 scribes the first
of a pair that would together (the model's reading, log 76). -/
def State.candidate (s : State) (die : Nat) (l : Launch) (p0 : Place) : Option Nat :=
  let k := if l.paired then 2 else 1
  (List.range 64).find? fun n =>
    let core := 64 * die + n
    let room := fun (c : Nat) => min 16 ((List.range 4).map fun slot => s.roomFor p0 c slot k).sum
    s.partition l.asid core && (if l.team ≤ 16 then l.team ≤ room core
      else core % 2 = 0 && s.partition l.asid (core + 1) && l.team ≤ room core + room (core + 1))

/-- A new waiting team. -/
def State.waitingTeam (s : State) (die key index : Nat) : Waiting := { launch := key, index := index, seen := (look {} s.dies die).doneOn }

/-- Hand teams of a launch to a die: n of them from an index on. -/
def State.handOut (s : State) (die key : Nat) (l : Launch) (index : Nat) : Nat → State
  | 0 => s
  | n + 1 =>
    let d : Die := look {} s.dies die
    ({ s with dies := put {} s.dies die { d with waiting := d.waiting ++ [s.waitingTeam die key index] } } : State).handOut die key l (index + 1) n

/-- The launch of a waiting team fits no core any more, even when all are empty (R325). -/
def State.hopeless (s : State) (w : Waiting) : Bool :=
  match find s.launches w.launch with
  | some l => s.noFit w.launch l
  | none => false

/-- R336: the watchdog has stopped the queue of a launch: none of its teams starts until the host acts. -/
def State.watchStopped (s : State) (l : Launch) : Bool := (find s.queues l.queue).any fun k => k.state = 3

/-- The first waiting team of a die that fits now, with its place in line. -/
def State.placeable (s : State) (die : Nat) : Option (Nat × Waiting × Launch × Nat × List Place) :=
  let ws := (look {} s.dies die).waiting
  (List.range ws.length).findSome? fun i =>
    match ws[i]? with
    | none => none
    | some w => match find s.launches w.launch with
      | none => none
      | some l => if s.watchStopped l then none else (s.fitCores s.occ l (l.shape w.launch) (s.openCores w.launch l (dieCores die))).map fun r => (i, w, l, r.1, r.2)

/-- R353: islands of places that must wake first. -/
def State.asleep (s : State) (ps : List Place) : List Nat :=
  (ps.map fun p => islandOf p.id).filter fun i => (look {} s.islands i).retention

/-- Teams of a launch that a die has not placed are handed out no more. -/
def State.recall (s : State) (n : Nat) : State :=
  match find s.launches n with
  | none => s
  | some l =>
    let waiting := s.dies.foldl (fun c d => c + (d.2.waiting.filter fun w => w.launch = n).length) 0
    let clear := fun (d : Die) => { d with
      waiting := d.waiting.filter fun w => w.launch ≠ n
      draining := if d.waiting.head?.any fun w => w.launch = n then none else d.draining }
    { s with dies := s.dies.map fun d => (d.1, clear d.2),
             launches := set s.launches n { l with handed := l.handed - waiting, stopped := true } }

/-- R325: a launch fails with NOFIT; teams already started run on. -/
def State.failNoFit (s : State) (n : Nat) : State :=
  let t := s.recall n
  match find t.launches n with
  | some l => { t with launches := set t.launches n { l with status := if l.status = 0 then 3 else l.status },
                       queues := t.queues.map fun q => (q.1, if q.2.handing = some n then { q.2 with handing := none } else q.2) }
  | none => t

/-- R187: the core that is to drain for the team that waits longest on a die, with the team's register request: its candidate, as cores
stand now, which has seen 16 completions since the team began to wait. Of a pair its first core alone counts and drains (the model's reading,
log 76). None when a core drains for it already. -/
def State.toDrain (s : State) (die : Nat) : Option (Nat × Nat) :=
  let d : Die := look {} s.dies die
  match d.waiting, d.draining with
  | w :: _, none => (match find s.launches w.launch with
    | some l => (match (if s.watchStopped l then none else s.candidate die l (l.shape w.launch)) with
      | some c => if look 0 w.seen c + 16 ≤ look 0 d.doneOn c then some (c, (l.shape w.launch).vregs) else none
      | none => none)
    | none => none)
  | _, _ => none

/-- R187: place a waiting team; one that no core can take any more fails its launch. A core that is to drain does so first. -/
def execTeamPlacement (die : Nat) (s : State) : Host.Outcome State Fault Refusal :=
  if (s.toDrain die).isSome then .refused .notEnabled
  else match s.placeable die with
  | none => match (look {} s.dies die).waiting.find? s.hopeless with
    | some w => .next (s.failNoFit w.launch)
    | none => .refused .notEnabled
  | some (i, w, l, core, ps) =>
    event (s.asleep ps = []) (fun t =>
      let d : Die := look {} t.dies die
      let t1 : State := { t with dies := put {} t.dies die { d with waiting := d.waiting.eraseIdx i, draining := if i = 0 then none else d.draining } }
      t1.startTeam w.launch l w.index core ps) s

/-- R187: the candidate core begins to drain. -/
def execDrainToFit (die : Nat) (s : State) : Host.Outcome State Fault Refusal :=
  match s.toDrain die with
  | some r => .next { s with dies := put {} s.dies die { (look {} s.dies die : Die) with draining := some r } }
  | none => .refused .notEnabled

/-! ## The global dispatcher (R325, R326) -/

/-- The die with the most free slots for a launch, the lower number on a tie. -/
def State.bestDie (s : State) (key : Nat) (l : Launch) : Nat × Nat :=
  let n := fun (d : Nat) => s.freeSlots key l d
  (List.range 4).foldl (fun b d => if b.2 < n d then (d, n d) else b) (0, 0)

/-- Whether a queue has a batch that could go to a die now. -/
def State.ready (s : State) (q : Nat) : Bool :=
  match find s.queues q, s.handing q with
  | some k, some (n, l) =>
    if l.stopped ∨ l.total ≤ l.handed ∨ k.state = 3 then false
    else if l.persist then (List.range 4).all (fun d => (s.toDrain d).isNone) && (s.wholeGrid n l).any fun g => (g.all fun r => s.asleep r.2 = [])
    else (s.bestDie n l).2 ≠ 0
  | _, _ => false

/-- The queue served next: the highest priority, and round-robin within it. -/
def State.pickQueue (s : State) : Option Nat :=
  let rs := (s.queues.filter fun q => s.ready q.1).map fun q => (q.1, q.2.prio)
  let top := rs.foldl (fun m r => max m r.2) 0
  let ks := (rs.filter fun r => r.2 = top).map (·.1)
  (ks.find? fun k => look 0 s.rrNext top ≤ k).or ks.head?

/-- The queue goes on once the last team of its launch has been handed out. -/
def State.handedAll (s : State) (q n : Nat) : State :=
  match find s.launches n, find s.queues q with
  | some l, some k => if l.total ≤ l.handed ∨ l.stopped then { s with queues := set s.queues q { k with handing := none } } else s
  | _, _ => s

/-- Place the teams of a persistent grid from an index on. -/
def State.startGrid (s : State) (n : Nat) (l : Launch) (index : Nat) : List (Nat × List Place) → State
  | [] => s
  | (core, ps) :: r => (s.startTeam n l index core ps).startGrid n l (index + 1) r

/-- R325: one batch; round-robin goes on after its queue, within its priority. -/
def State.batch (s : State) (q n : Nat) (l : Launch) : State :=
  let s1 := if l.persist then
      { (s.startGrid n l 0 ((s.wholeGrid n l).getD [])) with launches := set s.launches n { l with handed := l.total } }
    else
      let (die, slots) := s.bestDie n l
      let k := min slots (l.total - l.handed)
      { (s.handOut die n l l.handed k) with launches := set s.launches n { l with handed := l.handed + k } }
  ({ s1 with rrNext := put 0 s1.rrNext (s.prioOf l) (q + 1) } : State).handedAll q n

/-- A queue whose launch is still to be handed out and fits no core any more. -/
def State.hopelessQueue (s : State) : Option Nat :=
  s.queues.findSome? fun q => match s.handing q.1 with
    | some (n, l) => if !l.stopped && l.handed < l.total && s.noFit n l then some n else none
    | none => none

def execBatchDispatch (s : State) : Host.Outcome State Fault Refusal :=
  match s.pickQueue with
  | none => match s.hopelessQueue with
    | some n => .next (s.failNoFit n)
    | none => .refused .notEnabled
  | some q => match s.handing q with
    | none => .refused .notEnabled
    | some (n, l) => .next (s.batch q n l)

end Sys2Proof.Machine
end

