-- ==== Sys2Proof/Machine/Packets.lean ====
section
/-! DEFINITION. Queues and packets: sequence numbers and completion entries (R319, R320, R324, R370), capability
fields (R323, R375), the packet types (Tables 18-1, 18-2, 24-2, R411), trace rings (R376, R379, R380), completion of a
launch (R314), and the queue registers the host writes (R369, R370). -/

namespace Sys2Proof.Machine

open Sys2Proof

/-! ## Queues -/

def State.setQueue (s : State) (q : Nat) (k : Queue) : State := { s with queues := set s.queues q k }

/-- DONESEQ and the idle or running STATE follow from the rest (Table 24-1, R370). -/
def Queue.settle (k : Queue) : Queue :=
  { k with doneSeq := k.incomplete.headD k.nextSeq,
           state := if 2 ≤ k.state then k.state else if k.head = k.tail ∧ k.incomplete = [] then 0 else 1 }

/-- R369: where the registers of a queue lie in BAR0: the byte offset, and the bit address. -/
def queueByte (q : Nat) : Nat := 0x10000 + 64 * q
def queueBit (q : Nat) : Nat := 8 * queueByte q

/-- R369, Table 24-1: what the host reads of a queue's registers. -/
def Queue.image (k : Queue) : BitVec 512 :=
  BitVec.ofNat 512 (k.tail.toNat * 2 ^ 416 + k.head.toNat * 2 ^ 384 + k.nextSeq.toNat * 2 ^ 352 + k.doneSeq.toNat * 2 ^ 320
    + k.cpos.toNat * 2 ^ 288 + k.state % 4 * 2 ^ 256)

/-- Where the packet at HEAD lies, and the slot of the next completion entry. -/
def Queue.packetAt (k : Queue) : Nat := k.ring + 1024 * (k.head.toNat % 2 ^ k.ringLog)
def Queue.entryAt (k : Queue) : Nat := k.cring + 128 * (k.cpos.toNat % 2 ^ k.cringLog)

/-- Who reads for a packet of a context; the dispatcher is no scribe. -/
def dispatcher (asid : BitVec 14) : Who := { asid := asid }

/-- Whether an engine's read of its own words in memory meets an uncorrectable one. -/
def State.engineDead (s : State) (asid : BitVec 14) (a w : Nat) : Bool :=
  match s.translate (dispatcher asid).core asid .load a w with
  | .ok ps => (pieceWords ps).any s.deadWord
  | .error _ => false

/-- The packet at HEAD. One read with an uncorrectable error is no packet of any type: it fails with BADPKT, as R411 has it of the
dispatcher's other reads, under the sequence number that is due; its CORR is free (log 113). -/
def State.packet (s : State) (k : Queue) : BitVec 1024 :=
  let v := s.engineRead (dispatcher k.asid) k.asid 0 k.packetAt 1024
  if s.engineDead k.asid k.packetAt 1024 then BitVec.ofNat 1024 (k.nextSeq.toNat * 2 ^ 64 + bits v 32 32 * 2 ^ 32) else BitVec.ofNat 1024 v

def pType (p : BitVec 1024) : Nat := pktField p 0 8
def pCorr (p : BitVec 1024) : BitVec 32 := BitVec.ofNat 32 (pktField p 32 32)
def pSeq (p : BitVec 1024) : BitVec 32 := BitVec.ofNat 32 (pktField p 64 32)

/-- The same for the packet at HEAD of a queue, which stands in line at a layer (R343). -/
def headWho (asid : BitVec 14) (q : Nat) : Who := { asid := asid, place := placeOf .queue q }

/-- The layer that holds back a queue's next completion entry, written for `who` (R343). -/
def State.entryLayer (s : State) (who : Who) (q : Nat) : Option Nat :=
  match find s.queues q with
  | some k => s.farLayer who k.asid 0 k.entryAt 128
  | none => none

/-- An event that is done when no layer holds `who` back; else its engine stands in line. -/
def State.inTurn (s : State) (who : Who) (layer : Option Nat) (f : State → State) : Host.Outcome State Fault Refusal :=
  match layer with
  | none => .next (f (s.leaveLine who))
  | some ly => match s.standBy who (some ly) with
    | some t => .next t
    | none => .refused .notEnabled

/-- R324: the completion entry of a packet, at the ring's next slot. -/
def State.writeEntry (s : State) (q : Nat) (corr seq : BitVec 32) (status : Nat) : State :=
  match find s.queues q with
  | none => s
  | some k =>
    let v := seq.toNat + corr.toNat * 2 ^ 32 + status % 256 * 2 ^ 64 + s.time % 2 ^ 48 * 2 ^ 80
    let s1 := s.engineWrite (dispatcher k.asid) k.asid 0 k.entryAt 128 v
    let s2 := s1.tracePkt k.asid 0x03 status corr (seq.toNat + corr.toNat * 2 ^ 32)
    s2.setQueue q { k with cpos := k.cpos + 1 }

/-- A packet whose entry is written is complete. -/
def State.closePacket (s : State) (q : Nat) (seq : BitVec 32) : State :=
  match find s.queues q with
  | some k => s.setQueue q { k with incomplete := k.incomplete.erase seq }.settle
  | none => s

/-- A packet has completed. -/
def State.packetDone (s : State) (q : Nat) (corr seq : BitVec 32) (status : Nat) : State :=
  (s.writeEntry q corr seq status).closePacket q seq

/-- The packet at HEAD has been read and starts. -/
def State.startPacket (s : State) (q : Nat) (k : Queue) (p : BitVec 1024) : State :=
  let s1 := (s.leaveLine (headWho k.asid q)).setQueue q { k with head := k.head + 1, nextSeq := pSeq p + 1, incomplete := k.incomplete ++ [pSeq p], parked := 0 }.settle
  s1.tracePkt k.asid 0x02 0 (pCorr p) ((pSeq p).toNat + (pCorr p).toNat * 2 ^ 32)

/-- A queue stops (R320, R336, R371). -/
def State.stopQueue (s : State) (q state : Nat) : State :=
  match find s.queues q with
  | some k => (s.setQueue q { k with state := state }).notice 3 k.asid.toNat q
  | none => s

/-- The packet at HEAD fails: 1 BADPKT, 2 BADCAP. Its queue stops. -/
def State.failPacket (s : State) (q : Nat) (k : Queue) (p : BitVec 1024) (status : Nat) : State :=
  let s1 := ((s.leaveLine (headWho k.asid q)).setQueue q { k with head := k.head + 1, parked := 0 }).writeEntry q (pCorr p) (pSeq p) status
  s1.stopQueue q 2

/-- The layer that holds back the packet at HEAD, or the entry that it may write. -/
def State.headLayer (s : State) (q : Nat) (k : Queue) : Option Nat :=
  (s.farLayer (headWho k.asid q) k.asid 0 k.packetAt 1024).or (s.entryLayer (headWho k.asid q) q)

/-- A queue whose packet at HEAD is due. -/
def State.headDue (s : State) (q : Nat) : Option Queue :=
  (find s.queues q).filter fun k => s.mgmt.boot = .running && k.state < 2 && k.head ≠ k.tail && k.parked = 0 && k.handing.isNone

/-- The packet at HEAD of a queue that may be read now. -/
def State.headPacket (s : State) (q : Nat) : Option (Queue × BitVec 1024) :=
  match s.headDue q with
  | none => none
  | some k => if s.headLayer q k = none then some (k, s.packet k) else none

/-- A packet that cannot be read or is not due: its queue stands in line at the layer that holds it back, if one does. -/
def State.headWaits (s : State) (q : Nat) : Host.Outcome State Fault Refusal :=
  match (s.headDue q).bind fun k => s.standBy (headWho k.asid q) (s.headLayer q k) with
  | some t => .next t
  | none => .refused .notEnabled

/-- The state after the packet at HEAD has been read (R340). -/
def State.packetSeen (s : State) (k : Queue) : State := s.engineSeen (dispatcher k.asid) k.asid 0 k.packetAt 1024

/-- The header's checks (R320, R370). -/
def headerBad (k : Queue) (p : BitVec 1024) : Bool := pktField p 8 24 ≠ 0 || pSeq p ≠ k.nextSeq

/-- A packet access faulted: not mapped and permission park the packet, a walk error fails it (R411). -/
def State.packetFault (s : State) (q : Nat) (k : Queue) (p : BitVec 1024) (kind : AKind) (m : Miss) : Option State :=
  let s0 := s.walkedTo (dispatcher k.asid) m
  if m.detail = 2 then some (s0.failPacket q k p 1)
  else match s0.faultQ k.asid 1 2 q kind m.detail m.addr with
    | (_, none) => s.stepAside (headWho k.asid q)
    | (s1, some e) => some ((s1.leaveLine (headWho k.asid q)).setQueue q { k with parked := e + 1 })

/-! ## Capability fields (R323) -/

/-- The root of a space of a context. -/
def State.rootOf (s : State) (asid : BitVec 14) (sp : Nat) : Option Cap :=
  match find s.ctxs asid.toNat with
  | none => none
  | some c =>
    match sp with
    | 0 => some c.capRoot
    | 1 => some (mkCap 0 (2 ^ 33) 255 1)
    | 2 => c.hostRoot
    | 3 => c.peerRoot
    | _ => none

/-- The bounds of a field set anew as CSETB sets them (R60, R106), with its cursor, permissions and space. Where the cursor cannot be
represented with the new encoding, the field's own stands, which has the same bounds (log 123). -/
def rebound (c : Cap) : Cap :=
  let k := (mkCap c.base (c.top - c.base) c.perm c.space).withCursor c.cursor
  if k.tag then k else c

/-- Derive a field that must grant `need`; none is BADCAP. Only a tagged root gives a tagged capability, and only one as R56 has it (R64). -/
def State.derive (s : State) (asid : BitVec 14) (f : BitVec 128) (need : Nat) : Option Cap :=
  let c : Cap := ⟨true, f⟩
  match s.rootOf asid c.space with
  | none => none
  | some r =>
    if c.sound && r.tag && r.base ≤ c.base && c.top ≤ r.top && r.has c.perm && c.has need then some (rebound c) else none

/-! ## LAUNCH (R321, R322, R375) -/

/-- Table 18-2: a field outside its limits or a reserved bit that is not zero. -/
def launchBad (p : BitVec 1024) : Bool :=
  let f := pktField p
  f 536 104 ≠ 0 || f 190 2 ≠ 0 || f 179 5 ≠ 0 || f 320 32 % 32 ≠ 0 || f 288 32 % 32 ≠ 0 || f 208 16 = 0 || 6 ≤ f 184 3
    || 256 < f 166 9 + f 157 9 || 4 < f 154 3 || f 146 6 = 0 || 32 < f 146 6 || f 144 2 = 3 || f 96 16 = 0 || f 112 16 = 0 || f 128 16 = 0

/-- What the dispatcher's reads for a launch come to. -/
inductive ArgRead where
  | got (s : State) (v : Nat)
  | waits (layer : Option Nat)
  | fault (m : Miss)
  | bad

/-- R411: read n bits through a derived field, checked as a copy's access is. What fails the check of R61 fails the packet with BADPKT
(log 124); in the plane no line is the dispatcher's, so R191 refuses every one. -/
def State.argGet (s : State) (who : Who) (c : Cap) (a n : Nat) : ArgRead :=
  if n = 0 then .got s 0
  else if (capCheck c a n pLoad .load false).isSome ∨ c.space = 1 then .bad
  else match s.engineGet who who.asid c.space a n 0 with
    | .got s1 v bad => if bad then .bad else .got s1 v
    | .fault m => .fault m
    | .unreachable => .bad
    | .waits ly => .waits ly

/-- Derive the units that the tag map names; none is BADCAP. -/
def State.tagUnits (s : State) (asid : BitVec 14) (block map : Nat) : List Nat → Option (Tbl Cap)
  | [] => some []
  | i :: is =>
    if bits map i 1 = 0 then s.tagUnits asid block map is
    else match s.derive asid (BitVec.ofNat 128 (bits block (128 * i) 128)) 0, s.tagUnits asid block map is with
      | some c, some t => some ((i, c) :: t)
      | _, _ => none

/-- The bytes of a number as a memory. -/
def cellsOf (v n : Nat) : List Host.Cell := writeBytes [] 0 v n

/-- R375: an argument block of n bytes with its derived units in place of what the host wrote. -/
def argCells (block n : Nat) (units : Tbl Cap) : List Host.Cell :=
  units.foldl (fun m u => writeBits m (128 * u.1) (min 128 (8 * n - 128 * u.1)) u.2.bits.toNat) (cellsOf block n)

/-- Accept a launch whose argument block and tags are read: it ends at once with NOFIT, or is handed out. -/
def State.acceptLaunch (s : State) (q : Nat) (k : Queue) (l : Launch) : State :=
  let a := k.asid.toNat
  let l := { l with number := look 0 s.accepted a }
  let s1 : State := { s with accepted := put 0 s.accepted a ((look 0 s.accepted a + 1) % 2 ^ 64) }
  let key := s1.nextLaunch
  let s2 := s1.startPacket q k l.packet
  if s2.noFit key l then s2.packetDone q (pCorr l.packet) (pSeq l.packet) 3
  else
    let s3 : State := { s2 with launches := set s2.launches key l, nextLaunch := key + 1 }
    match find s3.queues q with
    | some k1 => s3.setQueue q { k1 with handing := some key }
    | none => s3

/-- The LAUNCH at HEAD; none while it waits. A CODE cursor that is no multiple of 32 puts no header at an address of R65: BADPKT, as for an
ENTRY that is none (the model's choice, log 144). -/
def State.launchStep (s : State) (q : Nat) (k : Queue) (p : BitVec 1024) : Option State :=
  let f := pktField p
  let cap := fun (lo : Nat) => BitVec.ofNat 128 (f lo 128)
  let size := f 192 16
  let units := (size + 15) / 16
  if headerBad k p ∨ launchBad p ∨ bits (f 640 64) 0 5 ≠ 0 then some (s.failPacket q k p 1)
  else match s.derive k.asid (cap 640) (pExec + pLoad), s.derive k.asid (cap 768) pLoad, s.derive k.asid (cap 896) 0 with
    | some code, some arg, some spill =>
      let who := headWho k.asid q
      match s.argGet who arg arg.cursor (8 * size) with
      | .waits ly => s.standBy who ly
      | .bad => some (s.failPacket q k p 1)
      | .fault m => s.packetFault q k p .load m
      | .got s1 block => match s1.argGet who arg (arg.cursor + 8 * size) ((units + 7) / 8 * 8) with
        | .waits ly => s1.standBy who ly
        | .bad => some (s1.failPacket q k p 1)
        | .fault m => s1.packetFault q k p .load m
        | .got s2 map => match s2.tagUnits k.asid block map (List.range units) with
          | none => some (s2.failPacket q k p 2)
          | some tags =>
            some (s2.acceptLaunch q k
              { packet := p, queue := q, asid := k.asid, number := 0, code := code, arg := mkCap 0 (8 * size) (pLoad + pLoadCap) 5, spill := spill,
                argMem := argCells block size tags, argTags := tags.map (fun u => (u.1, true)), handed := 0, completed := 0, status := 0, stopped := false, reported := false })
    | _, _, _ => some (s.failPacket q k p 2)

/-- A type that no packet has, or the packet type that an event takes. -/
def packetFor (t : Nat) (p : BitVec 1024) : Bool := pType p = t || (t = 1 && (pType p = 0 || 7 ≤ pType p))

/-- An event that takes the packet at HEAD when it is of a type. -/
def packetEvent (t q : Nat) (f : State → Queue → BitVec 1024 → Option State) (s : State) : Host.Outcome State Fault Refusal :=
  match s.headPacket q with
  | none => s.headWaits q
  | some (k, p) =>
    if packetFor t p then
      match f (s.packetSeen k) k p with
      | some u => .next u
      | none => .refused .notEnabled
    else .refused .notEnabled

def execLaunch (q : Nat) (s : State) : Host.Outcome State Fault Refusal :=
  packetEvent 1 q (fun t k p => if pType p = 1 then t.launchStep q k p else some (t.failPacket q k p 1)) s

/-! ## COPY -/

/-- What stands in the kicker's place in a copy of a packet, which has none: its `queue` tells, and nothing reads this. -/
def noScribe : BitVec 14 := 0x3FFF

/-- The capability fields the operation uses, derived with the permissions that R280 asks of them (R323). -/
def State.deriveCopy (s : State) (asid : BitVec 14) (c : Copy) : Option Copy :=
  let src := if c.op = 4 then some c.src else s.derive asid c.src.bits (pLoad + pEngine)
  let dst := if c.op = 3 then some c.dst else s.derive asid c.dst.bits (pStore + pEngine + if c.op = 1 then pAtomic else 0)
  let table := if c.btab ∨ c.op = 2 then s.derive asid c.table.bits (pLoad + pEngine) else some c.table
  match src, dst, table with
  | some a, some b, some t => some { c with src := a, dst := b, table := t }
  | _, _, _ => none

/-- R191, R287: the plane lines of a packet's copy, which no scribe kicks, so no line is its own to read or write: what lands in lines
passed to receive a multicast is served. None while an island of theirs wakes. -/
def State.packetLines (s : State) (c : Copy) : Option Bool :=
  let ls := (c.destLines s).map (·.1)
  if c.readLines s 0 ≠ [] ∨ (ls ≠ [] ∧ c.mcast = false) then some false
  else if ls.any s.retained then none
  else some (ls.all (fun l => s.kickSayOf noScribe noScribe true true 0 l = .ok)
    && !(c.plane && (c.liveSegs s).any fun g => s.barHit (planeAddr g.pe g.depth) g.n))

/-- The COPY at HEAD. -/
def State.copyStep (s : State) (q : Nat) (k : Queue) (p : BitVec 1024) : Option State :=
  if headerBad k p ∨ pktField p 160 864 ≠ 0 then some (s.failPacket q k p 1)
  else match s.argGet (headWho k.asid q) (mkCap 0 (2 ^ 60) pLoad 0) (pktField p 96 64) 1024 with
    | .waits ly => s.standBy (headWho k.asid q) ly
    | .bad => some (s.failPacket q k p 1)
    | .fault m => s.packetFault q k p .load m
    | .got s1 v =>
      let c := mkCopy noScribe noScribe k.asid (some (q, pSeq p, pCorr p)) (BitVec.ofNat 512 v) (BitVec.ofNat 512 (v / 2 ^ 512)) 0
      match s1.deriveCopy k.asid c with
      | none => some (s1.failPacket q k p 2)
      | some c =>
        if (c.formFault false).isSome ∨ c.bar ≠ noBar ∨ c.crec ∨ (c.capFault 0).isSome then some (s1.failPacket q k p 1)
        else match s1.packetLines c with
          | none => s1.stepAside (headWho k.asid q)
          | some false => some (s1.failPacket q k p 1)
          | some true => some ((s1.startPacket q k p).startCopy c)

def execCopy (q : Nat) (s : State) : Host.Outcome State Fault Refusal := packetEvent 2 q (fun t => t.copyStep q) s

/-- R292, R324: the record of a copy whose walk is over, or the entry of its packet. -/
def execCompletionRecord (k : Nat) (s : State) : Host.Outcome State Fault Refusal :=
  match find s.copies k with
  | none => .refused .notEnabled
  | some c => match c.queue with
    | some (q, seq, corr) =>
      if c.ended then s.inTurn c.who (s.entryLayer c.who q) fun t => (t.copyGone k c).packetDone q corr seq 0 else .refused .notEnabled
    | none => match s.recordStep k with
      | some t => .next t
      | none => .refused .notEnabled

/-! ## WAIT, SIGNAL and MARKER -/

/-- Whether packet SEQ ≤ v of a queue has completed. -/
def State.seqDone (s : State) (q v : Nat) : Bool :=
  match find s.queues q with
  | some k => (k.doneSeq.toNat + 2 ^ 32 - v - 1) % 2 ^ 32 < 2 ^ 31
  | none => false

/-- A packet that is done as it starts. -/
def State.atOnce (s : State) (q : Nat) (k : Queue) (p : BitVec 1024) : State := (s.startPacket q k p).packetDone q (pCorr p) (pSeq p) 0

/-- The WAIT at HEAD. -/
def State.waitStep (s : State) (q : Nat) (k : Queue) (p : BitVec 1024) : Option State :=
  let mode := pktField p 96 2
  let who := headWho k.asid q
  if headerBad k p ∨ mode = 3 ∨ pktField p 98 6 ≠ 0 ∨ pktField p 112 16 ≠ 0 ∨ pktField p 288 736 ≠ 0 then some (s.failPacket q k p 1)
  else if mode = 0 then (if k.incomplete = [] then some (s.atOnce q k p) else s.stepAside who)
  else if mode = 1 then (if s.seqDone (pktField p 104 8) (pktField p 128 32) then some (s.atOnce q k p) else s.stepAside who)
  else match s.argGet who (mkCap 0 (2 ^ 60) pLoad 0) (pktField p 160 64) 64 with
    | .waits ly => s.standBy who ly
    | .bad => some (s.failPacket q k p 1)
    | .fault m => s.packetFault q k p .load m
    | .got s1 v => if pktField p 224 64 ≤ v then some (s1.atOnce q k p) else s1.stepAside who

def execWait (q : Nat) (s : State) : Host.Outcome State Fault Refusal := packetEvent 3 q (fun t => t.waitStep q) s

/-- The SIGNAL at HEAD. -/
def State.signalStep (s : State) (q : Nat) (k : Queue) (p : BitVec 1024) : Option State :=
  let a := pktField p 96 64
  if headerBad k p ∨ a % 64 ≠ 0 ∨ 2 ^ 60 ≤ a ∨ pktField p 224 64 ≠ 0 ∨ pktField p 289 735 ≠ 0 then some (s.failPacket q k p 1)
  else if k.incomplete ≠ [] then s.stepAside (headWho k.asid q)
  else match s.putFarAs (headWho k.asid q) (headWho k.asid q).line k.asid 0 a 64 (pktField p 160 64) .store false with
    | .error m => s.packetFault q k p .store m
    | .ok r =>
      if r.waits.isSome then s.standBy (headWho k.asid q) r.waits
      else
        let s1 := r.st
        let s2 := if pktField p 288 1 = 1 then { s1 with mgmt := { s1.mgmt with msix := put 0 s1.mgmt.msix (1 + q) (look 0 s1.mgmt.msix (1 + q) + 1) } } else s1
        some (s2.atOnce q k p)

def execSignal (q : Nat) (s : State) : Host.Outcome State Fault Refusal := packetEvent 4 q (fun t => t.signalStep q) s

/-- The MARKER at HEAD. -/
def State.markerStep (s : State) (q : Nat) (k : Queue) (p : BitVec 1024) : State :=
  if headerBad k p ∨ pktField p 96 928 ≠ 0 then s.failPacket q k p 1
  else (s.startPacket q k p).tracePkt k.asid 0x0D 0 (pCorr p) ((pSeq p).toNat + (pCorr p).toNat * 2 ^ 32) |>.packetDone q (pCorr p) (pSeq p) 0

def execMarker (q : Nat) (s : State) : Host.Outcome State Fault Refusal := packetEvent 5 q (fun t k p => some (t.markerStep q k p)) s

/-! ## Trace rings (R379, R380) -/

/-- The address of a session's record k. -/
def Session.slotAt (ss : Session) (k : Nat) : Nat := modw 64 ((ss.drain.cursor : Int) + (256 + 128 * (k % 2 ^ ss.logN) : Nat))

/-- One write through DRAIN, checked as every access is (R61); no plane line is the cluster's to write (R191). Answers whether it was
performed: the spec names no report of one that is not, and a record so lost counts as discarded (the model's choice, log 78). -/
def State.drainPut (s : State) (asid : BitVec 14) (d : Cap) (a w v : Nat) : State × Bool :=
  if (capCheck d a w pStore .store false).isSome ∨ d.space = 1 ∨ s.takesWrite (dispatcher asid) asid d.space a w = false then (s, false)
  else (s.engineWrite (dispatcher asid) asid d.space a w v, true)

/-- Write records to a session's drain ring, then its count; answers how many could not be written. -/
def State.drainTo (s : State) (asid : BitVec 14) (ss : Session) : List (BitVec 128) → State × Session × Nat
  | [] => ({ (s.drainPut asid ss.drain ss.drain.cursor 64 ss.written).1 with sessions := set s.sessions asid.toNat ss }, ss, 0)
  | r :: rs =>
    let (s1, there) := s.drainPut asid ss.drain (ss.slotAt ss.written) 128 r.toNat
    let (s2, ss2, lost) := s1.drainTo asid { ss with written := ss.written + 1 } rs
    (s2, ss2, if there then lost else lost + 1)

/-- R343: the layer that holds back the drain of `who`'s context: of its count, or of one of its next n records. -/
def State.drainLayerFor (s : State) (who : Who) (n : Nat) : Option Nat :=
  (find s.sessions who.asid.toNat).bind fun ss =>
    (s.farLayer who who.asid ss.drain.space ss.drain.cursor 64).or
      ((List.range n).findSome? fun i => s.farLayer who who.asid ss.drain.space (ss.slotAt (ss.written + i)) 128)
def State.drainLayer (s : State) (asid : BitVec 14) (n : Nat) : Option Nat := s.drainLayerFor (dispatcher asid) n

/-- The records of a context in a cluster's folio. -/
def State.folioOf (s : State) (asid : BitVec 14) (cluster : Nat) : Nat :=
  ((look {} s.clusters cluster : Cluster).folio.filter fun r => r.1 = asid).length

/-- The records of a context in a cluster's folio go to its ring. -/
def State.drainOnce (s : State) (asid : BitVec 14) (cluster : Nat) : State × Nat :=
  match find s.sessions asid.toNat with
  | none => (s, 0)
  | some ss =>
    let c : Cluster := look {} s.clusters cluster
    let mine := (c.folio.filter fun r => r.1 = asid).map (·.2)
    if mine = [] then (s, 0)
    else
      let (s1, _, lost) := s.drainTo asid ss mine
      let c1 : Cluster := look {} s1.clusters cluster
      ({ s1 with clusters := put {} s1.clusters cluster { c1 with folio := c1.folio.filter fun r => r.1 ≠ asid } }, lost)

/-- R379: a folio that has room again writes the LOST records it owes. -/
def State.regain (s : State) (cluster : Nat) : State :=
  s.sessions.foldl (fun s p =>
    let c : Cluster := look {} s.clusters cluster
    { s with clusters := put {} s.clusters cluster (c.regain p.2 (BitVec.ofNat 14 p.1) s.time) }) s

/-- A drain, and the LOST record that the room it makes calls for, which goes to the ring after it. The records stay while a layer holds
the ring back. -/
def State.drainFolio (s : State) (asid : BitVec 14) (cluster : Nat) : State × Nat :=
  if (s.drainLayer asid (s.folioOf asid cluster + 2)).isSome then (s, 0)
  else
    let (s1, a) := s.drainOnce asid cluster
    let (s2, b) := (s1.regain cluster).drainOnce asid cluster
    (s2, a + b)

/-- Flush every folio's records of a context. -/
def State.flushTrace (s : State) (asid : BitVec 14) : State × Nat :=
  (List.range 64).foldl (fun (r : State × Nat) c => let (s1, n) := r.1.drainFolio asid c; (s1, r.2 + n)) (s, 0)

/-- R376, R377: as a session opens, what earlier sessions of the context left in a cluster is gone, and the cluster writes a TIMEHI, which
carries the packet's CORR. -/
def Cluster.opened (c : Cluster) (asid : BitVec 14) (ss : Session) (cluster time : Nat) : Cluster :=
  let c1 := { c with folio := c.folio.filter fun r => r.1 ≠ asid, dropped := del c.dropped asid.toNat, lastHi := del c.lastHi asid.toNat }
  if bits ss.clusters.toNat cluster 1 = 0 ∨ ss.records 1 = false then c1
  else if 4096 ≤ c1.folio.length then c1.log asid 0
  else { c1.log asid (traceRec 1 0 ss.corr time time) with lastHi := put 0 c1.lastHi asid.toNat (time / 2 ^ 20 + 1) }

def State.openClusters (s : State) (asid : BitVec 14) (ss : Session) : List Nat → State
  | [] => s
  | c :: cs =>
    ({ s with clusters := put {} s.clusters c ((look {} s.clusters c).opened asid ss c s.time) } : State).openClusters asid ss cs

/-! ## TRACE (R376) -/

/-- Table 24-2: a reserved bit or a field outside its limits. -/
def traceBad (k : Queue) (p : BitVec 1024) : Bool :=
  headerBad k p || pktField p 384 640 ≠ 0 || pktField p 176 16 ≠ 0 || pktField p 104 56 ≠ 0 || pktField p 99 1 ≠ 0 || 8 < pktField p 100 4 || pktField p 96 2 = 3

/-- The TRACE at HEAD that opens a session, or that names no operation. -/
def State.traceOpenStep (s : State) (q : Nat) (k : Queue) (p : BitVec 1024) : State :=
  if traceBad k p ∨ (find s.sessions k.asid.toNat).isSome then s.failPacket q k p 1
  else match s.derive k.asid (BitVec.ofNat 128 (pktField p 256 128)) pStore with
    | none => s.failPacket q k p 2
    | some d =>
      let ss : Session := { drain := d, logN := 12 + pktField p 100 4, types := BitVec.ofNat 32 (pktField p 160 32), clusters := word (pktField p 192 64),
                            brkcap := pktField p 98 1 = 1, corr := pCorr p, written := 0 }
      let s1 : State := { s with sessions := set s.sessions k.asid.toNat ss }
      (s1.openClusters k.asid ss (List.range 64)).atOnce q k p

/-- The records of a context that a flush writes, at most. -/
def State.flushSize (s : State) (asid : BitVec 14) : Nat := (List.range 64).foldl (fun n c => n + s.folioOf asid c + 2) 0

/-- A close (true) or a flush; none while a layer holds its ring back. -/
def State.traceEndStep (s : State) (q : Nat) (k : Queue) (p : BitVec 1024) (close : Bool) : Option State :=
  if traceBad k p ∨ (find s.sessions k.asid.toNat).isNone then some (s.failPacket q k p 1)
  else match s.drainLayer k.asid (s.flushSize k.asid) with
  | some ly => s.standBy (headWho k.asid q) (some ly)
  | none => some <|
    let s1 := (s.flushTrace k.asid).1
    let s2 := if close then { s1 with sessions := del s1.sessions k.asid.toNat } else s1
    s2.atOnce q k p

/-- The event of a TRACE packet with one of the operations. -/
def traceEvent (ops : List Nat) (q : Nat) (f : State → Queue → BitVec 1024 → Option State) (s : State) : Host.Outcome State Fault Refusal :=
  match s.headPacket q with
  | none => s.headWaits q
  | some (k, p) =>
    if pType p = 6 ∧ ops.contains (pktField p 96 2) then
      (match f (s.packetSeen k) k p with
      | some u => .next u
      | none => .refused .notEnabled)
    else .refused .notEnabled

def execTraceOpen (q : Nat) (s : State) : Host.Outcome State Fault Refusal := traceEvent [0, 3] q (fun t k p => some (t.traceOpenStep q k p)) s
def execTraceClose (q : Nat) (s : State) : Host.Outcome State Fault Refusal := traceEvent [1] q (fun t k p => t.traceEndStep q k p true) s
def execTraceFlush (q : Nat) (s : State) : Host.Outcome State Fault Refusal := traceEvent [2] q (fun t k p => t.traceEndStep q k p false) s

/-- A cluster as it drains for a context, with its place in line at a tripped layer. -/
def drainWho (cluster : Nat) (asid : BitVec 14) : Who := { dispatcher asid with place := placeOf .drain (64 * asid.toNat + cluster) }

/-- The contexts with a session that have records in a cluster's folio, each with the layer that holds its drain back, if one does. -/
def State.drains (s : State) (cluster : Nat) : List (BitVec 14 × Option Nat) :=
  ((s.sessions.map fun ss => BitVec.ofNat 14 ss.1).filter fun a => s.folioOf a cluster ≠ 0).map fun a =>
    (a, s.drainLayerFor (drainWho cluster a) (s.folioOf a cluster + 2))

/-- R379: a folio drains a batch: the records of every context with a session whose ring serves. One that a layer holds back stands in line
there (R343). -/
def execFolioDrain (cluster : Nat) (s : State) : Host.Outcome State Fault Refusal :=
  let ds := s.drains cluster
  if ds.any fun d => d.2.isNone then
    .next ((ds.filter fun d => d.2.isNone).foldl (fun s d => ((s.leaveLine (drainWho cluster d.1)).drainFolio d.1 cluster).1) s)
  else match ds.findSome? fun d => s.standBy (drainWho cluster d.1) d.2 with
    | some t => .next t
    | none => .refused .notEnabled

/-- R380: a cluster is gated: its folio drains, or a forced gate discards the rest and the I/O die writes how many were lost, where the
session records that type (Table 24-2). While a layer holds the ring back, the count is still owed. -/
def State.gate (s : State) (cluster : Nat) (forced : Bool) : State :=
  s.sessions.foldl (fun s p =>
    let asid : BitVec 14 := BitVec.ofNat 14 p.1
    if forced = false then (s.drainFolio asid cluster).1
    else
      let c : Cluster := look {} s.clusters cluster
      let n := (c.folio.filter fun r => r.1 = asid).length
      if n = 0 then s
      else
        let left : Cluster := { c with folio := c.folio.filter fun r => r.1 ≠ asid }
        let owing : Cluster := { left with dropped := put 0 c.dropped p.1 (look 0 c.dropped p.1 + n) }
        let wait := p.2.records 0x0F && (s.drainLayer asid 1).isSome
        let s1 : State := { s with clusters := put {} s.clusters cluster (if wait then owing else left) }
        if wait ∨ p.2.records 0x0F = false then s1 else (s1.drainTo asid p.2 [traceRec 0x0F 0 0 s.time n]).1) s

/-- A gate that is not forced waits for the drain. -/
def execPowerGate (cluster : Nat) (forced : Bool) (s : State) : Host.Outcome State Fault Refusal :=
  event (cluster < 64 && (forced || s.sessions.all fun p =>
      s.folioOf (BitVec.ofNat 14 p.1) cluster = 0 || (s.drainLayer (BitVec.ofNat 14 p.1) (s.folioOf (BitVec.ofNat 14 p.1) cluster + 2)).isNone))
    (fun t => t.gate cluster forced) s

/-! ## Completion of a LAUNCH (R314) -/

/-- Copies that scribes of a launch kicked and that have not completed. -/
def State.launchCopies (s : State) (n : Nat) : Bool :=
  s.copies.any (fun p => p.2.launch = n && p.2.queue.isNone && p.2.coll.isNone) || s.lcopies.any fun p => p.2.launch = n

/-- Whether a launch is complete but for its entry. -/
def State.launchOver (s : State) (n : Nat) (l : Launch) : Bool :=
  (l.stopped || l.total ≤ l.handed) && l.handed ≤ l.completed && !s.launchCopies n

def execLaunchCompletion (n : Nat) (s : State) : Host.Outcome State Fault Refusal :=
  match find s.launches n with
  | none => .refused .notEnabled
  | some l =>
    let who : Who := { asid := l.asid, place := placeOf .launch n }
    if s.launchOver n l then s.inTurn who (if l.reported then none else s.entryLayer who l.queue) fun t =>
      let t1 : State := ({ t with launches := del t.launches n } : State).promoteHoles n
      if l.reported then t1.closePacket l.queue (pSeq l.packet) else t1.packetDone l.queue (pCorr l.packet) (pSeq l.packet) l.status
    else .refused .notEnabled

/-! ## The host's side of a queue (R369, R370) -/

/-- A write of TAIL. The host reads the registers as `Queue.image` (R369). -/
def execTail (q : Nat) (v : BitVec 32) (s : State) : Host.Outcome State Fault Refusal :=
  match find s.queues q with
  | some k => .next (s.setQueue q { k with tail := v }.settle)
  | none => .refused .notEnabled

/-- The launches of a queue. -/
def State.launchesOf (s : State) (q : Nat) : List Nat := (s.launches.filter fun l => l.2.queue = q).map (·.1)

/-- CTRL restart: reading goes on after the stopping packet; teams the watchdog holds may be restored. -/
def execCtrlRestart (q : Nat) (s : State) : Host.Outcome State Fault Refusal :=
  match find s.queues q with
  | none => .refused .notEnabled
  | some k =>
    let ls := s.launchesOf q
    event (2 ≤ k.state) (fun t =>
      let t1 : State := { t with teams := t.teams.map fun p => (p.1, if ls.contains p.2.launch then { p.2 with held := false } else p.2) }
      t1.setQueue q { k with state := 1 }.settle) s

/-- Kill the teams of a launch that are not complete, which gives its entry STATUS 4, and cancel the copies that its scribes kicked. -/
def State.killLaunch (s0 : State) (n : Nat) : State :=
  let s := s0.cancelAll ((s0.copies.filter fun p => p.2.launch = n && p.2.queue.isNone && p.2.coll.isNone).map (·.1))
  let ids := (s.teams.filter fun t => t.2.launch = n).map (·.1)
  let s1 := (ids.foldl (fun s i => match find s.teams i with
    | some t => s.killTeam t
    | none => s) s).recall n
  match find s1.launches n, find s0.launches n with
  | some l, some l0 =>
    if ids = [] ∧ (l0.stopped ∨ l0.total ≤ l0.handed) ∧ l0.handed ≤ l0.completed then s1
    else { s1 with launches := set s1.launches n { l with status := 4 } }
  | _, _ => s1

/-- The COPY packets of a queue that run are cancelled. -/
def State.cancelPackets (s : State) (q : Nat) : State :=
  s.cancelAll ((s.copies.filter fun p => p.2.queue.any fun k => k.1 = q).map (·.1))

/-- CTRL reset (R370): reading stops; teams are killed, and copies cancelled as QCANCEL does, those of COPY packets too. An open session is
flushed, with a TRUNC record where it records that type; while a layer holds its ring back, its records and this one stay in the folios. -/
def execCtrlReset (q : Nat) (s : State) : Host.Outcome State Fault Refusal :=
  match find s.queues q with
  | none => .refused .notEnabled
  | some k =>
    let s1 := ((s.launchesOf q).foldl State.killLaunch s).cancelPackets q
    let s2 : State := { s1 with faulted := s1.faulted.filter fun f => !(f.source = 2 && f.agent = q) }
    let s3 := match find s2.queues q with
      | some k1 => s2.setQueue q { k1 with head := k.tail, state := 0, handing := none, parked := 0 }
      | none => s2
    let held := (s3.drainLayer k.asid (s3.flushSize k.asid + 1)).isSome
    let (s4, lost) := s3.flushTrace k.asid
    .next (match find s4.sessions k.asid.toNat with
      | some ss =>
        if ss.records 0x0E = false then s4
        else if held then { s4 with clusters := put {} s4.clusters 0 ((look {} s4.clusters 0 : Cluster).log k.asid (traceRec 0x0E 0 0 s.time lost)) }
        else (s4.drainTo k.asid ss [traceRec 0x0E 0 0 s.time lost]).1
      | none => s4)

end Sys2Proof.Machine
end

