-- ==== Sys2Proof/Machine/Events.lean ====
section
/-! DEFINITION. Steps that concern one scribe or one context's translation: resolution and late faults of wet accesses
(R155, R156), deliverable events (R174), urgency (R232), walks, invalidation and the fault queue (R328, R332, R410). -/

namespace Sys2Proof.Machine

open Sys2Proof

/-! ## Wet accesses -/

/-- A resident scribe and one of its tags. -/
def State.tagOf (s : State) (sid tag : Nat) : Option (Scribe × TagRec) :=
  match s.scribe (BitVec.ofNat 14 sid) with
  | some c => (find c.wet.tags tag).map fun t => (c, t)
  | none => none

/-! ## Accesses issued again (R157, R333, R343, R410) -/

/-- Issue a plain access again from its record. -/
def State.reissue (s : State) (c : Scribe) (tag : Nat) (t : TagRec) : State :=
  let k : AKind := if t.amo.isSome then .atomic else .load
  let who := c.at_.who
  let asid := c.at_.asid
  let put := fun (s : State) (t : TagRec) => s.asScribe c.at_.id fun u => u.onWet fun w => { w with tags := set w.tags tag t }
  let fail := fun (s : State) (cause : Nat) => (put s { t with queued := 0 }).asScribe c.at_.id fun u => { u with me := u.me.faultTag tag cause }
  match s.getFarAs who (some tag) asid t.space t.addr t.width k with
  | .error m =>
    let s0 := s.walkedTo who m
    if m.detail = 2 ∨ ¬ s.replays asid then fail s0 1
    else
      let (s1, n) := s0.faultQ asid 1 0 c.at_.id.toNat k m.detail m.addr
      put s1 { t with queued := entryOf n }
  | .ok g => match g.waits, g.bad with
    | some ly, _ => put (s.lineUp c.at_.id (some tag) ly) { t with queued := noEntry }
    | none, some (cause, _) => fail g.st cause
    | none, none =>
      let s1 := match t.amo with
        | some (o, x, y) => g.st.asScribe c.at_.id fun u => u.amoWrite t.space t.addr t.width ((amoOfCode o).new t.width g.n x.toNat y.toNat) true { g with st := u }
        | none => g.st
      put s1 { t with queued := 0, x := extend t.width t.signed g.n, updated := t.amo.isSome }

/-- Issue again the accesses of wet tags that a test picks. -/
def State.reissueAll (s : State) (p : Scribe → Nat × TagRec → Bool) : State :=
  s.allScribes.foldl (fun s c => c.wet.tags.foldl (fun s q =>
    match s.tagOf c.at_.id.toNat q.1 with
    | some (d, t) => if t.queued ≠ 0 && t.fault.isNone && p d (q.1, t) then s.reissue d q.1 t else s
    | none => s) s) s

/-- R343: whether a tag's access has a place in line at a layer. -/
def State.lined (s : State) (c : Scribe) (q : Nat × TagRec) : Bool :=
  noEntry ≤ q.2.queued && s.dies.any fun d => d.2.waiters.any fun k => k.sid = c.at_.id && k.tag = some q.1

/-- R343: whether an access in line at a layer is served when it is issued again. -/
def State.goesOn (s : State) (c : Scribe) (q : Nat × TagRec) : Bool :=
  s.lined c q && (match (s.reissue c q.1 q.2).tagOf c.at_.id.toNat q.1 with
    | some (_, t) => decide (t.queued < noEntry)
    | none => true)

/-! ## Wet accesses -/

/-- Whether a lane tag has a lane whose lines have landed. -/
def State.laneReady_ (s : State) (t : TagRec) : Bool := t.lanes.any (s.see t).ready

/-- Whether a tag's value can arrive. -/
def State.resolves (s : State) (t : TagRec) : Bool := t.fault.isNone && t.queued = 0 && (t.scalar || s.laneReady_ t)

/-- R155: a tag's value arrives; or its access, in line at a layer, is served at last (R343). -/
def execResolution (sid tag : Nat) (s : State) : Host.Outcome State Fault Refusal :=
  match s.tagOf sid tag with
  | none => .refused .notEnabled
  | some (c, t) =>
    event (s.resolves t || s.goesOn c (tag, t))
      (fun u => if u.resolves t then u.setScribe (if t.scalar then c.resolveS tag t.x else u.resolveLaneTag c tag t) else u.reissue c tag t) s

/-- R156: what can fault an access after its issue: 1 its translation, when that is not replayed; 2 an uncorrectable word; 3 a
peer that cannot be reached. -/
def State.lateFault (s : State) (c : Scribe) (t : TagRec) (cause : Nat) : Bool :=
  let home := s.served c.at_.asid t.space t.addr t.width
  let at_ := fun (k : AKind) => match home with
    | some (id, v) => s.translate c.at_.who.core id k v t.width
    | none => .ok []
  match cause with
  | 1 => (match at_ (if t.amo.isSome then .atomic else .load) with
    | .error (d, _) => d = 2 || !s.replays c.at_.asid
    | .ok _ => false)
  | 2 => (match at_ .load with
    | .ok ps => (pieceWords ps).any s.deadWord
    | .error _ => false) || (home.isNone && s.peerPoison t.addr t.width)
  | 3 => t.space = 3 && home.isNone && !s.peerReachable t.addr
  | _ => false

/-- What the access does at its home as it faults: the records of its walk and of the words that it meets (R340, R341). -/
def State.lateSeen (s : State) (c : Scribe) (t : TagRec) : State :=
  match s.getFarAs c.at_.who none c.at_.asid t.space t.addr t.width (if t.amo.isSome then .atomic else .load) with
  | .ok g => g.st
  | .error m => s.walkedTo c.at_.who m

/-- The tag turns faulted; the value of its place in program order, which later accesses of the scribe may rest on, is kept (R160). -/
def Scribe.lateFaultTag (c : Scribe) (tag cause : Nat) : Scribe :=
  let keep := fun (t : TagRec) => { t with kept := t.kept || t.amo.isNone }
  (({ c with wet := { c.wet with tags := c.wet.tags.map fun p => if p.1 = tag then (p.1, keep p.2) else p } } : Scribe).faultTag tag cause)

def execWetAccessFault (sid tag cause : Nat) (s : State) : Host.Outcome State Fault Refusal :=
  match s.tagOf sid tag with
  | none => .refused .notEnabled
  | some (c, t) => event (t.scalar && t.fault.isNone && t.queued = 0 && s.lateFault c t cause) (fun u => (u.lateSeen c t).asScribe c.at_.id fun v => { v with me := v.me.lateFaultTag tag cause }) s

/-! ## Deliverable events (R173, R174) -/

/-- R173, R174: a deliverable cause is pending and may enter: at a precise point, not between the word XIM and its word. -/
def State.deliverable (s : State) : Bool := s.me.eventDue && s.me.ctl.xim.isNone

/-- The pending cause with the lowest code, and 1 + its coalesced raisings. -/
def Scribe.nextCause (c : Scribe) : Nat × Nat := c.run.pending.headD (0, 0)

/-- TINFO of a deliverable cause (Table 08-1). -/
def State.causeInfo (s : State) (code : Nat) : Word :=
  match code with
  | 0x21 => s.me.run.riskInfo
  | 0x22 =>
    let i := s.island
    word ((i.matrix = 0 : Bool).toNat + (i.vector = 0 : Bool).toNat * 2 + (i.special = 0 : Bool).toNat * 4 + (i.memory = 0 : Bool).toNat * 8)
  | _ => s.me.run.errorInfo

/-- Enter the handler with a deliverable cause. -/
def State.enterEvent (s : State) : State :=
  let (code, n) := s.me.nextCause
  let cause := code + (n - 1) % 256 * 256
  let s1 := s.onRun fun r => { r with pending := del r.pending code }
  if s1.me.ctl.entryRuns then
    let s2 := if s1.me.ctl.inTemps then { s1 with me := s1.me.holdTemps } else s1
    (((s2.onRun Run.keepBroken).onCtl fun c => c.enter cause (s.causeInfo code).toNat 0).calmMe).onRun fun r => r.enter none
  else s1.doubleFault code cause s.me.ctl.wordAt (word cause)

def execDeliverableEventEntry (s : State) : Host.Outcome State Fault Refusal :=
  event (s.me.run.life = .running && s.deliverable) State.enterEvent s

/-- R232: a scribe that has been ready for 32 issue cycles of its slot. -/
def execUrgent (sid : Nat) (s : State) : Host.Outcome State Fault Refusal :=
  match s.scribe (BitVec.ofNat 14 sid) with
  | none => .refused .notEnabled
  | some c => event (c.run.life = .running && 32 ≤ c.run.ready && !c.run.urgent) (fun t => t.setScribe { c with run := { c.run with urgent := true } }) s

/-! ## Walks and invalidation -/

/-- The core of an operand: below 256, else none, for an access of no scribe. -/
def coreOperand (core : Nat) : Option Nat := if core < 256 then some core else none

/-- R328, R331: a miss is walked, which reads its entries as any read does (R340, R341) and waits at a tripped layer (R343); the page enters the
TLBs that missed and serves every later access that looks in one of them. -/
def execTranslationWalk (asid : Nat) (w : WalkReq) (s : State) : Host.Outcome State Fault Refusal :=
  let id : BitVec 14 := BitVec.ofNat 14 asid
  let b := w.addr % 2 ^ 60 / 8
  let at_ := coreOperand w.core
  let ws := s.walksOf at_ id (w.addr % 2 ^ 60) 1
  if (s.heldAt none none ws).isSome then .refused .notEnabled
  else
    let t := s.readWalk (dispatcher id) ws
    match s.tlbFind at_ id b, t.leaf at_ id b with
    | none, .ok l => .next ((tlbPath at_).foldl (fun u => u.tlbEnter w.out id b l.pack) t)
    | _, _ => .refused .notEnabled

/-- R332: the entries of an ASID in every TLB over the virtual bit addresses lo .. hi - 1 go. -/
def execAsidInvalidate (asid lo hi : Nat) (s : State) : Host.Outcome State Fault Refusal :=
  .next { s with tlb := s.tlb.filter fun e =>
    let page := e.1 % 2 ^ 41
    !(e.1 / 2 ^ 41 % 2 ^ 14 = asid && page * 2 ^ 19 < hi && lo < (page + 1) * 2 ^ 19) }

/-! ## The fault queue (R333, R410) -/

/-- Whether what waits on `queued` may go on when CCNT is v. -/
def passed (v queued : Nat) : Bool := queued ≠ 0 && (queued - 1 < v || noEntry ≤ queued)

/-- A scribe parked on an entry that CCNT has passed tries its word again. -/
def Scribe.passEntry (v : Nat) (c : Scribe) : Scribe :=
  if passed v c.run.waitEntry then { c with run := { c.run with waitEntry := 0, retry := true } } else c

/-- The copies of a list whose entries CCNT has passed go on. -/
def passCopies (hit : BitVec 14 → Nat → Bool) (l : Tbl Copy) : Tbl Copy :=
  l.map fun p => (p.1, if hit p.2.asid p.2.queued then { p.2 with queued := 0 } else p.2)
def passLcopies (hit : BitVec 14 → Nat → Bool) (l : Tbl LaneCopy) : Tbl LaneCopy :=
  l.map fun p => (p.1, if hit p.2.asid p.2.queued then { p.2 with queued := 0 } else p.2)

/-- The same of a stream: its head, and the subscriptions that are read for again. -/
def Stream.passEntry (hit : BitVec 14 → Nat → Bool) (t : Stream) : Stream :=
  { t with pub := t.pub.map fun c => if hit c.asid c.queued then { c with queued := 0 } else c,
           subs := t.subs.map fun u => if t.pub.any fun c => hit c.asid u.queued then { u with queued := 0 } else u }

/-- The same in a saved team: its copies and scribes wait on. -/
def Team.passEntry (hit : BitVec 14 → Nat → Bool) (v : Nat) (t : Team) : Team :=
  { t with savedCopies := passCopies hit t.savedCopies, savedLcopies := passLcopies hit t.savedLcopies,
           savedScribes := t.savedScribes.map fun c => if hit c.at_.asid c.run.waitEntry then c.passEntry v else c }

/-- Everything that a test picks, of what waits on an entry below v, goes on. -/
def State.releaseIf (s : State) (hit : BitVec 14 → Nat → Bool) (v : Nat) : State :=
  let s1 : State := { s with
    copies := passCopies hit s.copies, lcopies := passLcopies hit s.lcopies,
    streams := s.streams.map fun p => (p.1, p.2.passEntry hit),
    colls := s.colls.map fun p => (p.1, if hit p.2.asid p.2.queued then { p.2 with queued := 0 } else p.2),
    queues := s.queues.map fun p => (p.1, if hit p.2.asid p.2.parked then { p.2 with parked := 0 } else p.2),
    teams := s.teams.map fun p => (p.1, p.2.passEntry hit v) }
  let s2 := s1.mapScribes fun c => if hit c.at_.asid c.run.waitEntry then c.passEntry v else c
  (s2.reissueAll fun c q => hit c.at_.asid q.2.queued && !s2.lined c q).retryColls

/-- Everything of a context that waits on an entry below v goes on. -/
def State.release_ (s : State) (asid : BitVec 14) (v : Nat) : State :=
  State.releaseIf { s with faulted := s.faulted.filter fun f => !(f.asid = asid && f.entry < v) } (fun id queued => id = asid && passed v queued) v

/-- R343: what waited for room in a fault queue may have waited for its memory: it tries again when a layer serves. -/
def State.releaseFull (s : State) : State := s.releaseIf (fun _ queued => noEntry ≤ queued) 0

/-- R410: the host writes CCNT; its write waits at a tripped layer (R343). -/
def execCcntAdvance (asid : Nat) (v : BitVec 64) (s : State) : Host.Outcome State Fault Refusal :=
  match find s.ctxs asid with
  | none => .refused .notEnabled
  | some c =>
    let q := c.faultQ
    event (!s.farHeld (dispatcher c.asid) c.asid q.space (q.base + 128) 64) (fun t =>
      (t.engineWrite (dispatcher c.asid) c.asid q.space (q.base + 128) 64 v.toNat).release_ c.asid v.toNat) s

end Sys2Proof.Machine
end

