-- ==== Sys2Proof/Machine/Save.lean ====
section
/-! DEFINITION. Teams that leave their cores and come back: pre-emption and restore (R334, R335, R162, R230, R255, R396),
the watchdog (R336), and rollback (R349). -/

namespace Sys2Proof.Machine

open Sys2Proof

/-! ## Saving (R334) -/

def cPREEMPT : Nat := 0x20
def cWATCHDOG : Nat := 0x25

/-- R162: a scalar tag that is waited for: pending, and its access not in the fault queue. -/
def State.saveWaits (s : State) (c : Scribe) : Bool :=
  c.wet.tags.any fun t => t.2.scalar && t.2.fault.isNone && (t.2.queued = 0 || s.lined c t)

/-- The save area of a context. -/
def State.saveArea (s : State) (asid : BitVec 14) : Cap :=
  match find s.ctxs asid.toNat with
  | some c => c.save
  | none => emptyCap

/-- Whether a team's scribes stand at precise points and may be saved: none that the host holds in place (R378), and through a
capability that passes the checks of R61 (the model's choice, log 146) and whose memory serves the save (R343). -/
def State.savable (s : State) (t : Team) : Bool :=
  let area := s.saveArea t.asid
  !t.saved && !t.failing && capServes area area.base (area.top - area.base) && !s.farHeld { asid := t.asid } t.asid area.space area.base (area.top - area.base)
    && (s.teamScribes t.id).all fun c => c.ctl.xim.isNone && c.run.life ≠ .debugHeld && !s.saveWaits c

/-- A scribe as it is saved: a scroll under way is written into SCS with CAUSE 1 (R255); watches are not saved (R272). -/
def Scribe.saved (c : Scribe) (cause : Nat) : Scribe :=
  let ctl := match c.run.jobs with
    | j :: _ => if j.fill then c.ctl else { c.ctl with scs := j.scs 1 }
    | [] => c.ctl
  { c with
    ctl := ctl,
    run := { c.run with life := if c.run.life = .running then .saved else c.run.life,
                        stopCause := if c.run.life = .running then cause else c.run.stopCause,
                        park := none, watch := none, ready := 0, urgent := false } }

/-- The subscriptions of the scribes of a team wait for it, and come back. -/
def Stream.setAside (t : Stream) (mine : BitVec 14 → Bool) (team : BitVec 14) : Stream :=
  { t with subs := t.subs.map fun u => if u.saved.isNone && mine u.sid then { u with saved := some team } else u }
def Stream.bringBack (t : Stream) (team : BitVec 14) : Stream :=
  { t with subs := t.subs.map fun u => if u.saved = some team then { u with saved := none } else u }

/-- R189: the identifier of context save and restore for the lines of a scribe. -/
def moverId (id : BitVec 14) : BitVec 14 := engineId 5 (id.toNat % 64 + Config.saveQuill id.toNat % 4 * 64)

/-- R334: quills hold the lines of a scribe's place while they are saved or restored. -/
def State.moveLines (s : State) (p : Place) : List Nat → State
  | [] => s
  | l :: ls => (s.setLine l { s.line l with st := .engine, owner := moverId p.id, holder := p.id, landShared := false, packet := false }).moveLines p ls

def State.moveTeam (s : State) (t : Team) : State := (t.places.filter fun p => !p.shadow).foldl (fun s p => s.moveLines p (p.allLines s)) s

/-- R334: quills write the save area, whose layout is the part's own. -/
def State.writeSave (s : State) (asid : BitVec 14) : State :=
  let c := s.saveArea asid
  let n := s.freeCount
  ({ s with freeCount := n + 1 } : State).engineWrite { asid := asid } asid c.space c.base (c.top - c.base) (Config.saveImage n % 2 ^ (c.top - c.base))

/-- Save a team: its scribes leave their contexts, and quills hold its lines until the shares are free. -/
def State.saveTeam (s : State) (t : Team) (cause : Nat) (held : Bool) : State :=
  let cs := s.teamScribes t.id
  let mine := fun (sid : BitVec 14) => cs.any fun c => c.at_.id = sid
  let ls := t.allLines s
  let t1 : Team := { t with
    saved := true, moving := 1, held := held, savedScribes := cs.map fun c => c.saved cause,
    savedLines := ls.map fun l => (l, (s.lineBits l, s.line l)),
    savedBars := s.bars.filter fun b => b.2.team = t.id,
    savedLoops := s.loops.filter fun p => mine p.2.sid,
    savedCopies := s.copies.filter fun p => p.2.team = t.id && p.2.queue.isNone && p.2.coll.isNone,
    savedLcopies := s.lcopies.filter fun p => p.2.team = t.id }
  let s1 := cs.foldl (fun s c => s.dropScribe c.at_.id) s
  let s2 : State := { s1 with
    teams := set s1.teams t.id.toNat t1,
    bars := s1.bars.filter fun b => b.2.team ≠ t.id,
    loops := s1.loops.filter fun p => !mine p.2.sid,
    copies := s1.copies.filter fun p => !(p.2.team = t.id && p.2.queue.isNone && p.2.coll.isNone),
    lcopies := s1.lcopies.filter fun p => p.2.team ≠ t.id,
    streams := s1.streams.map fun p => (p.1, p.2.setAside mine t.id),
    faulted := s1.faulted.filter fun f => !(f.source = 0 && cs.any fun c => c.at_.id.toNat = f.agent) }
  (s2.moveTeam t).writeSave t.asid

/-- A team has been saved: its shares are free. -/
def State.savedOut (s : State) (t : Team) : State := (s.setTeam { t with moving := 0 }).freeLines (t.allLines s)

/-- R326: the teams that are saved and restored together: all of a persistent launch, else one. -/
def State.together (s : State) (t : Team) : List Team :=
  match find s.launches t.launch with
  | some l => if l.persist then (s.teams.filter fun p => p.2.launch = t.launch).map (·.2) else [t]
  | none => [t]

def State.saveAll (s : State) (ts : List Team) (cause : Nat) (held : Bool) : State := ts.foldl (fun s t => s.saveTeam t cause held) s

/-- A team stops and is saved; then its shares become free. One that the watchdog has stopped stays held (R336). -/
def execPreemption (team : Nat) (s : State) : Host.Outcome State Fault Refusal :=
  match find s.teams team with
  | none => .refused .notEnabled
  | some t =>
    if t.moving = 1 then .next (s.savedOut t)
    else event ((s.together t).all s.savable) (fun u => u.saveAll (u.together t) (if t.held then cWATCHDOG else cPREEMPT) t.held) s

/-! ## Restoring (R335) -/

/-- Whether the contexts, registers and tiles of a team's scribes are free. -/
def State.contextsFree (s : State) (ps : List Place) (team : BitVec 14) : Bool :=
  let others := s.occ.regs.filter fun q => q.team ≠ team
  ps.all fun p => others.all fun q =>
    q.id ≠ p.id && !(p.meets q && (overlap p.vBase p.vBlock q.vBase q.vBlock || overlap p.zBase p.zBlock q.zBase q.zBlock))

/-- Whether the lines of its places are free. -/
def State.linesFree (s : State) (ps : List Place) : Bool :=
  ps.all fun p => p.shadow || s.occ.lines.all fun q => !(p.meets q && overlap p.firstLine (p.lines + p.undo) q.firstLine (q.lines + q.undo))

/-- R261: whether the barrier units have room for a list of records beside those of teams that have none in it. -/
def State.barRoom (s : State) (l : Tbl BarrierRec) : Bool :=
  let others := s.barRecords.filter fun b => l.all fun q => b.2.team ≠ q.2.team
  l.all fun b => ((others ++ l).filter fun q => barCore q.1 = barCore b.1).length ≤ 64

def State.restorable (s : State) (t : Team) : Bool :=
  let ps := t.savedScribes.map (·.at_)
  t.saved && t.moving = 0 && !t.held && s.barRoom ((s.together t).flatMap (·.savedBars)) && s.contextsFree ps t.id && s.linesFree (t.places.filter fun p => !p.shadow) && s.asleep ps = []

/-- R255: the rest of a scroll that was stopped, as SCROLL.RESUME would start it. -/
def PlaneJob.resumed (j : PlaneJob) : PlaneJob :=
  { j with dx := j.dx - j.dxd, dy := j.dy - j.dyd, dxd := 0, dyd := 0, dx0 := j.dx0 + j.dxd, dy0 := j.dy0 + j.dyd }

/-- A scribe as it comes back. -/
def Scribe.restored (c : Scribe) (now : Nat) : Scribe :=
  let (ctl, jobs) := match c.run.jobs with
    | j :: js => if j.fill then (c.ctl, c.run.jobs) else ({ c.ctl with scs := word (c.ctl.scs.toNat % 2 ^ 63) }, j.resumed :: js)
    | [] => (c.ctl, [])
  { c with ctl := ctl, run := { c.run with life := if c.run.life = .saved then .running else c.run.life, stamp := now, jobs := jobs } }

/-- Put saved or undo lines back. -/
def State.putBack (s : State) : List (Nat × (BitVec 512 × LineMeta)) → State
  | [] => s
  | (l, v, m) :: rest => (({ s with plane := writeBits s.plane (512 * l) 512 v.toNat } : State).setLine l m).putBack rest

/-- Bring a saved team back. Its wet tags come back with it, whatever number the core's other scribes hold (the model's choice, log 138). -/
def State.restoreTeam (s : State) (t : Team) : State :=
  let cs := t.savedScribes.map fun c => c.restored (look {} s.islands (islandOf c.at_.id)).issues
  let t1 : Team := { t with saved := false, moving := 0, savedScribes := [], savedLines := [], savedBars := [], savedLoops := [], savedCopies := [], savedLcopies := [] }
  let s0 := if s.allScribes.any fun c => c.at_.asid = t.asid then s else s.progress t.asid
  let s1 : State := { s0 with
    teams := set s0.teams t.id.toNat t1,
    others := cs.foldl (fun o c => set o c.at_.id.toNat c) s0.others,
    bars := t.savedBars.foldl (fun b p => set b p.1 p.2) s0.bars,
    loops := t.savedLoops.foldl (fun l p => set l p.1 p.2) s0.loops,
    copies := t.savedCopies.foldl (fun l p => set l p.1 p.2) s0.copies,
    lcopies := t.savedLcopies.foldl (fun l p => set l p.1 p.2) s0.lcopies,
    streams := s0.streams.map fun p => (p.1, p.2.bringBack t.id) }
  ((s1.putBack t.savedLines).payAll.markIslands (cs.map (·.at_))).reissueAll fun c _ => cs.any fun d => d.at_.id = c.at_.id

/-- Whether a capability may replace a scribe's spill area: one over a larger area of the same space (R179), sound as R56 has it, and with no
permission more (R64). -/
def enlarges (old : Cap) (b : BitVec 128) : Bool :=
  let c : Cap := ⟨true, b⟩
  c.sound && old.tag && old.has c.perm && c.space = old.space && c.base ≤ old.base && old.top ≤ c.top

/-- R179: the areas that replace c14 of the scribes of a saved team. -/
def Team.respill (t : Team) (spills : List (Nat × BitVec 128)) : Team :=
  { t with savedScribes := t.savedScribes.map fun c => match find spills c.at_.id.toNat with
      | some b => { c with r := { c.r with c := put emptyCap c.r.c 14 ⟨true, b⟩, pcap := put false c.r.pcap 14 false } }
      | none => c }

/-- Every replacement names a scribe of the team and enlarges its area. -/
def Team.mayRespill (t : Team) (spills : List (Nat × BitVec 128)) : Bool :=
  spills.all fun p => t.savedScribes.any fun c => c.at_.id.toNat = p.1 && enlarges (c.getC 14) p.2

/-- Quills begin to bring a team back: its shares are taken. -/
def State.moveBack (s : State) (t : Team) : State := (s.setTeam { t with moving := 2 }).moveTeam t

/-- A saved team comes back, under its own ASID and with spill areas that the system has enlarged (R179); under another it fails with
KILLED (R334). First its shares are taken, then its scribes run on. -/
def execContextRestore (r : Restore) (s : State) : Host.Outcome State Fault Refusal :=
  match find s.teams r.team with
  | none => .refused .notEnabled
  | some t =>
    if t.moving = 2 then .next (s.restoreTeam t)
    else if t.asid.toNat ≠ r.asid then event (t.saved && t.moving = 0) (fun u => u.killTeam t) s
    else event ((s.together t).all s.restorable && t.mayRespill r.spills)
      (fun u => (u.together (t.respill r.spills)).foldl (fun u v => u.moveBack (if v.id = t.id then t.respill r.spills else v)) u) s

/-! ## The watchdog (R336) -/

/-- The period of a context's watchdog, in ns; 0 turns it off. -/
def State.wdogNs (s : State) (asid : Nat) : Nat :=
  match find s.ctxs asid with
  | some c => c.wdog.toNat * 1000
  | none => 0

/-- Report a launch whose teams the watchdog holds: its entry carries STATUS 5, once; each time the host has a notice, and the queue
stops. -/
def State.reportHeld (s : State) (n : Nat) : State :=
  match find s.launches n with
  | none => s
  | some l =>
    let s1 : State := if l.reported then s else
      let t := s.writeEntry l.queue (pCorr l.packet) (pSeq l.packet) 5
      { t with launches := set t.launches n { l with status := 5, reported := true } }
    (s1.notice 4 l.asid.toNat l.queue).stopQueue l.queue 3

/-- The teams of a context. -/
def State.teamsOf (s : State) (asid : BitVec 14) : List Team := (s.teams.filter fun t => t.2.asid = asid).map (·.2)

/-- The watchdog holds every team of a context. -/
def State.holdTeams (s : State) (asid : BitVec 14) : State :=
  { s with teams := s.teams.map fun p => (p.1, if p.2.asid = asid then { p.2 with held := true } else p.2) }

/-- The watchdog fires when a period has passed without progress: every team of the context stops, its launches are reported, and the teams
are saved, one that does not stand where it may be saved as soon as it does. -/
def execWatchdog (asid : Nat) (s : State) : Host.Outcome State Fault Refusal :=
  let id : BitVec 14 := BitVec.ofNat 14 asid
  let here := s.teamsOf id
  event (s.wdogNs asid ≠ 0 && here.any (fun t => !t.saved && !t.held) && look 0 s.lastProgress id.toNat + s.wdogNs asid ≤ s.time)
    (fun u =>
      let u1 := ((here.filter fun t => !t.held).map (·.launch)).eraseDups.foldl State.reportHeld (u.holdTeams id)
      (u1.saveAll (here.filter fun t => (s.together t).all s.savable) cWATCHDOG true).progress id) s

/-! ## Rollback (R349) -/

/-- A team that cannot roll back is killed. -/
def Team.doomed (t : Team) : Bool := t.interval ≠ .rollbackable || 2 ≤ t.rollbacks

/-- Cancel the copies of a team at their line requests, without records. -/
def State.cancelQuiet (s : State) : List Nat → State
  | [] => s
  | k :: ks => (match find s.copies k with
    | some c => if c.ended then { s with copies := del s.copies k } else s.stopCopy k { c with ring := none } 4 0 0
    | none => s).cancelQuiet ks

/-- Reload a team's scribes from the image; causes that a scribe has pending stay, with what their entry reports (R364). -/
def State.reload (s : State) (t : Team) : State :=
  let cs := t.image.map fun c =>
    let run : Run := match s.scribe c.at_.id with
      | some d => if d.at_.team = t.id then { c.run with pending := d.run.pending, errorInfo := d.run.errorInfo, riskInfo := d.run.riskInfo }
        else { c.run with pending := [] }
      | none => { c.run with pending := [] }
    { c with run := { run with stamp := (look {} s.islands (islandOf c.at_.id)).issues } }
  let s1 := (s.teamScribes t.id).foldl (fun s c => s.dropScribe c.at_.id) s
  let s2 : State := { s1 with others := cs.foldl (fun o c => set o c.at_.id.toNat c) s1.others,
                              bars := t.imageBars.foldl (fun b p => set b p.1 p.2) s1.bars }
  s2.markIslands (cs.map (·.at_))

/-- Roll a team back to its checkpoint. -/
def State.rollBack (s : State) (t : Team) : State :=
  let mine := fun (sid : BitVec 14) => t.scribes.contains sid
  let s1 : State := { s with
    loops := s.loops.filter fun p => !mine p.2.sid,
    bars := s.bars.filter fun b => b.2.team ≠ t.id,
    lcopies := s.lcopies.filter fun p => p.2.team ≠ t.id,
    faulted := s.faulted.filter fun f => !(f.source = 0 && t.scribes.any fun i => i.toNat = f.agent) }
  let s2 := s1.cancelQuiet ((s1.copies.filter fun p => p.2.team = t.id && p.2.queue.isNone && p.2.coll.isNone).map (·.1))
  let s3 := (s2.putBack (match s2.team t.id with
    | some u => u.undo
    | none => t.undo)).reload t
  let s4 := s3.setTeam { t with undo := [], rollbacks := t.rollbacks + 1, failing := false }
  s4.trace t.asid (t.cores.headD 0 / 64 * 16 + t.cores.headD 0 % 64 / 4) 0x0B 0 (s4.corrOf t.launch) 1

def execRollback (team : Nat) (s : State) : Host.Outcome State Fault Refusal :=
  match find s.teams team with
  | none => .refused .notEnabled
  | some t => event (t.failing && (t.doomed || (s.contextsFree (t.image.map (·.at_)) t.id && s.barRoom t.imageBars))) (fun u => if t.doomed then u.killTeam t else u.rollBack t) s

end Sys2Proof.Machine
end

