-- ==== Sys2Proof/Machine/Power.lean ====
section
/-! DEFINITION. Islands, clocks and permits (R352, R353, R356, R361), the decisions of Ductus (R357 to R360, R362, R363),
temperature and refresh (R343), retention (R345) and the coolant (R371). -/

namespace Sys2Proof.Machine

open Sys2Proof

def State.isl (s : State) (key : Nat) : Island := look {} s.islands key
def State.setIsl (s : State) (key : Nat) (i : Island) : State := { s with islands := put {} s.islands key i }

/-- The scribes resident in an island. -/
def State.islanders (s : State) (key : Nat) : List Scribe := s.allScribes.filter fun c => islandOf c.at_.id = key && !c.at_.shadow

/-! ## Island cycles (R356, R361) -/

/-- R358: a park on the memory permit, or on a memory access: one that blocks, a wet operand or a landing line. -/
def onMemory : Park → Bool
  | .memPermit => true
  | .trippedLayer => true
  | .faultQueue => true
  | .queuedAccess => true
  | .wetOperand => true
  | .landing => true
  | .wakingLoad => true
  | _ => false

/-- R358: whether a scribe is parked on the memory permit or on a memory access. -/
def Scribe.starved (c : Scribe) : Bool := c.run.park.any onMemory

/-- R356: one cycle of work of an open step. A shadow counts as its leader does (R350). -/
def Scribe.workCycle (c : Scribe) : Scribe :=
  if c.at_.shadow = false ∧ c.ctl.stepOpen ∧ c.run.life = .running ∧ c.run.park.all atScoreboard then { c with ctl := { c.ctl with done := c.ctl.done + 1 } } else c

/-- One cycle of an island whose clock runs. -/
def State.cycle (s : State) (key : Nat) : State :=
  let cs := s.islanders key
  let i := s.isl key
  let i1 := i.refill 1
  let i2 := if cs = [] then i1 else { i1 with cycles := i.cycles + 1, stalled := if cs.all Scribe.starved then i.stalled + 1 else i.stalled }
  (s.setIsl key i2).mapScribes fun c => if islandOf c.at_.id = key then c.workCycle else c

/-- R352: the voltage of an island, in tenths of a millivolt. -/
def voltage (clock : Nat) : Nat := 4200 + (clock - 4) * 275

/-- A cycle that an island has run is taken. -/
def State.takeCycle (s : State) (key : Nat) : State :=
  let i := (s.isl key).clockTo s.time
  s.setIsl key { i with phase := i.phase - 64 }

def execIslandCycle (isl : Nat) (s : State) : Host.Outcome State Fault Refusal :=
  event (isl < 1024 && !(s.isl isl).retention && 64 ≤ (s.isl isl).due s.time) (fun t => (t.takeCycle isl).cycle isl) s

/-- R352: a raised clock comes into force. -/
def execClockRaise (isl : Nat) (s : State) : Host.Outcome State Fault Refusal :=
  let i := s.isl isl
  match i.raising with
  | some k => .next (s.setIsl isl { i.clockTo s.time with clock := k, raising := none })
  | none => .refused .notEnabled

/-! ## What an open step needs (R358) -/

/-- DEADLINE − TIME − G. -/
def Scribe.avail (c : Scribe) (time : Nat) : Int := c.ctl.toDeadline time - 10000

/-- The clock step that an open step needs, and whether it is at risk. -/
def Scribe.need (c : Scribe) (time : Nat) : Nat × Bool :=
  let r := c.ctl.left
  let avail := c.avail time
  if r = 0 then (16, false)
  else if avail ≤ 0 ∨ 5 * avail < 4 * (r : Int) then (16, true)
  else (max 4 ((64 * r + 5 * avail.toNat - 1) / (5 * avail.toNat)), false)

/-- R360: raise DEADLINE_RISK, once per step. -/
def State.risk (s : State) (id : BitVec 14) : State :=
  match s.scribe id with
  | none => s
  | some c => if c.ctl.risked then s else (s.raise id 0x21).asScribe id fun t => t.onCtl fun k => { k with risked := true }

/-! ## The cap (R359) -/

/-- What a decision sets an island to: the clock of R358 and the clock after the cap, and the refills. -/
structure Plan where
  key : Nat
  want : Nat
  clock : Nat
  m : Nat := 16
  v : Nat := 16
  f : Nat := 4
  hasStep : Bool
  /-- the least SLACKNS of its open steps -/
  slack : Int
  used : Nat
  deriving DecidableEq, Repr

/-- The open steps of an island. -/
def State.steps (s : State) (key : Nat) : List Scribe := (s.islanders key).filter fun c => c.ctl.stepOpen

def State.plan (s : State) (key : Nat) : Plan :=
  let i := s.isl key
  let cs := s.steps key
  let k := if cs ≠ [] then cs.foldl (fun k c => max k (c.need s.time).1) 4 else if i.cycles < 2 * i.stalled then 4 else 16
  let slacks := cs.map fun c => signed 32 (c.ctl.slack s.time)
  { key := key, want := k, clock := k, hasStep := cs ≠ [], slack := slacks.foldl min (slacks.headD 0), used := i.used }

def predict (die : Nat) (ps : List Plan) : Nat :=
  Config.predictedPower die (ps.map (·.clock)) (ps.map fun p => voltage p.clock) (ps.flatMap fun p => [p.m, p.v, p.f]) (ps.map (·.used))

/-- Apply a measure up to n times, while the die is over its cap. -/
def measure (above : List Plan → Bool) (f : List Plan → List Plan) : Nat → List Plan → List Plan
  | 0, ps => ps
  | n + 1, ps => if above ps then measure above f n (f ps) else ps

def Plan.lower (p : Plan) : Plan := { p with clock := max 4 (p.clock - 1) }

/-- The keys of islands with open steps, the largest least SLACKNS first. -/
def insertPlan (p : Plan) : List Plan → List Plan
  | [] => [p]
  | q :: qs => if q.slack < p.slack then p :: q :: qs else q :: insertPlan p qs
def bySlack (ps : List Plan) : List Nat := ((ps.filter fun p => p.hasStep).foldl (fun l p => insertPlan p l) []).map (·.key)

/-- Lower the listed islands in turn, one step each, while the die is over its cap. -/
def lowerEach (above : List Plan → Bool) : List Nat → List Plan → List Plan
  | [], ps => ps
  | k :: ks, ps => if above ps then lowerEach above ks (ps.map fun p => if p.key = k then p.lower else p) else ps

/-- R359, the measures in order. -/
def capped (above : List Plan → Bool) (ps : List Plan) : List Plan :=
  let a := measure above (fun l => l.map fun p => if p.hasStep then p else p.lower) 12 ps
  let b := measure above (fun l => l.map fun p => { p with m := max 1 (p.m / 2) }) 4 a
  let c := measure above (fun l => l.map fun p => { p with v := max 1 (p.v / 2), f := max 1 (p.f / 2) }) 4 b
  measure above (lowerEach above (bySlack ps)) 12 c

/-- The cap of every die: 850 W, or 600 W while the coolant is hot (R371). -/
def State.capW (s : State) : Nat := if s.mgmt.coolantHot then 600 else 850

def State.tripDie (s : State) (die : Nat) : Bool := let d : Die := look {} s.dies die; d.trip0 || d.trip1

/-! ## The decision -/

/-- R362: the upper half of a context's event word for a throttled island. -/
def Plan.eventHi (p : Plan) : Nat := p.clock % 16 * 2 ^ 12 + p.key % 4 * 2 ^ 16 + p.key / 4 % 64 * 2 ^ 18 + p.key / 256 % 4 * 2 ^ 24

/-- The event word of a context counts a throttle. One that a layer holds back (R343), or that comes after such a one, waits, in line at the
layer; so does one whose word gives no good count (R344). A queue that its capability does not serve keeps no count (log 146). -/
def State.eventWord (s : State) (asid : BitVec 14) (hi : Nat) : State :=
  match find s.ctxs asid.toNat with
  | none => s
  | some c =>
    let q := c.faultQ
    let who : Who := { dispatcher asid with place := placeOf .event asid.toNat }
    let owing : State := { s with eventsOwed := s.eventsOwed ++ [(asid, hi)] }
    if capServes q q.base 64 = false then s
    else if s.eventsOwed.any (fun e => e.1 = asid) then owing
    else match s.farLayer who asid q.space q.base 64 with
      | some ly => (owing.standBy who (some ly)).getD owing
      | none =>
        let s0 := s.leaveLine who
        if s0.engineBlind who asid q.space q.base 32 then { s0 with eventsOwed := s0.eventsOwed ++ [(asid, hi)] }
        else
          let n := (s0.engineRead who asid q.space q.base 32 + 1) % 2 ^ 32
          let s1 := (s0.engineSeen who asid q.space q.base 32).engineWrite who asid q.space q.base 32 n
          (s1.engineWrite who asid q.space (q.base + 32) 32 hi).notice 1 asid.toNat n

/-- The event words that waited are written, in order, once their layers serve. -/
def State.payEvents (s : State) : State :=
  if s.eventsOwed = [] then s else s.eventsOwed.foldl (fun s e => s.eventWord e.1 e.2) { s with eventsOwed := [] }

/-- Tell those concerned that an island is throttled. -/
def State.throttle (s : State) (p : Plan) : State :=
  let cs := s.islanders p.key
  let s1 := (cs.map fun c => c.at_.asid).eraseDups.foldl (fun s a => s.eventWord a p.eventHi) s
  (cs.filter fun c => c.ctl.stepOpen).foldl (fun s c => s.raise c.at_.id 0x22) s1

def Plan.throttled (p : Plan) : Bool := p.clock < p.want || p.m < 16 || p.v < 16 || p.f < 4

/-- Set an island as planned, and begin its next interval. -/
def State.apply (s : State) (p : Plan) : State :=
  let i0 := s.isl p.key
  let i := if i0.resident && !i0.retention then i0.clockTo s.time else i0.catchUp s.time
  let here := s.islanders p.key ≠ []
  s.setIsl p.key { i with
    clock := min i.clock p.clock, raising := if i.clock < p.clock then some p.clock else none, raiseBy := s.time + 2000,
    refillM := p.m, refillV := p.v, refillS := p.f, used := 0, cycles := 0, stalled := 0, idle := !i.resident, resident := here }

/-- The steps that the capped clock can no longer serve. -/
def State.riskCapped (s : State) (p : Plan) : State :=
  if p.clock < p.want then
    (s.steps p.key).foldl (fun s c => if 5 * (p.clock : Int) * c.avail s.time < 64 * (c.ctl.left : Int) then s.risk c.at_.id else s) s
  else s

/-- R357, R363: what the die's registers and Reservoirs show after a decision. -/
def State.renew (s : State) (die power : Nat) : State :=
  let d : Die := look {} s.dies die
  let t0 := Config.layerMargin die 0 s.time
  let t1 := Config.layerMargin die 1 s.time
  let hot := (t0.toInt ≤ 0 : Bool).toNat + 2 * (t1.toInt ≤ 0 : Bool).toNat
  let gain := if hot = 0 then 531 else 265
  let d1 : Die := { d with pwr := 850 - power, temp := if t0.toInt ≤ t1.toInt then t0 else t1, trip := d.trip0 || d.trip1, hotBits := BitVec.ofNat 2 hot }
  { s with dies := put {} s.dies die d1,
           clusters := (List.range 16).foldl (fun t k =>
             let c : Cluster := look {} t (16 * die + k)
             put {} t (16 * die + k) { c with level := min 53100 (c.level + gain) }) s.clusters }

/-- A decision for one die. -/
def State.decideDie (s : State) (die : Nat) : State :=
  let keys := (List.range 256).map (· + 256 * die)
  let ps := keys.map s.plan
  let past := keys.map s.isl
  let power := Config.predictedPower die (past.map (·.clock)) (past.map fun i => voltage i.clock) (past.flatMap fun i => [i.refillM, i.refillV, i.refillS]) (past.map (·.used))
  let above := fun (l : List Plan) => s.tripDie die || s.capW < predict die l
  let s1 := ps.foldl (fun s p => (s.steps p.key).foldl (fun s c => if (c.need s.time).2 then s.risk c.at_.id else s) s) s
  let qs := capped above ps
  let s2 := (qs.foldl State.apply s1).renew die power
  let s3 := qs.foldl State.riskCapped s2
  (qs.filter Plan.throttled).foldl State.throttle s3

/-- R358: a decision, at the multiples of 10,000 ns. -/
def execDuctusDecision (s : State) : Host.Outcome State Fault Refusal :=
  event (s.lastDecision + 10000 ≤ s.time)
    (fun t =>
      let u := (List.range 4).foldl State.decideDie t
      { u with lastDecision := t.lastDecision + 10000, mgmt := { u.mgmt with outlet := (Config.coldPlate 1 t.time).toNat } }) s

/-! ## Temperature (R343, R371) -/

def Die.setHot (d : Die) (layer : Nat) (v : Bool) : Die := if layer = 0 then { d with hot0 := v } else { d with hot1 := v }
def Die.setTrip (d : Die) (layer : Nat) (v : Bool) : Die := if layer = 0 then { d with trip0 := v } else { d with trip1 := v }
def Die.isHot (d : Die) (layer : Nat) : Bool := if layer = 0 then d.hot0 else d.hot1
def Die.isTripped (d : Die) (layer : Nat) : Bool := if layer = 0 then d.trip0 else d.trip1

def State.die (s : State) (n : Nat) : Die := look {} s.dies n
def State.setDie (s : State) (n : Nat) (d : Die) : State := { s with dies := put {} s.dies n d }

/-- A record of a layer's own. -/
def State.layerRec (s : State) (die layer kind : Nat) : State := s.log (arrayLog die layer) 0 kind 0 0 0 layer 0

/-- At or above 85 °C, refresh doubles. -/
def execRefreshDoubled (die : Nat) (r : LayerReading) (s : State) : Host.Outcome State Fault Refusal :=
  event (die < 4 && r.layer < 2 && r.margin.toInt ≤ 0 && !(s.die die).isHot r.layer)
    (fun t => (t.setDie die ((t.die die).setHot r.layer true)).layerRec die r.layer 7) s

/-- Below 82 °C it is normal again. -/
def execRefreshNormal (die : Nat) (r : LayerReading) (s : State) : Host.Outcome State Fault Refusal :=
  event (die < 4 && r.layer < 2 && 30 < r.margin.toInt && (s.die die).isHot r.layer)
    (fun t => (t.setDie die ((t.die die).setHot r.layer false)).layerRec die r.layer 8) s

/-- At 95 °C the layer trips. -/
def execLayerTripped (die : Nat) (r : LayerReading) (s : State) : Host.Outcome State Fault Refusal :=
  event (die < 4 && r.layer < 2 && r.margin.toInt ≤ -100 && !(s.die die).isTripped r.layer)
    (fun t => (t.setDie die ((t.die die).setTrip r.layer true)).layerRec die r.layer 9) s

/-- The accesses of tags that wait at a layer are served in the order they arrived, as far as no scribe's word and no engine stands before them. -/
def State.serveLine (s : State) (die layer : Nat) : State :=
  ((s.die die).waiters.filter fun k => k.layer = 2 * die + layer).foldl (fun s k =>
    match k.tag with
    | none => s
    | some tag => match s.tagOf k.sid.toNat tag with
      | some (c, t) => if t.fault.isNone && noEntry ≤ t.queued then s.reissue c tag t else s
      | none => s) s

/-- Below 90 °C the layer serves again: the accesses that waited before any that arrives later. -/
def execLayerServesAgain (die : Nat) (r : LayerReading) (s : State) : Host.Outcome State Fault Refusal :=
  event (die < 4 && r.layer < 2 && -50 < r.margin.toInt && (s.die die).isTripped r.layer)
    (fun t => (((t.setDie die ((t.die die).setTrip r.layer false)).serveLine die r.layer).releaseFull)) s

/-- R371: the outlet is at 60 °C or more. The controller reads it with each decision (the model's choice, log 89). -/
def execCoolantHot (s : State) : Host.Outcome State Fault Refusal :=
  event (!s.mgmt.coolantHot && 600 ≤ s.mgmt.outlet) (fun t => ({ t with mgmt := { t.mgmt with coolantHot := true } } : State).notice 2 0 0) s

/-- R371: the outlet has fallen below 55 °C. -/
def execCoolantNormal (s : State) : Host.Outcome State Fault Refusal :=
  event (s.mgmt.coolantHot && s.mgmt.outlet < 550) (fun t => { t with mgmt := { t.mgmt with coolantHot := false } }) s

/-! ## Retention (R353, R345) -/

/-- Whether a loop, scroll, fill or copy holds a line of an island's cells. -/
def State.islandHeld (s : State) (key : Nat) : Bool :=
  let mine := fun (l : Nat) => islandOfLine l = key
  s.lines.any (fun l => mine l.1 && l.2.st = .engine && engineClass l.2.owner ≤ 5 && engineClass l.2.owner ≠ 4)
    || s.copies.any (fun c => c.2.srcLines.any mine) || s.lcopies.any (fun c => c.2.srcLines.any mine)
    || s.streams.any (fun t => t.2.pub.any fun c => c.srcLines.any mine)
    || s.loops.any fun q => (match s.scribe q.2.sid with
      | some c => (lanesOf q.2.lanes).any fun k => (List.range q.2.steps).any fun st =>
          q.2.ran k ≤ st && (q.2.stepLines c.at_ k st).any mine
      | none => false)

/-- R353: whether an island enters retention. -/
def State.mayRetain (s : State) (isl : Nat) : Bool :=
  let i := s.isl isl
  isl < 1024 && !i.retention && i.idle && !i.resident && s.islanders isl = [] && !s.islandHeld isl

def execRetentionEntry (isl : Nat) (s : State) : Host.Outcome State Fault Refusal :=
  event (s.mayRetain isl) (fun t => t.setIsl isl { t.isl isl with retention := true }) s

/-- R345: a line that failed in retention; a register word that did. The words belong to no scribe any more, so no mark outlives the
start values of the next one. -/
def State.failLine (s : State) (die ln : Nat) : State :=
  (s.setLine ln { s.line ln with poison := true }).log (scribeLog die) 0 6 0 0 0 0 (2 * ln)
def State.failReg (s : State) (die w : Nat) : State := s.log (scribeLog die) 0 6 0 0 0 0 w

/-- Islands in retention that a placement waits for (R353). -/
def State.sleepers (s : State) : List Nat :=
  ((List.range 4).flatMap fun d => match s.placeable d with
    | some (_, _, _, _, ps) => s.asleep ps
    | none => [])
  ++ (s.queues.flatMap fun q => match s.handing q.1 with
    | some (n, l) => if l.persist then ((s.wholeGrid n l).getD []).flatMap fun r => s.asleep r.2 else []
    | none => [])
  ++ (s.teams.flatMap fun t => s.asleep (t.2.savedScribes.map (·.at_)))

/-- The plane lines that a visit reads, its block table's among them. -/
def State.visitLines (s : State) (c : Copy) (n : Nat) : List Nat :=
  (c.readsAt (s.baseOf c n) n).flatMap fun r => if r.1 = 1 then linesIn r.2.1 r.2.2 else []

/-- The plane lines that a stream reads next: those of the head's chunk, and of the chunks that it has to read again. -/
def State.streamLines (s : State) (t : Stream) (c : Copy) : List Nat :=
  ((if t.head < t.total then [t.head] else []) ++ (t.subs.filter fun u => u.waits t.head && (t.keptFor u).isNone).map (·.next)).flatMap fun i =>
    ((List.range (chunkVisits c t.kc i).2).map (· + (chunkVisits c t.kc i).1)).flatMap (s.visitLines c)

/-- The plane lines that a copy reads or writes next. -/
def State.nextLines (s : State) (c : Copy) : List Nat :=
  if c.ended then recordLines c.ring else s.visitLines c c.pos

/-- R353: what wakes an island: an access of a scribe that waits for it, an engine's, or a placement. -/
def State.wakeCause (s : State) (key : Nat) : Bool :=
  (s.isl key).wanted || s.copies.any (fun c => (s.nextLines c.2).any fun l => islandOfLine l = key)
    || s.streams.any (fun t => t.2.pub.any fun c => (s.streamLines t.2 c).any fun l => islandOfLine l = key)
    || s.sleepers.contains key

/-- R353: an island begins to wake, and is awake 1 µs later, when its clock runs again. It enters retention again after a control interval
of its own without a scribe. -/
def execRetentionWake (isl : Nat) (s : State) : Host.Outcome State Fault Refusal :=
  let i := s.isl isl
  match i.waking with
  | none => event (i.retention && s.wakeCause isl) (fun t => t.setIsl isl { i with waking := some (t.time + 1000) }) s
  | some due => event (i.retention && due ≤ s.time) (fun t =>
      let awake : Island := { i with retention := false, idle := false, waking := none, wanted := false, bad := [], badRegs := [], phase := 0, since := t.time }
      let t1 := i.bad.foldl (fun s l => s.failLine (isl / 256) l) (t.setIsl isl awake)
      i.badRegs.foldl (fun s w => s.failReg (isl / 256) w) t1) s

end Sys2Proof.Machine
end

