-- ==== Sys2Proof/Machine/Manage.lean ====
section
/-! DEFINITION. The management controller and the host's mailbox (R368 to R374, R378, R236, R327, R342, R351), storage
errors (R340, R341, R345, R177, R190), holes added in the field (R239), and Floesh links (R382 to R385). -/

namespace Sys2Proof.Machine

open Sys2Proof

def State.onMgmt (s : State) (f : Mgmt → Mgmt) : State := { s with mgmt := f s.mgmt }
def State.answers (s : State) (l : List Nat) : State := s.onMgmt fun m => { m with reply := l }

/-! ## Boot (R372, R373) -/

/-- Whether the ROM accepts a manifest slot. -/
def Mgmt.verifies (m : Mgmt) (slot : List Byte) : Bool :=
  Config.edVerifies slot && Config.mlVerifies slot && Config.imagesMatch slot && m.recorded ≤ Config.securityVersion slot

def Mgmt.slot (m : Mgmt) (n : Nat) : List Byte := if n = 0 then m.slot0 else m.slot1

/-- What the boot ROM does: the slot to try first, else the other, else recovery. The straps give the package its number. -/
def Mgmt.bootFrom (m : Mgmt) : Mgmt :=
  let m1 := { m with boots := m.boots + 1, pkg := (Config.strapPackage m.straps).toNat }
  let good := [m.first, 1 - m.first].find? fun n => m.verifies (m.slot n)
  match good, Config.pufSeed m.boots m.helper with
  | some n, some seed => { m1 with boot := .running, active := n, first := n, seed := seed, recorded := max m.recorded (Config.securityVersion (m.slot n)) }
  | _, _ => { m1 with boot := .recovery }

/-- What the package holds through a reset: the flash with its health record, the straps, and the count of boots. -/
def Mgmt.flash (m : Mgmt) : Mgmt :=
  { slot0 := m.slot0, slot1 := m.slot1, first := m.first, recorded := m.recorded, boots := m.boots, disabled := m.disabled,
    helper := m.helper, certificates := m.certificates, straps := m.straps }

/-- The package at a reset (log 127). Retired lane groups and failed channels stay in force (R341). -/
def State.restart (s : State) : State :=
  { mgmt := s.mgmt.flash, channels := s.channels, freeCount := s.freeCount, agenda := s.agenda, arrivals := s.arrivals }

/-- R372, R373, R239: at reset, or at a new one, the ROM runs; the health record names the holes. -/
def execBoot (s : State) : Host.Outcome State Fault Refusal :=
  let t := if s.mgmt.boot = .inReset then s else s.restart
  .next { t with mgmt := t.mgmt.bootFrom, holes := t.mgmt.disabled }

/-! ## The mailbox -/

/-- A mailbox command: taken while the firmware runs, and in recovery when `always`; a command that cannot be taken
is turned away. -/
def mailbox (always ok : Bool) (f : State → State) (s : State) : Host.Outcome State Fault Refusal :=
  if s.mgmt.boot = .inReset then .refused .notEnabled
  else if (s.mgmt.boot = .running || always) && ok then .next (f s)
  else .next (s.onMgmt fun m => { m with refusals := m.refusals + 1 })

def BootState.code : BootState → Nat
  | .inReset => 0
  | .recovery => 1
  | .running => 2

def execStatus (s : State) : Host.Outcome State Fault Refusal := mailbox true true (fun t => t.answers [t.mgmt.boot.code]) s

/-- An update goes to the inactive slot, which the ROM tries first at the next reset. -/
def execFlashwrite (slot : Nat) (data : List (BitVec 8)) (s : State) : Host.Outcome State Fault Refusal :=
  mailbox true (slot < 2 && (s.mgmt.boot ≠ .running || slot ≠ s.mgmt.active))
    (fun t => t.onMgmt fun m => if slot = 0 then { m with slot0 := data, first := 0 } else { m with slot1 := data, first := 1 }) s

/-- R369: a queue of a context. Its rings lie within global memory, whose limit is 2^60 (R47); the mailbox refuses others (the model's choice,
log 148). -/
def execQcreate (q asid prio : Nat) (ring : BitVec 64) (n : Nat) (cring : BitVec 64) (m : Nat) (s : State) : Host.Outcome State Fault Refusal :=
  mailbox false (q < 256 && (find s.queues q).isNone && (find s.ctxs asid).isSome && prio < 4 && 4 ≤ n && n ≤ 16 && 4 ≤ m && m ≤ 16
      && ring.toNat + 1024 * 2 ^ n ≤ 2 ^ 60 && cring.toNat + 128 * 2 ^ m ≤ 2 ^ 60)
    (fun t => t.setQueue q { asid := BitVec.ofNat 14 asid, prio := prio, ring := ring.toNat, ringLog := n, cring := cring.toNat, cringLog := m }) s

/-- R371: the notice ring lies in host memory, at a whole byte (R55) and below the limit of the space (R47); the mailbox refuses others (the
model's choice, log 148). -/
def execNotify (base : BitVec 64) (n : Nat) (s : State) : Host.Outcome State Fault Refusal :=
  mailbox false (n ≠ 0 && base.toNat % 8 = 0 && base.toNat + 128 * n ≤ 2 ^ 64) (fun t => t.onMgmt fun m => { m with notice := some (base, n), notices := 0 }) s

/-! ## Attestation (R374) -/

/-- Both signatures of the responder over a transcript. -/
def Mgmt.signatures (m : Mgmt) (transcript : Nat) : List Nat := [(Config.edSign m.seed transcript).toNat, Config.mlSign m.seed transcript]

def execChallengeAuth (transcript : Nat) (s : State) : Host.Outcome State Fault Refusal :=
  event (s.mgmt.boot = .running) (fun t => t.answers (t.mgmt.signatures transcript)) s

/-- The bytes of the health record. -/
def State.healthBytes (s : State) : List Byte :=
  Config.healthRecord s.mgmt.disabled (s.channels.map fun c => (c.1, c.2.retired, c.2.failed))

/-- The five measurements, by index from 1. -/
def State.measured (s : State) : List Nat :=
  let slot := s.mgmt.slot s.mgmt.active
  [Config.romDigest.toNat, (Config.digest (Config.manifest slot)).toNat, (Config.digest s.healthBytes).toNat, s.mgmt.straps.toNat, Config.securityVersion slot]

def execMeasurements (transcript : Nat) (s : State) : Host.Outcome State Fault Refusal :=
  event (s.mgmt.boot = .running) (fun t => t.answers (t.measured ++ t.mgmt.signatures transcript)) s

/-! ## Debug (R378) -/

/-- Stop a scribe for the host at its next precise point: here, the word it waits at having taken no effect (R161); or after the word a word
XIM stands before, or one that has been counted or has started what it waits for (R252, R346). -/
def State.haltOne (s : State) (id : BitVec 14) : State :=
  s.asScribe id fun t =>
    if t.me.run.life ≠ .running then t
    else if t.me.ctl.xim.isSome ∨ t.me.run.ckWait.isSome ∨ t.me.run.jobs.any (·.halt ≠ 0) then t.onRun fun r => { r with stepOne := true }
    else ((t.onRun Run.keepBroken).calmMe).debugStop

def execHalt (whole : Bool) (id : Nat) (s : State) : Host.Outcome State Fault Refusal :=
  let hit := (s.allScribes.filter fun c => !c.at_.shadow).filter fun c => if whole then c.at_.asid = BitVec.ofNat 14 id else c.at_.id = BitVec.ofNat 14 id
  mailbox false (hit ≠ []) (fun t => hit.foldl (fun t c => t.haltOne c.at_.id) t) s

/-- A scribe that the host holds. -/
def State.heldScribe (s : State) (sid : Nat) : Option Scribe :=
  match s.scribe (BitVec.ofNat 14 sid) with
  | some c => if c.run.life = .debugHeld then some c else none
  | none => none

/-- The value of a held register; a capability's tag is bit 128. -/
def State.regValue (s : State) (c : Scribe) : RegName → Option Nat
  | .g n => if n < 8 then some (look 0 c.r.x n).toNat else none
  | .s n => if 8 ≤ n ∧ n < 32 then some (c.getS n).toNat else none
  | .c n => if n < 16 then let k := c.getC n; some (k.bits.toNat + k.tag.toNat * 2 ^ 128) else none
  | .v n l => if n < c.at_.vregs ∧ l < c.at_.lanes then some (c.getV n l).toNat else none
  | .t n l => if n < 4 ∧ l < c.at_.lanes then some (c.getV (64 + n) l).toNat else none
  | .q n => if n < 8 then some (c.getQ n).toNat else none
  | .e n => if n < 8 then some (look 0 c.r.e n).toNat else none
  | .z z l e => if z < c.at_.tiles ∧ l < c.at_.lanes ∧ e < 64 then some (c.getZ z l e).toNat else none
  | .k n => if n < 64 then some (look 0 c.r.k n).toNat else none
  | .creg n => (s.cregOf c n).map (·.toNat)
  | .pc => some c.ctl.pc.toNat

/-- R35: a write of RNGS starts the lanes that are not on holes again from its value. -/
def Scribe.reseed (c : Scribe) (live v : Word) : Scribe :=
  { c with ctl := { c.ctl with seed := v.setWidth 32 }, r := { c.r with rng := seedLanes (v.setWidth 32) (lanesOf live) c.r.rng } }

/-- A held scribe with a register written; none for a value that the register cannot hold, or a control register that SETC does not write (log
90). A capability is written without a tag (R63). -/
def Scribe.writeReg (c : Scribe) (live : Word) (r : RegName) (v : Nat) : Option Scribe :=
  let ok := fun (b : Bool) (d : Scribe) => if b then some d else none
  match r with
  | .g n => ok (n < 8) (c.setX n (word v))
  | .s n => ok (8 ≤ n && n < 32) (c.setS n (word v))
  | .c n => ok (n < 16) { c with r := { c.r with c := put emptyCap c.r.c n ⟨false, BitVec.ofNat 128 v⟩, pcap := put false c.r.pcap n false } }
  | .v n l => ok (n < c.at_.vregs && l < c.at_.lanes)
      (let d := c.dropV n (word (2 ^ l)); { d with r := d.r.setV n l (BitVec.ofNat 32 v) 0 })
  | .t n l => ok (n < 4 && l < c.at_.lanes)
      (let d := c.dropV (64 + n) (word (2 ^ l)); { d with r := d.r.setV (64 + n) l (BitVec.ofNat 32 v) 0 })
  | .q n => ok (1 ≤ n && n < 8) { c with r := { c.r with q := put 0 c.r.q n (word v) } }
  | .e n => ok (n < 8 && rectOk (word v)) { c with r := { c.r with e := put 0 c.r.e n (word v) } }
  | .z z l e => ok (z < c.at_.tiles && l < c.at_.lanes && e < 64) { c with r := c.r.setZ z l e (BitVec.ofNat 32 v) }
  | .k n => ok (n < 64) { c with r := { c.r with k := put 0 c.r.k n (BitVec.ofNat 32 v) } }
  | .creg n => if n = 3 then ok (v < 2 ^ 32) (c.reseed live (word v)) else if v < 2 ^ 64 then (c.setCreg n (word v)).map fun k => { c with ctl := k } else none
  | .pc => ok (v % 32 = 0 && v < 2 ^ 64) { c with ctl := { c.ctl with pc := word v, remain := 0, xim := none } }

def execRead (sid : Nat) (r : RegName) (s : State) : Host.Outcome State Fault Refusal :=
  match s.heldScribe sid with
  | some c => (match s.regValue c r with
    | some v => mailbox false true (fun t => t.answers [v]) s
    | none => mailbox false false id s)
  | none => mailbox false false id s

def execWrite (sid : Nat) (r : RegName) (v : BitVec 128) (s : State) : Host.Outcome State Fault Refusal :=
  match s.heldScribe sid with
  | some c => (match c.writeReg (s.liveLanes c.at_) r v.toNat with
    | some d => mailbox false true (fun t => t.setScribe d) s
    | none => mailbox false false id s)
  | none => mailbox false false id s

/-- The host lets a held scribe go: for one word, or on. -/
def execStep (sid : Nat) (s : State) : Host.Outcome State Fault Refusal :=
  match s.heldScribe sid with
  | some c => mailbox false true (fun t => t.setScribe { c with run := { c.run with life := .running, stepOne := true, park := none } }) s
  | none => mailbox false false id s

def execResume (sid : Nat) (s : State) : Host.Outcome State Fault Refusal :=
  match s.heldScribe sid with
  | some c => mailbox false true (fun t => t.setScribe { c with run := { c.run with life := .running, stopCause := 0, park := none } }) s
  | none => mailbox false false id s

/-! ## Contexts, quotas, windows -/

/-- R410: the mailbox refuses a record whose fault queue is malformed. -/
def faultQOk (c : Cap) : Bool :=
  c.base % 256 = 0 && ((List.range 13).any fun i => c.top - c.base = 256 * (2 ^ (i + 4) + 1))

/-- The same of a record with a capability that no tagged one can be (R56; log 145). -/
def recordOk (r : CtxRec) : Bool :=
  faultQOk r.faultQ && r.faultQ.sound && r.capRoot.sound && r.save.sound && r.hostRoot.all (·.sound) && r.peerRoot.all (·.sound)

/-- R327. Faults that waited for room may find it in a new queue. -/
def execContextRecordWrite (r : CtxRec) (s : State) : Host.Outcome State Fault Refusal :=
  mailbox false (recordOk r) (fun t => ({ t with ctxs := set t.ctxs r.asid.toNat r } : State).release_ r.asid 0) s

/-- Table 11-2. -/
def quotaOk (v : Nat) : Bool :=
  bits v 28 36 = 0 && bits v 24 4 ≤ 8 && bits v 15 9 ≤ 256 && bits v 5 10 ≤ 512 && bits v 5 10 % 16 = 0 && bits v 0 5 ≤ 16

def execQuotaWrite (core asid : Nat) (v : BitVec 64) (s : State) : Host.Outcome State Fault Refusal :=
  mailbox false (core < 256 && asid < 2 ^ 14 && quotaOk v.toNat) (fun t => { t with quotas := set t.quotas (core * 2 ^ 14 + asid) v }) s

/-- R384: bit addresses lo .. hi - 1 of a context's virtual space. -/
def execWindowBind (asid lo hi : Nat) (s : State) : Host.Outcome State Fault Refusal :=
  mailbox false ((find s.ctxs asid).isSome && lo ≤ hi && hi ≤ 2 ^ 60) (fun t => t.onMgmt fun m => { m with window := some (asid, lo, hi) }) s

/-- R342: how many records a log has lost, and those it holds, the oldest first. -/
def Log.shown (l : Log) : List Nat :=
  let n := min l.count 1024
  l.lost :: (List.range n).map fun i => (look 0 l.ring ((l.count - n + i) % 1024)).toNat

/-- The records of an error log, the health record, or what the cold plate's sensors read (R371). -/
def State.mailRead (s : State) : MailRead → List Nat
  | .errorLog n => (look {} s.logs n).shown
  | .health => s.healthBytes.map (·.toNat)
  | .coldPlate => (List.range 3).map fun k => (Config.coldPlate k s.time).toNat

def mailOk : MailRead → Bool
  | .errorLog n => n < 18
  | .health => true
  | .coldPlate => true

def execLogRead (r : MailRead) (s : State) : Host.Outcome State Fault Refusal := mailbox false (mailOk r) (fun t => t.answers (t.mailRead r)) s

/-- R351: the estimates change from reading to reading. -/
def execAgeingRead (cluster : Nat) (s : State) : Host.Outcome State Fault Refusal :=
  mailbox false (cluster < 64) (fun t => ({ t with freeCount := t.freeCount + 1 } : State).answers [(Config.ageing cluster t.freeCount).toNat]) s

/-! ## Accesses of the host and of other packages (R368, R384) -/

/-- What an access from outside comes to: none while a layer serves no access. -/
def State.outsideGot (s : State) (r : Except Miss Got) (f : Got → Option State) : Option State :=
  match r with
  | .error m => some ((s.walkedTo (dispatcher m.asid) m).answers [])
  | .ok g => if g.waits.isSome then none else f g

/-- Read a context's memory; the reply holds the bits read, and a mark when they are poison. A page that is not there serves
nothing. -/
def State.outsideRead (s : State) (asid : BitVec 14) (v w : Nat) : Option State :=
  s.outsideGot (s.getFarAs (dispatcher asid) none asid 0 v w .load) fun g => some (g.st.answers (g.n :: if g.bad.isSome then [1] else []))

/-- Write it; the reply is `reply`. -/
def State.outsideWrite (s : State) (asid : BitVec 14) (v w x : Nat) (k : AKind) (poison : Bool) (reply : List Nat) : Option State :=
  match s.putFarAs (dispatcher asid) none asid 0 v w (x % 2 ^ w) k poison with
  | .error m => some ((s.walkedTo (dispatcher m.asid) m).answers [])
  | .ok p => if p.waits.isSome then none else some (p.st.answers reply)

def waiting (r : Option State) : Host.Outcome State Fault Refusal :=
  match r with
  | some t => .next t
  | none => .refused .notEnabled

/-- R368: BAR2 takes requests of whole bytes, up to 512 of them, to a context that the host has opened. R369: BAR0 holds the registers of
queue n at bit address `queueBit n`. -/
def execHostWindowAccess (n addr width : Nat) (a : HostAccess) (s : State) : Host.Outcome State Fault Refusal :=
  let may := s.mgmt.opened.contains n && addr % 8 = 0 && width % 8 = 0 && width ≠ 0 && width ≤ 4096 && addr + width ≤ 2 ^ 60
  match a with
  | .read => if may then waiting (s.outsideRead (BitVec.ofNat 14 n) addr width) else .refused .notEnabled
  | .write x => if may then waiting (s.outsideWrite (BitVec.ofNat 14 n) addr width x .store false []) else .refused .notEnabled
  | .openContext => mailbox false (find s.ctxs n).isSome (fun t => t.onMgmt fun m => { m with opened := n :: m.opened.filter (· ≠ n) }) s
  | .queueRegs => (match find s.queues n with
    | some k => event (addr = queueBit n) (fun t => t.answers [k.image.toNat]) s
    | none => .refused .notEnabled)
  | .controlIgnored => event ((find s.queues n).isSome && addr = queueBit n) id s

/-- The bit address of a request, its width and how it reaches memory. -/
def reqSpan : PeerReq → Nat × Nat
  | .load a w => (a, w)
  | .store a w _ _ _ => (a, w)
  | .atomic _ a w _ _ => (a, w)
  | .reduce _ a w _ => (a, w)

/-- An atomic or a reduction of another package: the old value comes back for an atomic. -/
def State.outsideUpdate (s : State) (asid : BitVec 14) (v w : Nat) (k : AKind) (f : Nat → Nat) (back : Bool) : Option State :=
  s.outsideGot (s.getFarAs (dispatcher asid) none asid 0 v w k) fun g =>
    if g.bad.isSome then some (g.st.answers [g.n, 1]) else g.st.outsideWrite asid v w (f g.n) k false (if back then [g.n] else [])

/-- R56, R63, R64: a capability that another package stores here keeps its tag only as one that can be tagged, and with share-out. -/
def peerCap (tag : Bool) (b : BitVec 128) : Cap := let c : Cap := ⟨true, b⟩; { c with tag := tag && c.sound && c.has pShare }

/-- R384: a request of package `src`, served at this package through the exported window; a tag comes with a whole unit. -/
def execPeerRequest (src : Nat) (r : PeerReq) (s : State) : Host.Outcome State Fault Refusal :=
  let (a, w) := reqSpan r
  match s.ownWindow (a % 2 ^ 48 + s.mgmt.pkg * 2 ^ 48) w with
  | some (asid, v) =>
    if src = s.mgmt.pkg ∨ w = 0 then .refused .notEnabled
    else waiting (match r with
      | .load _ w => s.outsideRead asid v w
      | .store _ w x tag poison => (s.outsideWrite asid v w x .store poison []).map fun t =>
          if w = 128 then t.setTagAtAs s (dispatcher asid) asid (mkCap 0 (2 ^ 60) pStore 0) (peerCap tag (BitVec.ofNat 128 x)) v else t
      | .atomic o _ w x y => s.outsideUpdate asid v w .atomic (fun m => (amoOfCode o).new w m (x % 2 ^ w) (y % 2 ^ w)) true
      | .reduce red _ w x => if redOk red w then s.outsideUpdate asid v w .reduce (fun m => (reduceOp red w m (x % 2 ^ w)).1) false else none)
  | none => .refused .notEnabled

/-! ## Floesh links (R382, R383, R385) -/

def State.port (s : State) (n : Nat) : Port := look {} s.ports n
def State.setPort (s : State) (n : Nat) (p : Port) : State := { s with ports := put {} s.ports n p }

/-- A port carries requests to a package: it is the one last used towards it (R383). -/
def State.usedPort (s : State) (port : Nat) : State := s.onMgmt fun m => { m with lastPort := set m.lastPort (s.port port).pkg port }

/-- A record of a link event; PLACE is the port. -/
def State.linkRec (s : State) (port kind : Nat) : State := s.log (ioLog (port / 18)) port kind 0 0 0 0 0

/-- R383, R395: a package that can no longer be reached is logged, and the collectives that wait on it end. -/
def State.lostPeer (s : State) (pkg : Nat) : State := (s.linkRec (look 0 s.mgmt.lastPort pkg) 11).cutColls

/-- A port goes down; its unacknowledged flits go by another port to the same package. With no other up, the package is
unreachable. -/
def State.portFails (s : State) (port : Nat) : State :=
  let p := s.port port
  let s1 := (s.setPort port { p with up := false, unacked := [] }).linkRec port 10
  match s1.ports.find? fun q => q.2.up && q.2.pkg = p.pkg with
  | some (k, q) => (s1.setPort k { q with unacked := q.unacked ++ p.unacked.map fun _ => 0 }).usedPort k
  | none => s1.lostPeer p.pkg

/-- R382: a flit is sent, in order; it arrives; or its CRC fails and it is resent, up to 16 times, after which the port goes down. -/
def State.flit (s : State) : FlitEvent → State
  | .sent port => (s.setPort port { s.port port with unacked := (s.port port).unacked ++ [0] }).usedPort port
  | .acked port => s.setPort port { s.port port with unacked := (s.port port).unacked.drop 1 }
  | .failed port k =>
    let p := s.port port
    if p.unacked.getD k 0 < 16 then s.setPort port { p with unacked := p.unacked.set k (p.unacked.getD k 0 + 1) } else s.portFails port

/-- What can happen to a flit, on a port that is up. -/
def State.flitCan (s : State) : FlitEvent → Bool
  | .sent port => (s.port port).up
  | .acked port => (s.port port).up && (s.port port).unacked ≠ []
  | .failed port k => (s.port port).up && k < (s.port port).unacked.length

def execFlitRetry (e : FlitEvent) (s : State) : Host.Outcome State Fault Refusal := event (s.flitCan e) (fun t => t.flit e) s

def execPortDown (port : Nat) (s : State) : Host.Outcome State Fault Refusal :=
  event (s.port port).up (fun t => t.portFails port) s

/-- A request to a package has had no response for 100 µs: the package is unreachable; when an access of a scribe asked, it
hears of it. -/
def execPeerUnreachable (pkg : Nat) (sid : Option Nat) (s : State) : Host.Outcome State Fault Refusal :=
  event (pkg ≠ s.mgmt.pkg && pkg < 4096 && !s.unreachable.contains pkg)
    (fun t =>
      let u : State := { t with unreachable := pkg :: t.unreachable }
      match sid.bind fun n => u.scribe (BitVec.ofNat 14 n) with
      | some c => (u.peerDropped c.at_.who (pkg * 2 ^ 48)).cutColls
      | none => u.lostPeer pkg) s

def execPortUp (port pkg : Nat) (s : State) : Host.Outcome State Fault Refusal :=
  event (port < 36 && pkg < 4096 && !(s.port port).up)
    (fun t => (({ t with unreachable := t.unreachable.filter (· ≠ pkg) } : State).setPort port { up := true, pkg := pkg, unacked := [] }).usedPort port) s

/-! ## Storage errors -/

/-- Change a resident scribe. -/
def State.onScribe (s : State) (sid : Nat) (f : Scribe → Scribe) : State :=
  match s.scribe (BitVec.ofNat 14 sid) with
  | some c => s.setScribe (f c)
  | none => s

def State.lives (s : State) (sid : Nat) : Bool := (s.scribe (BitVec.ofNat 14 sid)).isSome

/-- R345 in an island in retention, else R190. -/
def State.lineError (s : State) (ln : Nat) : State :=
  let key := islandOfLine ln
  let i := s.isl key
  if i.retention then s.setIsl key { i with bad := i.bad ++ [ln] }
  else (s.setLine ln { s.line ln with poison := true }).logFor ((s.allocOf ln).elim 0 (·.1.asid)) (scribeLog (key / 256)) 0 2 0 0 0 0 (2 * ln)

/-- A symbol of a word goes bad; errors in two symbols cannot be corrected (R340). -/
def State.symbolError (s : State) (w sym : Nat) : State :=
  let old := look 0 s.eccSoft w
  if look 0 s.eccHard w ≠ 0 ∨ old = sym + 1 then s
  else if old = 0 then { s with eccSoft := put 0 s.eccSoft w (sym + 1) }
  else { s with eccSoft := put 0 s.eccSoft w 0, eccHard := put 0 s.eccHard w old }

/-- R341: a lane group that fails its sends; one that is retired carries no data. -/
def State.groupError (s : State) (die ch g n : Nat) : State :=
  let c : Channel := look {} s.channels (die * 16 + ch)
  if c.retired.contains g ∨ c.failed then s
  else { s with channels := put {} s.channels (die * 16 + ch) { c with bad := ins (del c.bad g) g n } }

/-- A scalar register that a scribe's register file holds: g0 to g7, and 256 stack entries (R20). -/
def Scribe.holdsKey (c : Scribe) (key : Nat) : Bool := key < 8 || (entryKey c.ctl.heldBase ≤ key && key < entryKey (c.ctl.heldBase + 256))

/-- The registers of a scribe in which a word has another value, with its marks as they were: a g, s, c, v or t word, or one of a
tile. -/
def Scribe.flipped (c : Scribe) (r : RegName) (v : Nat) : Option Regs :=
  match r with
  | .g n => if n < 8 then some { c.r with x := put 0 c.r.x n (word v) } else none
  | .s n => if 8 ≤ n ∧ n < 32 then some { c.r with x := put 0 c.r.x (xKey c.ctl.depth n) (word v) } else none
  | .c n => if n < 16 then some { c.r with c := put emptyCap c.r.c n ⟨(c.getC n).tag, BitVec.ofNat 128 v⟩ } else none
  | .v n l => if n < c.at_.vregs ∧ l < c.at_.lanes then some { c.r with v := put 0 c.r.v (vKey n l) (BitVec.ofNat 32 v) } else none
  | .t n l => if n < 4 ∧ l < c.at_.lanes then some { c.r with v := put 0 c.r.v (vKey (64 + n) l) (BitVec.ofNat 32 v) } else none
  | .z z l e => if z < c.at_.tiles ∧ l < c.at_.lanes ∧ e < 64 then some (c.r.setZ z l e (BitVec.ofNat 32 v)) else none
  | .q _ => none
  | .k _ => none
  | .e _ => none
  | .creg _ => none
  | .pc => none

def execStorageError (e : StorageErr) (s : State) : Host.Outcome State Fault Refusal :=
  match e with
  | .arrayCorrectable w sym => event (inTier (32 * w) && sym < 36) (fun t => t.symbolError w sym) s
  | .arrayUncorrectable w sym =>
    event (inTier (32 * w) && sym < 36) (fun t => { t with eccSoft := put 0 t.eccSoft w 0, eccHard := put 0 t.eccHard w (sym + 1) }) s
  | .cellLine ln => event (ln < 256 * 65536 && !s.holes.contains (peOfLine ln) && (s.line ln).st ≠ .free) (fun t => t.lineError ln) s
  | .registerCorrected sid => event (s.lives sid) (fun t => t.log (scribeLog (sid / 4096 % 4)) 0 1 0 sid 0 0 0) s
  | .vWord sid reg lane =>
    event (s.lives sid && reg < 72 && lane < 64) (fun t => t.onScribe sid fun c => { c with r := { c.r with pv := put 0 c.r.pv (vKey reg lane) (if look 0 c.r.pv (vKey reg lane) = 0 then 3 else 1) } }) s
  | .scalarWord sid key =>
    event ((s.scribe (BitVec.ofNat 14 sid)).any (·.holdsKey key)) (fun t => t.onScribe sid fun c => { c with r := { c.r with ps := put false c.r.ps key true } }) s
  | .keptRegister isl w => event ((s.isl isl).retention && w < 2 ^ 37) (fun t => t.setIsl isl { t.isl isl with badRegs := (t.isl isl).badRegs ++ [w] }) s
  | .silent sid r v =>
    (match (s.scribe (BitVec.ofNat 14 sid)).bind fun c => (c.flipped r v.toNat).map fun d => { c with r := d } with
    | some c => .next (s.setScribe c)
    | none => .refused .notEnabled)
  | .capWord sid reg => event (s.lives sid && reg < 16) (fun t => t.onScribe sid fun c => { c with r := { c.r with pcap := put false c.r.pcap reg true } }) s
  | .tile sid z lane =>
    event (s.lives sid && z < 4 && lane < 64) (fun t => t.onScribe sid fun c => { c with r := { c.r with zPoison := put false c.r.zPoison (zpKey z lane) true } }) s
  | .laneGroup die ch g n => event (die < 4 && ch < 16 && g < 64 && n ≠ 0) (fun t => t.groupError die ch g n) s

/-! ## Holes (R239) -/

/-- The position is a hole for launches placed from now on: for all at once when no team is there. -/
def execHoleAdded (x y : Nat) (s : State) : Host.Outcome State Fault Refusal :=
  let pe := 256 * y + x
  event (x < 256 && y < 256 && !s.holes.contains pe && (find s.pendingHoles pe).isNone)
    (fun t => if t.teams = [] then { t with holes := pe :: t.holes }
      else { t with pendingHoles := set t.pendingHoles pe (t.teams.map (·.2.launch)).eraseDups }) s

end Sys2Proof.Machine
end

