-- ==== Sys2Proof/Machine/PlaneMem.lean ====
section
/-! DEFINITION. Lane words on the plane: LDW, STW, LDE, STE and VAMO, majors 0x20 to 0x23 (R196 to R201),
with loads of landing lines that go wet (R146). -/

namespace Sys2Proof.Machine

open Sys2Proof

/-- R196: the depth an active lane names. -/
def State.depthOf (s : State) (ra l : Nat) : Int := ((s.getV ra l).toNat : Int) + s.xoff

/-! ## Targets -/

/-- HOLEF bits that the targets of an instruction set: for loads, stores or both. -/
def holeBits (loads stores : Bool) (ts : List (Nat × Target)) : Nat :=
  ts.foldl (fun acc p => match p.2 with
    | .none l st => acc ||| (if loads then l else 0) ||| (if stores then st else 0)
    | .cell _ _ => acc) 0

/-- The lanes whose lines are landing, with their plane bit addresses. -/
def landingLanes (ts : List (Nat × Target)) : Tbl Nat :=
  ts.filterMap fun p => match p.2 with
    | .cell a true => some (p.1, a)
    | _ => none

/-- The word of part `h` (32 bits each) that a lane's load of w bits gives, and its poison mark: each word of a load that reads a poisoned
line has one (R190). On a hole FILLV's low bits are extended as the form extends (log 40). -/
def State.loadPart (s : State) (w : Nat) (sgn : Bool) (h : Nat) (t : Target) : Lane × Nat :=
  match t with
  | .cell a landing =>
    if landing then (0, 0)
    else if w = 64 then (lane (s.planeRead (a + 32 * h) 32), if s.planePoison a w then 1 else 0)
    else ((extend w sgn (s.planeRead a w)).setWidth 32, if s.planePoison a w then 1 else 0)
  | .none _ _ => if w = 64 then (s.me.ctl.fillv, 0) else ((extend w sgn (s.me.ctl.fillv.toNat % 2 ^ w)).setWidth 32, 0)

/-! ## Loads -/

/-- Write part h of a lane load into register reg: the landing lanes go wet under a tag of their own. -/
def State.loadReg (s : State) (reg w : Nat) (sgn : Bool) (h : Nat) (ts : List (Nat × Target)) : Res State :=
  let m := maskOf 64 fun l => ts.any (·.1 = l)
  let f := fun l => s.loadPart w sgn h (look (.none 0 0) ts l)
  let land := landingLanes ts
  if land = [] then
    let s1 := { s with me := s.me.dropV reg m }
    .ok (s1.onR (writeLanes reg f (lanesOf m)))
  else
    match s.needTags 1 with
    | .error e => .error e
    | .ok _ =>
      let (s1, tag) := s.newTag (s.see
        { scalar := false, cap := emptyCap, space := 1, addr := (land.headD (0, 0)).2, width := w, signed := sgn, order := 0, scope := 0,
          pc := s.me.ctl.wordAt, amo := none, updated := false, x := 0, lanes := land,
          seen := [], poisoned := false, fault := none, queued := 0, part := h })
      s1.wetV reg m { tag := tag, kind := .int32, a := 1, step := none, mask := maskOf 64 fun l => (find land l).isSome, fault := none } f

/-- A lane load of w bits into d, or for 64 bits into d and d + 1. -/
def State.laneLoad (s : State) (g : BitVec 4) (d a : BitVec 6) (dx dy : Int) (w : Nat) (sgn : Bool) : Res State :=
  let m := s.active g
  let ra := s.vr a.toNat
  match s.vdry ra m with
  | .error e => .error e
  | .ok _ => match s.lanePlane false false dx dy w (s.depthOf ra) (lanesOf m) with
    | .error e => .error e
    | .ok ts =>
      let s0 := s.setHolef (holeBits true false ts)
      match s0.loadReg (s.vr d.toNat) w sgn 0 ts with
      | .error e => .error e
      | .ok s1 => if w = 64 then s1.loadReg (s.vr (d.toNat + 1)) w sgn 1 ts else .ok s1

/-! ## Stores -/

/-- The registers that hold w bits. -/
def pair (reg w : Nat) : List Nat := if w = 64 then [reg, reg + 1] else [reg]

/-- The w bits that a register or pair holds in a lane. -/
def State.pairBits (s : State) (reg w l : Nat) : Nat :=
  ((s.getV reg l).toNat + if w = 64 then (s.getV (reg + 1) l).toNat * 2 ^ 32 else 0) % 2 ^ w

/-- Store the targets in order. -/
def State.storeLanes (s : State) (w : Nat) (v : Nat → Nat) : List (Nat × Target) → State
  | [] => s
  | (l, .cell a _) :: ts => (s.planeStore a w (v l)).storeLanes w v ts
  | (_, .none _ _) :: ts => s.storeLanes w v ts

def State.laneStore (s : State) (g : BitVec 4) (r a : BitVec 6) (dx dy : Int) (w : Nat) : Res State :=
  let m := s.active g
  let ra := s.vr a.toNat
  let rs := s.vr r.toNat
  match s.vdryAll m (ra :: pair rs w) with
  | .error e => .error e
  | .ok _ => match s.lanePlane true false dx dy w (s.depthOf ra) (lanesOf m) with
    | .error e => .error e
    | .ok ts => .ok ((s.storeLanes w (s.pairBits rs w) ts).setHolef (holeBits false true ts))

/-! ## VAMO (R201) -/

/-- The read-modify-writes of the targets, in order; answers the old values as well. -/
def State.amoLanes (s : State) (o : AmoOp) (w : Nat) (x y : Nat → Nat) : List (Nat × Target) → State × List (Nat × Nat × Bool)
  | [] => (s, [])
  | (l, .cell a _) :: ts =>
    let old := s.planeRead a w
    let bad := s.planePoison a w
    let (s1, r) := (s.planeStore a w (o.new w old (x l) (y l))).amoLanes o w x y ts
    (s1, (l, old, bad) :: r)
  | (l, .none _ _) :: ts =>
    let (s1, r) := s.amoLanes o w x y ts
    (s1, (l, fillBits s.me.ctl.fillv w, false) :: r)

/-- A VAMO with its operand in d (and d + 1); CAS has its new value in the register or pair above. -/
def State.vamo (s : State) (o : AmoOp) (g : BitVec 4) (d a : BitVec 6) (w : Nat) : Res State :=
  let m := s.active g
  let ra := s.vr a.toNat
  let rd := s.vr d.toNat
  let n := (pair rd w).length
  match s.vdryAll m (ra :: (pair rd w ++ if o = .cas then pair (rd + n) w else [])) with
  | .error e => .error e
  | .ok _ => match s.lanePlane true true 0 0 w (s.depthOf ra) (lanesOf m) with
    | .error e => .error e
    | .ok ts =>
      let (s1, olds) := s.amoLanes o w (s.pairBits rd w) (s.pairBits (rd + n) w) ts
      let put := fun (s : State) (h : Nat) =>
        let s := { s with me := s.me.dropV (rd + h) m }
        s.onR (writeLanes (rd + h) (fun l => let r := look (0, false) olds l; (lane (r.1 / 2 ^ (32 * h)), if r.2 then 1 else 0)) (lanesOf m))
      let s2 := put s1 0
      .ok ((if w = 64 then put s2 1 else s2).setHolef (holeBits true true ts))

/-! ## The words -/

/-- R199 to R201: the register field of a pair is a multiple of n. -/
def multipleOf (n : Nat) (d : BitVec 6) (i : Instr) (r : Res State) : Res State :=
  if d.toNat % n ≠ 0 then trap (illegal9 (encodeNat i)) else r

/-- The registers that hold an element of a width code. -/
def pairSize (w : BitVec 4) : Nat := if w = 8 then 2 else 1

def execLdw (g : BitVec 4) (d a : BitVec 6) (x y : BitVec 3) (w : BitVec 4) (s : State) : Host.Outcome State Fault Refusal :=
  finish s (multipleOf (pairSize w) d (.ldw g d a x y w) (s.laneLoad g d a x.toInt y.toInt (widthOf w.toNat) false))
def execStw (g : BitVec 4) (r a : BitVec 6) (x y : BitVec 3) (w : BitVec 4) (s : State) : Host.Outcome State Fault Refusal :=
  finish s (multipleOf (pairSize w) r (.stw g r a x y w) (s.laneStore g r a x.toInt y.toInt (widthOf w.toNat)))
def execLdeB (g : BitVec 4) (d a : BitVec 6) (w : BitVec 4) (s : State) : Host.Outcome State Fault Refusal :=
  finish s (multipleOf (pairSize w) d (.ldeB g d a w) (s.laneLoad g d a 0 0 (widthOf w.toNat) false))
def execLdeI (g : BitVec 4) (d a : BitVec 6) (w : BitVec 4) (s : State) : Host.Outcome State Fault Refusal :=
  finish s (multipleOf (pairSize w) d (.ldeI g d a w) (s.laneLoad g d a 0 0 (widthOf w.toNat) true))
def execSte (g : BitVec 4) (r a : BitVec 6) (w : BitVec 4) (s : State) : Host.Outcome State Fault Refusal :=
  finish s (multipleOf (pairSize w) r (.ste g r a w) (s.laneStore g r a 0 0 (widthOf w.toNat)))

def execVamoAdd (g : BitVec 4) (d a : BitVec 6) (w : BitVec 4) (s : State) : Host.Outcome State Fault Refusal :=
  finish s (multipleOf (pairSize w) d (.vamoAdd g d a w) (s.vamo .add g d a (widthOf w.toNat)))
def execVamoMinI (g : BitVec 4) (d a : BitVec 6) (w : BitVec 4) (s : State) : Host.Outcome State Fault Refusal :=
  finish s (multipleOf (pairSize w) d (.vamoMinI g d a w) (s.vamo .minI g d a (widthOf w.toNat)))
def execVamoMaxI (g : BitVec 4) (d a : BitVec 6) (w : BitVec 4) (s : State) : Host.Outcome State Fault Refusal :=
  finish s (multipleOf (pairSize w) d (.vamoMaxI g d a w) (s.vamo .maxI g d a (widthOf w.toNat)))
def execVamoAnd (g : BitVec 4) (d a : BitVec 6) (w : BitVec 4) (s : State) : Host.Outcome State Fault Refusal :=
  finish s (multipleOf (pairSize w) d (.vamoAnd g d a w) (s.vamo .and g d a (widthOf w.toNat)))
def execVamoOr (g : BitVec 4) (d a : BitVec 6) (w : BitVec 4) (s : State) : Host.Outcome State Fault Refusal :=
  finish s (multipleOf (pairSize w) d (.vamoOr g d a w) (s.vamo .or g d a (widthOf w.toNat)))
def execVamoXor (g : BitVec 4) (d a : BitVec 6) (w : BitVec 4) (s : State) : Host.Outcome State Fault Refusal :=
  finish s (multipleOf (pairSize w) d (.vamoXor g d a w) (s.vamo .xor g d a (widthOf w.toNat)))
def execVamoSwap (g : BitVec 4) (d a : BitVec 6) (w : BitVec 4) (s : State) : Host.Outcome State Fault Refusal :=
  finish s (multipleOf (pairSize w) d (.vamoSwap g d a w) (s.vamo .swap g d a (widthOf w.toNat)))
def execVamoCas (g : BitVec 4) (d a : BitVec 6) (w : BitVec 4) (s : State) : Host.Outcome State Fault Refusal :=
  finish s (multipleOf (2 * pairSize w) d (.vamoCas g d a w) (s.vamo .cas g d a (widthOf w.toNat)))
def execVamoBfadd (g : BitVec 4) (d a : BitVec 6) (w : BitVec 4) (s : State) : Host.Outcome State Fault Refusal :=
  finish s (multipleOf (pairSize w) d (.vamoBfadd g d a w) (s.vamo .add g d a (widthOf w.toNat)))
def execVamoMinB (g : BitVec 4) (d a : BitVec 6) (w : BitVec 4) (s : State) : Host.Outcome State Fault Refusal :=
  finish s (multipleOf (pairSize w) d (.vamoMinB g d a w) (s.vamo .minB g d a (widthOf w.toNat)))
def execVamoMaxB (g : BitVec 4) (d a : BitVec 6) (w : BitVec 4) (s : State) : Host.Outcome State Fault Refusal :=
  finish s (multipleOf (pairSize w) d (.vamoMaxB g d a w) (s.vamo .maxB g d a (widthOf w.toNat)))

end Sys2Proof.Machine
end

