-- ==== Sys2Proof/Machine/Pointer.lean ====
section
/-! DEFINITION. Capabilities and pointers: majors 0x0E and 0x0F (R105 to R108). -/

namespace Sys2Proof

/-- The capability with another PERM, tag kept. -/
def Cap.withPerm (c : Cap) (p : Nat) : Cap :=
  ⟨c.tag, BitVec.ofNat 128 (c.bits.toNat % 2 ^ 110 + p % 4096 * 2 ^ 110 + c.bits.toNat / 2 ^ 122 * 2 ^ 122)⟩

end Sys2Proof

namespace Sys2Proof.Machine

open Sys2Proof

/-- Read a capability into a scalar. -/
def State.capGet (s : State) (d : BitVec 5) (a : BitVec 4) (f : Cap → Word) : Res State :=
  match s.cval a.toNat with
  | .error e => .error e
  | .ok c => .ok (s.setS d.toNat (f c))

def execCgetb (d : BitVec 5) (a : BitVec 4) (s : State) : Host.Outcome State Fault Refusal := finish s (s.capGet d a fun c => word c.base)
def execCgetl (d : BitVec 5) (a : BitVec 4) (s : State) : Host.Outcome State Fault Refusal := finish s (s.capGet d a fun c => word (min (c.top - c.base) (2 ^ 64 - 1)))
def execCgetp (d : BitVec 5) (a : BitVec 4) (s : State) : Host.Outcome State Fault Refusal := finish s (s.capGet d a fun c => word c.perm)
def execCgets (d : BitVec 5) (a : BitVec 4) (s : State) : Host.Outcome State Fault Refusal := finish s (s.capGet d a fun c => word c.space)
def execCgett (d : BitVec 5) (a : BitVec 4) (s : State) : Host.Outcome State Fault Refusal := finish s (s.capGet d a fun c => if c.tag then 1 else 0)

/-- Write a capability register from another and a scalar, under R107, whose ILLEGAL comes before the other checks of the word (the model's
choice, log 136). -/
def State.capPut (s : State) (i : Instr) (d a : BitVec 4) (b : Option (BitVec 5)) (f : Cap → Word → Res Cap) : Res State :=
  match s.mayWriteC d.toNat (encodeNat i) with
  | .error e => .error e
  | .ok _ => match s.cval a.toNat with
    | .error e => .error e
    | .ok c => match (match b with
        | some r => s.sval r.toNat
        | none => .ok 0) with
      | .error e => .error e
      | .ok v => match f c v with
        | .error e => .error e
        | .ok k => .ok (s.setC d.toNat k)

/-- R106: CSETB. -/
def csetb (a : Nat) (c : Cap) (v : Word) : Res Cap :=
  let b := c.cursor
  let len := v.toNat
  let t : Nat → Trap := fun code => { code := code, detail := 5, tinfo := a, taddr := b }
  if c.tag = false then trap (t cCAP_TAG)
  else if 2 ^ 64 < b + len then trap (t cCAP_BOUNDS)
  else
    let (e, _, _) := encodeBounds b len
    let top := (b + len + 2 ^ e - 1) / 2 ^ e * 2 ^ e
    if b - b % 2 ^ e < c.base ∨ c.top < top then trap (t cCAP_BOUNDS)
    else .ok (mkCap b len c.perm c.space)

def execCsetb (d a : BitVec 4) (b : BitVec 5) (s : State) : Host.Outcome State Fault Refusal :=
  finish s (s.capPut (.csetb d a b) d a (some b) (csetb a.toNat))
def execCandp (d a : BitVec 4) (b : BitVec 5) (s : State) : Host.Outcome State Fault Refusal :=
  finish s (s.capPut (.candp d a b) d a (some b) fun c v => .ok (c.withPerm (c.perm &&& (v.toNat % 4096))))
def execCmov (d a : BitVec 4) (s : State) : Host.Outcome State Fault Refusal :=
  finish s (s.capPut (.cmov d a) d a none fun c _ => .ok c)
def execCcur (d a : BitVec 4) (b : BitVec 5) (s : State) : Host.Outcome State Fault Refusal :=
  finish s (s.capPut (.ccur d a b) d a (some b) fun c v => .ok (c.withCursor v.toNat))

/-! ## Pointers (R108) -/

def execPadd (d a : BitVec 4) (b : BitVec 5) (w : BitVec 4) (s : State) : Host.Outcome State Fault Refusal :=
  finish s (s.capPut (.padd d a b w) d a (some b) fun c v => .ok (c.withCursor ((c.cursor + v.toNat * widthOf w.toNat) % 2 ^ 64)))
def execPsub (d a : BitVec 4) (b : BitVec 5) (w : BitVec 4) (s : State) : Host.Outcome State Fault Refusal :=
  finish s (s.capPut (.psub d a b w) d a (some b) fun c v => .ok (c.withCursor (modw 64 ((c.cursor : Int) - (v.toNat * widthOf w.toNat : Nat)))))
def execPdiff (d : BitVec 5) (a b : BitVec 4) (w : BitVec 4) (s : State) : Host.Outcome State Fault Refusal :=
  finish s (match s.cval a.toNat with
    | .error e => .error e
    | .ok c => match s.cval b.toNat with
      | .error e => .error e
      | .ok k => .ok (s.setS d.toNat (BitVec.ofInt 64 ((signed 64 (modw 64 ((c.cursor : Int) - k.cursor))).tdiv (widthOf w.toNat : Nat)))))
def execPalign (d a : BitVec 4) (u : BitVec 1) (w : BitVec 4) (s : State) : Host.Outcome State Fault Refusal :=
  finish s (s.capPut (.palign d a u w) d a none fun c _ =>
      let n := widthOf w.toNat
      .ok (c.withCursor (if u = 0 then c.cursor - c.cursor % n else (c.cursor + n - 1) / n * n % 2 ^ 64)))
def execPbyte (d : BitVec 5) (a : BitVec 4) (s : State) : Host.Outcome State Fault Refusal :=
  finish s (match s.cval a.toNat with
    | .error e => .error e
    | .ok c =>
      if c.cursor % 8 ≠ 0 then trap { code := cALIGN, detail := 5, tinfo := a.toNat, taddr := c.cursor }
      else .ok (s.setS d.toNat (word (c.cursor / 8))))
def execPbit (d a : BitVec 4) (b : BitVec 5) (s : State) : Host.Outcome State Fault Refusal :=
  finish s (s.capPut (.pbit d a b) d a (some b) fun c v => .ok (c.withCursor (v.toNat * 8 % 2 ^ 64)))
/-- PINB computes unbounded and raises nothing; sb counts elements forward or back from the cursor, as PADD moves it (log 45). -/
def execPinb (d : BitVec 5) (a : BitVec 4) (b : BitVec 5) (w : BitVec 4) (s : State) : Host.Outcome State Fault Refusal :=
  finish s (match s.cval a.toNat with
    | .error e => .error e
    | .ok c => match s.sval b.toNat with
      | .error e => .error e
      | .ok v =>
        let n := widthOf w.toNat
        let p : Int := c.cursor + v.toInt * n
        .ok (s.setS d.toNat (if c.tag ∧ (c.base : Int) ≤ p ∧ p + n ≤ c.top then 1 else 0)))

end Sys2Proof.Machine
end

