-- ==== Sys2Proof/Machine/ScalarMem.lean ====
section
/-! DEFINITION. Scalar memory words: majors 0x0B to 0x0D (R98 to R103). -/

namespace Sys2Proof.Machine

open Sys2Proof

def execLdB (d : BitVec 5) (c : BitVec 4) (x : BitVec 5) (w : BitVec 4) (o : BitVec 2) (sc : BitVec 3) (s : State) : Host.Outcome State Fault Refusal :=
  finish s (s.load d.toNat c.toNat x.toNat (widthOf w.toNat) o.toNat false sc.toNat)
def execLdI (d : BitVec 5) (c : BitVec 4) (x : BitVec 5) (w : BitVec 4) (o : BitVec 2) (sc : BitVec 3) (s : State) : Host.Outcome State Fault Refusal :=
  finish s (s.load d.toNat c.toNat x.toNat (widthOf w.toNat) o.toNat true sc.toNat)

/-- R64, R99: LDC. -/
def State.loadCap (s : State) (d cr x order : Nat) : Res State :=
  match s.scalarAddr cr x with
  | .error e => .error e
  | .ok (c, a) =>
    match s.acquire order with
    | .error e => .error e
    | .ok _ =>
      match checkScalar c cr a 128 pLoad .load true with
      | .error e => .error e
      | .ok _ => match s.afterOwn c.space a 128 with
        | .error e => .error e
        | .ok s => match s.getBlocking cr c a 128 with
        | .error e => .error e
        | .ok (s1, n, poison) =>
          let s2 := s1.setC d ⟨c.has pLoadCap && s.tagAt c a && !poison, BitVec.ofNat 128 n⟩
          .ok (if poison then s2.onR fun r => { r with pcap := put false r.pcap d true } else s2)

def execLdc (d c : BitVec 4) (x : BitVec 5) (o : BitVec 2) (sc : BitVec 3) (s : State) : Host.Outcome State Fault Refusal :=
  finish s (match s.mayWriteC d.toNat (encodeNat (.ldc d c x o sc)) with
    | .error e => .error e
    | .ok _ => s.loadCap d.toNat c.toNat x.toNat o.toNat)

def execSt (t : BitVec 5) (c : BitVec 4) (x : BitVec 5) (w : BitVec 4) (o : BitVec 2) (_sc : BitVec 3) (s : State) : Host.Outcome State Fault Refusal :=
  finish s (s.store t.toNat c.toNat x.toNat (widthOf w.toNat) o.toNat)

/-- R64, R100: STC. A handler saves a poisoned capability as data, with its poison (R177). -/
def State.storeCap (s : State) (t cr x order : Nat) : Res State :=
  match s.scalarAddr cr x with
  | .error e => .error e
  | .ok (c, a) =>
    let poison := s.me.ctl.handler && look false s.me.r.pcap t
    match (if poison then .ok (s.getC t) else s.cval t) with
    | .error e => .error e
    | .ok v =>
      match s.release order with
      | .error e => .error e
      | .ok _ =>
        match checkScalar c cr a 128 (if v.tag then pStore + pStoreCap else pStore) .store true with
        | .error e => .error e
        | .ok _ => match s.afterOwn c.space a 128 with
          | .error e => .error e
          | .ok s => match s.putBlocking cr c a 128 v.bits.toNat poison with
          | .error e => .error e
          | .ok s1 => .ok (s1.setTagAt s c v a)

def execStc (t c : BitVec 4) (x : BitVec 5) (o : BitVec 2) (_sc : BitVec 3) (s : State) : Host.Outcome State Fault Refusal :=
  finish s (s.storeCap t.toNat c.toNat x.toNat o.toNat)

/-! ## Atomics (Table 05-8) -/

def execAmoAdd (d : BitVec 5) (c : BitVec 4) (x : BitVec 5) (w : BitVec 4) (o : BitVec 2) (sc : BitVec 3) (s : State) : Host.Outcome State Fault Refusal :=
  finish s (s.amo .add d.toNat c.toNat x.toNat (widthOf w.toNat) o.toNat sc.toNat)
def execAmoMin (d : BitVec 5) (c : BitVec 4) (x : BitVec 5) (w : BitVec 4) (o : BitVec 2) (sc : BitVec 3) (s : State) : Host.Outcome State Fault Refusal :=
  finish s (s.amo .minI d.toNat c.toNat x.toNat (widthOf w.toNat) o.toNat sc.toNat)
def execAmoMax (d : BitVec 5) (c : BitVec 4) (x : BitVec 5) (w : BitVec 4) (o : BitVec 2) (sc : BitVec 3) (s : State) : Host.Outcome State Fault Refusal :=
  finish s (s.amo .maxI d.toNat c.toNat x.toNat (widthOf w.toNat) o.toNat sc.toNat)
def execAmoAnd (d : BitVec 5) (c : BitVec 4) (x : BitVec 5) (w : BitVec 4) (o : BitVec 2) (sc : BitVec 3) (s : State) : Host.Outcome State Fault Refusal :=
  finish s (s.amo .and d.toNat c.toNat x.toNat (widthOf w.toNat) o.toNat sc.toNat)
def execAmoOr (d : BitVec 5) (c : BitVec 4) (x : BitVec 5) (w : BitVec 4) (o : BitVec 2) (sc : BitVec 3) (s : State) : Host.Outcome State Fault Refusal :=
  finish s (s.amo .or d.toNat c.toNat x.toNat (widthOf w.toNat) o.toNat sc.toNat)
def execAmoXor (d : BitVec 5) (c : BitVec 4) (x : BitVec 5) (w : BitVec 4) (o : BitVec 2) (sc : BitVec 3) (s : State) : Host.Outcome State Fault Refusal :=
  finish s (s.amo .xor d.toNat c.toNat x.toNat (widthOf w.toNat) o.toNat sc.toNat)
def execAmoSwap (d : BitVec 5) (c : BitVec 4) (x : BitVec 5) (w : BitVec 4) (o : BitVec 2) (sc : BitVec 3) (s : State) : Host.Outcome State Fault Refusal :=
  finish s (s.amo .swap d.toNat c.toNat x.toNat (widthOf w.toNat) o.toNat sc.toNat)
/-- CAS of s23 has no successor (R102). -/
def execAmoCas (d : BitVec 5) (c : BitVec 4) (x : BitVec 5) (w : BitVec 4) (o : BitVec 2) (sc : BitVec 3) (s : State) : Host.Outcome State Fault Refusal :=
  finish s (if d.toNat = 31 then trap (illegal9 (encodeNat (.amoCas d c x w o sc)))
    else s.amo .cas d.toNat c.toNat x.toNat (widthOf w.toNat) o.toNat sc.toNat)
def execAmoBfadd (d : BitVec 5) (c : BitVec 4) (x : BitVec 5) (w : BitVec 4) (o : BitVec 2) (sc : BitVec 3) (s : State) : Host.Outcome State Fault Refusal :=
  finish s (s.amo .add d.toNat c.toNat x.toNat (widthOf w.toNat) o.toNat sc.toNat)
def execAmoBfset (d : BitVec 5) (c : BitVec 4) (x : BitVec 5) (w : BitVec 4) (o : BitVec 2) (sc : BitVec 3) (s : State) : Host.Outcome State Fault Refusal :=
  finish s (s.amo .swap d.toNat c.toNat x.toNat (widthOf w.toNat) o.toNat sc.toNat)

end Sys2Proof.Machine
end

