-- ==== Sys2Proof/Machine/Dispatch.lean ====
section
/-! DEFINITION. The dispatch: one arm per constructor of Instr, each a direct call of its meaning. -/

namespace Sys2Proof.Machine

open Sys2Proof

def exec (i : Instr) (s : State) : Host.Outcome State Fault Refusal :=
  match i with
  | .add d a b => Sys2Proof.Machine.execAdd d a b s
  | .sub d a b => Sys2Proof.Machine.execSub d a b s
  | .and d a b => Sys2Proof.Machine.execAnd d a b s
  | .or d a b => Sys2Proof.Machine.execOr d a b s
  | .xor d a b => Sys2Proof.Machine.execXor d a b s
  | .andn d a b => Sys2Proof.Machine.execAndn d a b s
  | .shl d a b => Sys2Proof.Machine.execShl d a b s
  | .shr d a b => Sys2Proof.Machine.execShr d a b s
  | .sar d a b => Sys2Proof.Machine.execSar d a b s
  | .minI d a b => Sys2Proof.Machine.execMinI d a b s
  | .maxI d a b => Sys2Proof.Machine.execMaxI d a b s
  | .minB d a b => Sys2Proof.Machine.execMinB d a b s
  | .maxB d a b => Sys2Proof.Machine.execMaxB d a b s
  | .slt d a b => Sys2Proof.Machine.execSlt d a b s
  | .sltb d a b => Sys2Proof.Machine.execSltb d a b s
  | .seq d a b => Sys2Proof.Machine.execSeq d a b s
  | .sne d a b => Sys2Proof.Machine.execSne d a b s
  | .sel d a b => Sys2Proof.Machine.execSel d a b s
  | .clz d a => Sys2Proof.Machine.execClz d a s
  | .ctz d a => Sys2Proof.Machine.execCtz d a s
  | .popc d a => Sys2Proof.Machine.execPopc d a s
  | .addi d a im => Sys2Proof.Machine.execAddi d a im s
  | .slti d a im => Sys2Proof.Machine.execSlti d a im s
  | .li d im => Sys2Proof.Machine.execLi d im s
  | .lih d a im => Sys2Proof.Machine.execLih d a im s
  | .andi d a im => Sys2Proof.Machine.execAndi d a im s
  | .ori d a im => Sys2Proof.Machine.execOri d a im s
  | .xori d a im => Sys2Proof.Machine.execXori d a im s
  | .shli d a n => Sys2Proof.Machine.execShli d a n s
  | .shri d a n => Sys2Proof.Machine.execShri d a n s
  | .sari d a n => Sys2Proof.Machine.execSari d a n s
  | .bfx d a l p => Sys2Proof.Machine.execBfx d a l p s
  | .bfxI d a l p => Sys2Proof.Machine.execBfxI d a l p s
  | .bfi d a l p => Sys2Proof.Machine.execBfi d a l p s
  | .sext d a n => Sys2Proof.Machine.execSext d a n s
  | .zext d a n => Sys2Proof.Machine.execZext d a n s
  | .mul d a b => Sys2Proof.Machine.execMul d a b s
  | .mulhI d a b => Sys2Proof.Machine.execMulhI d a b s
  | .mulhB d a b => Sys2Proof.Machine.execMulhB d a b s
  | .divI d a b => Sys2Proof.Machine.execDivI d a b s
  | .divB d a b => Sys2Proof.Machine.execDivB d a b s
  | .remI d a b => Sys2Proof.Machine.execRemI d a b s
  | .remB d a b => Sys2Proof.Machine.execRemB d a b s
  | .mov d a => Sys2Proof.Machine.execMov d a s
  | .beq a b o => Sys2Proof.Machine.execBeq a b o s
  | .bne a b o => Sys2Proof.Machine.execBne a b o s
  | .blt a b o => Sys2Proof.Machine.execBlt a b o s
  | .bge a b o => Sys2Proof.Machine.execBge a b o s
  | .bltb a b o => Sys2Proof.Machine.execBltb a b o s
  | .bgeb a b o => Sys2Proof.Machine.execBgeb a b o s
  | .bz a o => Sys2Proof.Machine.execBz a o s
  | .bnz a o => Sys2Proof.Machine.execBnz a o s
  | .jmp o => Sys2Proof.Machine.execJmp o s
  | .bru q o => Sys2Proof.Machine.execBru q o s
  | .bany q o => Sys2Proof.Machine.execBany q o s
  | .ball q o => Sys2Proof.Machine.execBall q o s
  | .bnone q o => Sys2Proof.Machine.execBnone q o s
  | .call o => Sys2Proof.Machine.execCall o s
  | .callr a => Sys2Proof.Machine.execCallr a s
  | .jr a => Sys2Proof.Machine.execJr a s
  | .ret => Sys2Proof.Machine.execRet s
  | .ldB d c x w o sreg => Sys2Proof.Machine.execLdB d c x w o sreg s
  | .ldI d c x w o sreg => Sys2Proof.Machine.execLdI d c x w o sreg s
  | .ldc d c x o sreg => Sys2Proof.Machine.execLdc d c x o sreg s
  | .st t c x w o sreg => Sys2Proof.Machine.execSt t c x w o sreg s
  | .stc t c x o sreg => Sys2Proof.Machine.execStc t c x o sreg s
  | .amoAdd d c x w o sreg => Sys2Proof.Machine.execAmoAdd d c x w o sreg s
  | .amoMin d c x w o sreg => Sys2Proof.Machine.execAmoMin d c x w o sreg s
  | .amoMax d c x w o sreg => Sys2Proof.Machine.execAmoMax d c x w o sreg s
  | .amoAnd d c x w o sreg => Sys2Proof.Machine.execAmoAnd d c x w o sreg s
  | .amoOr d c x w o sreg => Sys2Proof.Machine.execAmoOr d c x w o sreg s
  | .amoXor d c x w o sreg => Sys2Proof.Machine.execAmoXor d c x w o sreg s
  | .amoSwap d c x w o sreg => Sys2Proof.Machine.execAmoSwap d c x w o sreg s
  | .amoCas d c x w o sreg => Sys2Proof.Machine.execAmoCas d c x w o sreg s
  | .amoBfadd d c x w o sreg => Sys2Proof.Machine.execAmoBfadd d c x w o sreg s
  | .amoBfset d c x w o sreg => Sys2Proof.Machine.execAmoBfset d c x w o sreg s
  | .cgetb d a => Sys2Proof.Machine.execCgetb d a s
  | .cgetl d a => Sys2Proof.Machine.execCgetl d a s
  | .cgetp d a => Sys2Proof.Machine.execCgetp d a s
  | .cgets d a => Sys2Proof.Machine.execCgets d a s
  | .cgett d a => Sys2Proof.Machine.execCgett d a s
  | .csetb d a b => Sys2Proof.Machine.execCsetb d a b s
  | .candp d a b => Sys2Proof.Machine.execCandp d a b s
  | .cmov d a => Sys2Proof.Machine.execCmov d a s
  | .ccur d a b => Sys2Proof.Machine.execCcur d a b s
  | .padd d a b w => Sys2Proof.Machine.execPadd d a b w s
  | .psub d a b w => Sys2Proof.Machine.execPsub d a b w s
  | .pdiff d a b w => Sys2Proof.Machine.execPdiff d a b w s
  | .palign d a u w => Sys2Proof.Machine.execPalign d a u w s
  | .pbyte d a => Sys2Proof.Machine.execPbyte d a s
  | .pbit d a b => Sys2Proof.Machine.execPbit d a b s
  | .pinb d a b w => Sys2Proof.Machine.execPinb d a b w s
  | .getc r d => Sys2Proof.Machine.execGetc r d s
  | .setc r sreg => Sys2Proof.Machine.execSetc r sreg s
  | .setcRngs sreg => Sys2Proof.Machine.execSetcRngs sreg s
  | .trap n => Sys2Proof.Machine.execTrap n s
  | .tret => Sys2Proof.Machine.execTret s
  | .tretReplay => Sys2Proof.Machine.execTretReplay s
  | .fence sreg o => Sys2Proof.Machine.execFence sreg o s
  | .yield => Sys2Proof.Machine.execYield s
  | .exit => Sys2Proof.Machine.execExit s
  | .brk n => Sys2Proof.Machine.execBrk n s
  | .beat => Sys2Proof.Machine.execBeat s
  | .nop => Sys2Proof.Machine.execNop s
  | .ldk n d im => Sys2Proof.Machine.execLdk n d im s
  | .xim p => Sys2Proof.Machine.execXim p s
  | .dry r k => Sys2Proof.Machine.execDry r k s
  | .wetq d r k => Sys2Proof.Machine.execWetq d r k s
  | .dryAll => Sys2Proof.Machine.execDryAll s
  | .vadd g d a b => Sys2Proof.Machine.execVadd g d a b s
  | .vsub g d a b => Sys2Proof.Machine.execVsub g d a b s
  | .vand g d a b => Sys2Proof.Machine.execVand g d a b s
  | .vor g d a b => Sys2Proof.Machine.execVor g d a b s
  | .vxor g d a b => Sys2Proof.Machine.execVxor g d a b s
  | .vandn g d a b => Sys2Proof.Machine.execVandn g d a b s
  | .vnot g d a => Sys2Proof.Machine.execVnot g d a s
  | .vabs g d a => Sys2Proof.Machine.execVabs g d a s
  | .vneg g d a => Sys2Proof.Machine.execVneg g d a s
  | .vminI g d a b => Sys2Proof.Machine.execVminI g d a b s
  | .vminB g d a b => Sys2Proof.Machine.execVminB g d a b s
  | .vmaxI g d a b => Sys2Proof.Machine.execVmaxI g d a b s
  | .vmaxB g d a b => Sys2Proof.Machine.execVmaxB g d a b s
  | .vaddsatI g d a b => Sys2Proof.Machine.execVaddsatI g d a b s
  | .vaddsatB g d a b => Sys2Proof.Machine.execVaddsatB g d a b s
  | .vsubsatI g d a b => Sys2Proof.Machine.execVsubsatI g d a b s
  | .vsubsatB g d a b => Sys2Proof.Machine.execVsubsatB g d a b s
  | .vaddi g d a im => Sys2Proof.Machine.execVaddi g d a im s
  | .vandi g d a im => Sys2Proof.Machine.execVandi g d a im s
  | .vori g d a im => Sys2Proof.Machine.execVori g d a im s
  | .vshli g d a n => Sys2Proof.Machine.execVshli g d a n s
  | .vmul g d a b => Sys2Proof.Machine.execVmul g d a b s
  | .vmulhI g d a b => Sys2Proof.Machine.execVmulhI g d a b s
  | .vmulhB g d a b => Sys2Proof.Machine.execVmulhB g d a b s
  | .vmad g d a b => Sys2Proof.Machine.execVmad g d a b s
  | .vshl g d a b => Sys2Proof.Machine.execVshl g d a b s
  | .vshr g d a b => Sys2Proof.Machine.execVshr g d a b s
  | .vsar g d a b => Sys2Proof.Machine.execVsar g d a b s
  | .vclz g d a => Sys2Proof.Machine.execVclz g d a s
  | .vpopc g d a => Sys2Proof.Machine.execVpopc g d a s
  | .vbfx g d a b => Sys2Proof.Machine.execVbfx g d a b s
  | .vbfxI g d a b => Sys2Proof.Machine.execVbfxI g d a b s
  | .vbfi g d a b => Sys2Proof.Machine.execVbfi g d a b s
  | .fadd g d a b => Sys2Proof.Machine.execFadd g d a b s
  | .fsub g d a b => Sys2Proof.Machine.execFsub g d a b s
  | .fmul g d a b => Sys2Proof.Machine.execFmul g d a b s
  | .fmin g d a b => Sys2Proof.Machine.execFmin g d a b s
  | .fmax g d a b => Sys2Proof.Machine.execFmax g d a b s
  | .fabs g d a => Sys2Proof.Machine.execFabs g d a s
  | .fneg g d a => Sys2Proof.Machine.execFneg g d a s
  | .frnd g d a m => Sys2Proof.Machine.execFrnd g d a m s
  | .fclass g d a => Sys2Proof.Machine.execFclass g d a s
  | .faddPacked g d a b p => Sys2Proof.Machine.execFaddPacked g d a b p s
  | .fsubPacked g d a b p => Sys2Proof.Machine.execFsubPacked g d a b p s
  | .fmulPacked g d a b p => Sys2Proof.Machine.execFmulPacked g d a b p s
  | .fminPacked g d a b p => Sys2Proof.Machine.execFminPacked g d a b p s
  | .fmaxPacked g d a b p => Sys2Proof.Machine.execFmaxPacked g d a b p s
  | .fabsPacked g d a p => Sys2Proof.Machine.execFabsPacked g d a p s
  | .fnegPacked g d a p => Sys2Proof.Machine.execFnegPacked g d a p s
  | .fclassPacked g d a p => Sys2Proof.Machine.execFclassPacked g d a p s
  | .frndPacked g d a m p => Sys2Proof.Machine.execFrndPacked g d a m p s
  | .fdot2 g d a b p => Sys2Proof.Machine.execFdot2 g d a b p s
  | .fma g d a b f => Sys2Proof.Machine.execFma g d a b f s
  | .fms g d a b f => Sys2Proof.Machine.execFms g d a b f s
  | .fnma g d a b f => Sys2Proof.Machine.execFnma g d a b f s
  | .vcmp g q a b c => Sys2Proof.Machine.execVcmp g q a b c s
  | .vcmpF g q a b c => Sys2Proof.Machine.execVcmpF g q a b c s
  | .fcmpu g q a b => Sys2Proof.Machine.execFcmpu g q a b s
  | .vsel g d a b => Sys2Proof.Machine.execVsel g d a b s
  | .vmov g d a => Sys2Proof.Machine.execVmov g d a s
  | .vmovi g d im => Sys2Proof.Machine.execVmovi g d im s
  | .vfromg g d sreg => Sys2Proof.Machine.execVfromg g d sreg s
  | .vlane g d sreg => Sys2Proof.Machine.execVlane g d sreg s
  | .pand g d a b => Sys2Proof.Machine.execPand g d a b s
  | .por g d a b => Sys2Proof.Machine.execPor g d a b s
  | .pxor g d a b => Sys2Proof.Machine.execPxor g d a b s
  | .pnot g d a => Sys2Proof.Machine.execPnot g d a s
  | .pmov g d a => Sys2Proof.Machine.execPmov g d a s
  | .cvtF32ToX g d a x r => Sys2Proof.Machine.execCvtF32ToX g d a x r s
  | .cvtI32ToX g d a x r => Sys2Proof.Machine.execCvtI32ToX g d a x r s
  | .cvtXToF32 g d a x r => Sys2Proof.Machine.execCvtXToF32 g d a x r s
  | .cvtXToI32 g d a x r => Sys2Proof.Machine.execCvtXToI32 g d a x r s
  | .vunpack g d a f h => Sys2Proof.Machine.execVunpack g d a f h s
  | .vquant g d a r t l f => Sys2Proof.Machine.execVquant g d a r t l f s
  | .vdequant g d a f => Sys2Proof.Machine.execVdequant g d a f s
  | .vpackF16 g d a b => Sys2Proof.Machine.execVpackF16 g d a b s
  | .vpackBf16 g d a b => Sys2Proof.Machine.execVpackBf16 g d a b s
  | .frcp g d a => Sys2Proof.Machine.execFrcp g d a s
  | .frsqrt g d a => Sys2Proof.Machine.execFrsqrt g d a s
  | .fsqrt g d a => Sys2Proof.Machine.execFsqrt g d a s
  | .fexp2 g d a => Sys2Proof.Machine.execFexp2 g d a s
  | .flog2 g d a => Sys2Proof.Machine.execFlog2 g d a s
  | .fsin g d a => Sys2Proof.Machine.execFsin g d a s
  | .fcos g d a => Sys2Proof.Machine.execFcos g d a s
  | .ftanh g d a => Sys2Proof.Machine.execFtanh g d a s
  | .vperm g d a b => Sys2Proof.Machine.execVperm g d a b s
  | .vpermM g d a b => Sys2Proof.Machine.execVpermM g d a b s
  | .vshufx g d a m k => Sys2Proof.Machine.execVshufx g d a m k s
  | .vshufy g d a m k => Sys2Proof.Machine.execVshufy g d a m k s
  | .vbcast g d a p => Sys2Proof.Machine.execVbcast g d a p s
  | .vred g d a o => Sys2Proof.Machine.execVred g d a o s
  | .vscan g d a o => Sys2Proof.Machine.execVscan g d a o s
  | .vmatch g d a => Sys2Proof.Machine.execVmatch g d a s
  | .vpick g d a => Sys2Proof.Machine.execVpick g d a s
  | .vvote g d q => Sys2Proof.Machine.execVvote g d q s
  | .ldw g d a x y w => Sys2Proof.Machine.execLdw g d a x y w s
  | .stw g sreg a x y w => Sys2Proof.Machine.execStw g sreg a x y w s
  | .ldeB g d a w => Sys2Proof.Machine.execLdeB g d a w s
  | .ldeI g d a w => Sys2Proof.Machine.execLdeI g d a w s
  | .ste g sreg a w => Sys2Proof.Machine.execSte g sreg a w s
  | .vamoAdd g d a w => Sys2Proof.Machine.execVamoAdd g d a w s
  | .vamoMinI g d a w => Sys2Proof.Machine.execVamoMinI g d a w s
  | .vamoMaxI g d a w => Sys2Proof.Machine.execVamoMaxI g d a w s
  | .vamoAnd g d a w => Sys2Proof.Machine.execVamoAnd g d a w s
  | .vamoOr g d a w => Sys2Proof.Machine.execVamoOr g d a w s
  | .vamoXor g d a w => Sys2Proof.Machine.execVamoXor g d a w s
  | .vamoSwap g d a w => Sys2Proof.Machine.execVamoSwap g d a w s
  | .vamoCas g d a w => Sys2Proof.Machine.execVamoCas g d a w s
  | .vamoBfadd g d a w => Sys2Proof.Machine.execVamoBfadd g d a w s
  | .vamoMinB g d a w => Sys2Proof.Machine.execVamoMinB g d a w s
  | .vamoMaxB g d a w => Sys2Proof.Machine.execVamoMaxB g d a w s
  | .lcopy a c v d n q => Sys2Proof.Machine.execLcopy a c v d n q s
  | .own e => Sys2Proof.Machine.execOwn e s
  | .give sreg e => Sys2Proof.Machine.execGive sreg e s
  | .share e => Sys2Proof.Machine.execShare e s
  | .claim e => Sys2Proof.Machine.execClaim e s
  | .pass sreg e => Sys2Proof.Machine.execPass sreg e s
  | .probe d a => Sys2Proof.Machine.execProbe d a s
  | .rset sreg e => Sys2Proof.Machine.execRset sreg e s
  | .rget d e => Sys2Proof.Machine.execRget d e s
  | .rmov f e => Sys2Proof.Machine.execRmov f e s
  | .radj a b t e => Sys2Proof.Machine.execRadj a b t e s
  | .scroll e x y m => Sys2Proof.Machine.execScroll e x y m s
  | .scrollReg e a b m => Sys2Proof.Machine.execScrollReg e a b m s
  | .scrollResume => Sys2Proof.Machine.execScrollResume s
  | .pfill e => Sys2Proof.Machine.execPfill e s
  | .pfillZero e => Sys2Proof.Machine.execPfillZero e s
  | .pfillScalar e sreg => Sys2Proof.Machine.execPfillScalar e sreg s
  | .mloop z a d b f sreg k => Sys2Proof.Machine.execMloop z a d b f sreg k s
  | .mcommit => Sys2Proof.Machine.execMcommit s
  | .mwait n => Sys2Proof.Machine.execMwait n s
  | .zclr z => Sys2Proof.Machine.execZclr z s
  | .zld sreg z => Sys2Proof.Machine.execZld sreg z s
  | .zst sreg z => Sys2Proof.Machine.execZst sreg z s
  | .zmov m n => Sys2Proof.Machine.execZmov m n s
  | .zcvt sreg im r f z => Sys2Proof.Machine.execZcvt sreg im r f z s
  | .zcvtReg d im r f z => Sys2Proof.Machine.execZcvtReg d im r f z s
  | .binit a b f => Sys2Proof.Machine.execBinit a b f s
  | .barrive a b g f => Sys2Proof.Machine.execBarrive a b g f s
  | .bwait a b => Sys2Proof.Machine.execBwait a b s
  | .btest a b => Sys2Proof.Machine.execBtest a b s
  | .bexpect a b => Sys2Proof.Machine.execBexpect a b s
  | .semwait c b n sreg => Sys2Proof.Machine.execSemwait c b n sreg s
  | .sempost c b n sreg => Sys2Proof.Machine.execSempost c b n sreg s
  | .park c b sreg => Sys2Proof.Machine.execPark c b sreg s
  | .qkick l p n => Sys2Proof.Machine.execQkick l p n s
  | .qdrain => Sys2Proof.Machine.execQdrain s
  | .qstat d => Sys2Proof.Machine.execQstat d s
  | .qcancel d a => Sys2Proof.Machine.execQcancel d a s
  | .ssubNib b sreg => Sys2Proof.Machine.execSsubNib b sreg s
  | .ssubCell a b sreg e => Sys2Proof.Machine.execSsubCell a b sreg e s
  | .sunsub sreg => Sys2Proof.Machine.execSunsub sreg s
  | .spub a sreg => Sys2Proof.Machine.execSpub a sreg s
  | .coll a b => Sys2Proof.Machine.execColl a b s
  | .stepb a b im => Sys2Proof.Machine.execStepb a b im s
  | .stepe im => Sys2Proof.Machine.execStepe im s
  | .mark a n => Sys2Proof.Machine.execMark a n s
  | .lcopyLanding k => Sys2Proof.Machine.execLcopyLanding k s
  | .unitStep sid => Sys2Proof.Machine.execUnitStep sid s
  | .planeFillWrite sid => Sys2Proof.Machine.execPlaneFillWrite sid s
  | .loopStep n lane => Sys2Proof.Machine.execLoopStep n lane s
  | .loopCompletion n => Sys2Proof.Machine.execLoopCompletion n s
  | .semwaitRetry sid => Sys2Proof.Machine.execSemwaitRetry sid s
  | .watchWake sid => Sys2Proof.Machine.execWatchWake sid s
  | .lineRequest k => Sys2Proof.Machine.execLineRequest k s
  | .completionRecord k => Sys2Proof.Machine.execCompletionRecord k s
  | .chunk stream sub => Sys2Proof.Machine.execChunk stream sub s
  | .cellRingSlotLanding stream sub => Sys2Proof.Machine.execCellRingSlotLanding stream sub s
  | .contribution m => Sys2Proof.Machine.execContribution m s
  | .contributionTimeout k => Sys2Proof.Machine.execContributionTimeout k s
  | .resolution sid tag => Sys2Proof.Machine.execResolution sid tag s
  | .wetAccessFault sid tag cause => Sys2Proof.Machine.execWetAccessFault sid tag cause s
  | .deliverableEventEntry => Sys2Proof.Machine.execDeliverableEventEntry s
  | .urgent sid => Sys2Proof.Machine.execUrgent sid s
  | .teamPlacement die => Sys2Proof.Machine.execTeamPlacement die s
  | .drainToFit die => Sys2Proof.Machine.execDrainToFit die s
  | .batchDispatch => Sys2Proof.Machine.execBatchDispatch s
  | .launch q => Sys2Proof.Machine.execLaunch q s
  | .copy q => Sys2Proof.Machine.execCopy q s
  | .wait q => Sys2Proof.Machine.execWait q s
  | .signal q => Sys2Proof.Machine.execSignal q s
  | .marker q => Sys2Proof.Machine.execMarker q s
  | .traceOpen q => Sys2Proof.Machine.execTraceOpen q s
  | .traceClose q => Sys2Proof.Machine.execTraceClose q s
  | .traceFlush q => Sys2Proof.Machine.execTraceFlush q s
  | .launchCompletion n => Sys2Proof.Machine.execLaunchCompletion n s
  | .tail q v => Sys2Proof.Machine.execTail q v s
  | .ctrlRestart q => Sys2Proof.Machine.execCtrlRestart q s
  | .ctrlReset q => Sys2Proof.Machine.execCtrlReset q s
  | .translationWalk asid w => Sys2Proof.Machine.execTranslationWalk asid w s
  | .ccntAdvance asid v => Sys2Proof.Machine.execCcntAdvance asid v s
  | .asidInvalidate asid lo hi => Sys2Proof.Machine.execAsidInvalidate asid lo hi s
  | .preemption team => Sys2Proof.Machine.execPreemption team s
  | .contextRestore r => Sys2Proof.Machine.execContextRestore r s
  | .watchdog asid => Sys2Proof.Machine.execWatchdog asid s
  | .rollback team => Sys2Proof.Machine.execRollback team s
  | .refreshDoubled die r => Sys2Proof.Machine.execRefreshDoubled die r s
  | .refreshNormal die r => Sys2Proof.Machine.execRefreshNormal die r s
  | .layerTripped die r => Sys2Proof.Machine.execLayerTripped die r s
  | .layerServesAgain die r => Sys2Proof.Machine.execLayerServesAgain die r s
  | .ductusDecision => Sys2Proof.Machine.execDuctusDecision s
  | .clockRaise isl => Sys2Proof.Machine.execClockRaise isl s
  | .retentionEntry isl => Sys2Proof.Machine.execRetentionEntry isl s
  | .retentionWake isl => Sys2Proof.Machine.execRetentionWake isl s
  | .coolantHot => Sys2Proof.Machine.execCoolantHot s
  | .coolantNormal => Sys2Proof.Machine.execCoolantNormal s
  | .boot => Sys2Proof.Machine.execBoot s
  | .challengeAuth transcript => Sys2Proof.Machine.execChallengeAuth transcript s
  | .measurements transcript => Sys2Proof.Machine.execMeasurements transcript s
  | .status => Sys2Proof.Machine.execStatus s
  | .flashwrite slot data => Sys2Proof.Machine.execFlashwrite slot data s
  | .qcreate q asid prio ring n cring m => Sys2Proof.Machine.execQcreate q asid prio ring n cring m s
  | .notify base n => Sys2Proof.Machine.execNotify base n s
  | .halt whole id => Sys2Proof.Machine.execHalt whole id s
  | .read sid r => Sys2Proof.Machine.execRead sid r s
  | .write sid r v => Sys2Proof.Machine.execWrite sid r v s
  | .step sid => Sys2Proof.Machine.execStep sid s
  | .resume sid => Sys2Proof.Machine.execResume sid s
  | .contextRecordWrite r => Sys2Proof.Machine.execContextRecordWrite r s
  | .quotaWrite core asid v => Sys2Proof.Machine.execQuotaWrite core asid v s
  | .windowBind asid lo hi => Sys2Proof.Machine.execWindowBind asid lo hi s
  | .logRead r => Sys2Proof.Machine.execLogRead r s
  | .ageingRead cluster => Sys2Proof.Machine.execAgeingRead cluster s
  | .hostWindowAccess n addr width a => Sys2Proof.Machine.execHostWindowAccess n addr width a s
  | .folioDrain cluster => Sys2Proof.Machine.execFolioDrain cluster s
  | .powerGate cluster forced => Sys2Proof.Machine.execPowerGate cluster forced s
  | .flitRetry e => Sys2Proof.Machine.execFlitRetry e s
  | .portDown port => Sys2Proof.Machine.execPortDown port s
  | .peerUnreachable pkg sid => Sys2Proof.Machine.execPeerUnreachable pkg sid s
  | .peerRequest src r => Sys2Proof.Machine.execPeerRequest src r s
  | .islandCycle isl => Sys2Proof.Machine.execIslandCycle isl s
  | .illegalWord w => Sys2Proof.Machine.execIllegalWord w s
  | .clauseHeaderFetch w => Sys2Proof.Machine.execClauseHeaderFetch w s
  | .storageError e => Sys2Proof.Machine.execStorageError e s
  | .holeAdded x y => Sys2Proof.Machine.execHoleAdded x y s
  | .portUp port pkg => Sys2Proof.Machine.execPortUp port pkg s

end Sys2Proof.Machine
end

