-- ==== Sys2Proof/Machine/Schedule.lean ====
section
/-! DEFINITION. What one step of the package is: the issue of a word (R65, R66, R85, R164, R408), the agenda's turns, and,
when the agenda is empty, an order of the model's own (log 1) in which scribes (R231 to R233) and engines take turns. -/

namespace Sys2Proof.Machine

open Sys2Proof

/-! ## What a word waits for at the scoreboard -/

/-- The lane registers that a word writes. -/
def State.laneDests (s : State) (i : Instr) : List Nat :=
  let wide := fun (d : BitVec 6) (w : BitVec 4) => pair (s.vr d.toNat) (widthOf w.toNat)
  match i with
  | .vcmp .. | .vcmpF .. | .fcmpu .. | .vpick .. | .stw .. | .ste .. | .lcopy .. | .mloop .. | .dry .. | .wetq .. => []
  | .ldw _ d _ _ _ w => wide d w
  | .ldeB _ d _ w | .ldeI _ d _ w | .vamoAdd _ d _ w | .vamoMinI _ d _ w | .vamoMaxI _ d _ w | .vamoMinB _ d _ w | .vamoMaxB _ d _ w
  | .vamoAnd _ d _ w | .vamoOr _ d _ w | .vamoXor _ d _ w | .vamoSwap _ d _ w | .vamoCas _ d _ w | .vamoBfadd _ d _ w => wide d w
  | .zcvtReg d _ _ f _ => (List.range (2 * (cvtFmt f.toNat).width)).map fun k => s.vr (d.toNat + k)
  | _ => ((laneFields i).take 1).map s.vr

/-- R217: a register that a loop of the issuing scribe has still to collect, in some lane. -/
def State.uncollected (s : State) (reg : Nat) : Bool :=
  s.loops.any fun q => q.2.sid = s.me.at_.id && q.2.va.any fun va =>
    va ≤ reg && reg < va + q.2.aCount && (lanesOf q.2.lanes).any fun k => q.2.ran k ≤ (reg - va) / (16 * q.2.linesA)

/-- The plane lines that a word of the issuing scribe touches in its own accesses: scalar, lane and tile accesses, the operands of a loop,
a barrier's object, the line that a PROBE looks at, the lines of a scroll or fill, and what a kick reads and lands on (R191, R249). -/
def State.touches (s : State) (i : Instr) : List Nat :=
  let lanesAt := fun (store amo : Bool) (g : BitVec 4) (a : BitVec 6) (dx dy : Int) (w : Nat) =>
    match s.lanePlane store amo dx dy w (s.depthOf (s.vr a.toNat)) (lanesOf (s.active g)) with
    | .ok ts => ts.flatMap fun t => match t.2 with
      | .cell c _ => linesIn c w
      | .none _ _ => []
    | .error _ => []
  let scalar := fun (cr : BitVec 4) (x : BitVec 5) (w : Nat) => match s.scalarAddr cr.toNat x.toNat with
    | .ok (c, a) => if c.space = 1 then linesIn a w else []
    | .error _ => []
  let tiles := fun (a : BitVec 5) (w : Nat) => (lanesOf s.live).flatMap fun l => tileLines (s.me.at_.peOf l) (s.getS a.toNat).toNat w
  let object := fun (a : BitVec 5) => [(s.getS a.toNat).toNat % 2 ^ 33 / 512]
  let scrolled := fun (e m : Nat) (dx dy : Int) => s.rectLines (s.getE e) (s.touched s.me.at_.asid (s.getE e) m dx dy)
  let filled := fun (e : BitVec 3) => s.rectLines (s.getE e.toNat) (rectPes (s.getE e.toNat))
  match i with
  | .ldB _ c x w _ _ | .ldI _ c x w _ _ | .st _ c x w _ _ | .amoAdd _ c x w _ _ | .amoMin _ c x w _ _ | .amoMax _ c x w _ _
  | .amoAnd _ c x w _ _ | .amoOr _ c x w _ _ | .amoXor _ c x w _ _ | .amoSwap _ c x w _ _ | .amoCas _ c x w _ _ | .amoBfadd _ c x w _ _
  | .amoBfset _ c x w _ _ => scalar c x (widthOf w.toNat)
  | .ldc _ c x _ _ | .stc _ c x _ _ => scalar c x 128
  | .ldw g _ a x y w => lanesAt false false g a x.toInt y.toInt (widthOf w.toNat)
  | .ldeB g _ a w | .ldeI g _ a w => lanesAt false false g a 0 0 (widthOf w.toNat)
  | .stw g _ a x y w => lanesAt true false g a x.toInt y.toInt (widthOf w.toNat)
  | .ste g _ a w => lanesAt true false g a 0 0 (widthOf w.toNat)
  | .vamoAdd g _ a w | .vamoMinI g _ a w | .vamoMaxI g _ a w | .vamoMinB g _ a w | .vamoMaxB g _ a w | .vamoAnd g _ a w | .vamoOr g _ a w
  | .vamoXor g _ a w | .vamoSwap g _ a w | .vamoCas g _ a w | .vamoBfadd g _ a w => lanesAt true true g a 0 0 (widthOf w.toNat)
  | .zld a _ | .zst a _ => tiles a 2048
  | .zcvt a _ _ f _ => tiles a (64 * (cvtFmt f.toNat).width)
  | .mloop z a d b f bs k =>
    let x := s.mloopIn a.toNat d.toNat b.toNat f.toNat bs.toNat (k = 1)
    let l := s.mkLoop z.toNat x
    (lanesOf l.lanes).flatMap fun k => (List.range l.steps).flatMap fun st => l.stepLines s.me.at_ k st
  | .binit a _ _ | .barrive a _ _ _ | .bwait a _ | .btest a _ | .bexpect a _ => object a
  | .probe _ a => object a
  | .scroll e x y m => scrolled e.toNat m.toNat x.toInt y.toInt
  | .scrollReg e a b m => scrolled e.toNat m.toNat (s.getS a.toNat).toInt (s.getS b.toNat).toInt
  | .scrollResume =>
    let v := s.me.ctl.scs.toNat
    scrolled (bits v 39 3) (bits v 36 3) (s9 v 0 - s9 v 18) (s9 v 9 - s9 v 27)
  | .pfill e | .pfillZero e | .pfillScalar e _ | .ssubCell _ _ _ e => filled e
  | .qkick l p n =>
    let ln := planeAddr (s.me.at_.peOf (s.getS l.toNat).toNat) (s.getS p.toNat).toNat / 512
    let k := min (s.getS n.toNat).toNat 16
    (List.range (2 * k)).map (· + ln) ++ (s.readDescs ln k).2.flatMap fun q => q.2.kicked s
  | .spub a _ =>
    let ln := (s.getS a.toNat).toNat % 2 ^ 33 / 512
    [ln, ln + 1] ++ (s.readDesc ln).kicked s
  | .lcopy a c v d n q =>
    let k := s.getC c.toNat
    object a ++ (lanesOf (s.active (BitVec.ofNat 4 (n.toNat * 8 + q.toNat)))).flatMap fun l =>
      planeAddr (s.me.at_.peOf l) (s.getV (s.vr d.toNat) l).toNat / 512
        :: (if k.space = 1 then linesIn (s.lcopySrc k (s.vr v.toNat) l) 128 else [])
  | .coll a b => s.collTouches (s.getS a.toNat).toNat (s.getS b.toNat).toNat
  | .park c _ _ => if (s.getC c.toNat).space = 1 then [(s.getC c.toNat).cursor / 512] else []
  | _ => []

/-- What keeps the word of instruction `i` from issuing: a register that a loop has to collect (R217); the acquire that the first access to a
line opened by another scribe is (R205). -/
def State.heldWord (s : State) (i : Instr) : Option Park :=
  if (s.laneDests i).any s.uncollected then some .operand
  else if s.me.run.fresh ≠ [] ∧ (s.touches i).any s.me.run.fresh.contains ∧ (s.acquire 1).toBool = false then some .fence
  else none

/-! ## The issue of one word -/

/-- The word `w` issues: it pays, its checks run, and it takes its effect (R85), once nothing at the scoreboard holds it. -/
noncomputable def State.word (s : State) (w : BitVec 32) : Host.Outcome State Fault Refusal :=
  match s.pay w.toNat with
  | none => .next (s.parkMe (if permitClass (bits w.toNat 26 6) = 3 then .memPermit else .permit))
  | some s1 => match decode w with
    | .error _ => exec (.illegalWord w) s1
    | .ok i => match s1.clauseCheck w.toNat i with
      | some t => finish s1 (trap t)
      | none => match s1.heldWord i with
        | some p => .next (s1.parkMe p)
        | none => exec i s1

/-- R83: the word XIM and the word after it issue together. -/
noncomputable def State.pair (s : State) (p : BitVec 26) : Host.Outcome State Fault Refusal :=
  match exec (.xim p) s with
  | .next t =>
    if t.me.ctl.xim.isNone then .next t
    else match t.fetch with
      | .error e => finish t (.error e)
      | .ok (t1, w) => t1.word w
  | o => o

/-- The issuing scribe takes its next word: a deliverable event, a header, a word, or a word XIM with the word after it. -/
noncomputable def State.issue (s : State) : Host.Outcome State Fault Refusal :=
  if s.deliverable then exec .deliverableEventEntry s
  else match s.fetch with
    | .error e => finish s (.error e)
    | .ok (s1, w) =>
      if s.me.ctl.remain = 0 then exec (.clauseHeaderFetch w) s
      else if bits w.toNat 26 6 = 0x11 ∧ s.me.ctl.xim.isNone then s1.pair (w.setWidth 26)
      else s1.word w

/-! ## After a step -/

/-- A scribe that issues words of its own; a shadow runs in lock step with its leader (R350). -/
def Scribe.canIssue (c : Scribe) : Bool := c.run.life = .running && !c.at_.shadow

/-- A scribe whose next word may be tried: it does not wait on an entry of the fault queue, or an event is due (R333). -/
def Scribe.tryable (c : Scribe) : Bool := c.canIssue && (c.run.park.isNone || c.run.retry) && (c.run.waitEntry = 0 || c.eventDue)

/-- What happened may be what a parked scribe waits for. One with a watch issues its word again only for an event (R272): its atom is tested
at the home (R271). -/
def Scribe.mayRetry (c : Scribe) : Scribe :=
  if c.run.park.isSome ∧ (c.eventDue ∨ c.run.watch.isNone) then { c with run := { c.run with retry := true } } else c

def State.retryAll (s : State) : State := s.mapScribes Scribe.mayRetry

/-- The issuing scribe's word is tried. -/
def State.tried (s : State) : State := s.onRun fun r => { r with park := none, retry := false }

/-! ### Checked pairs (R350) -/

/-- What changed from `old` to `new` changes in the shadow's table too. -/
def followTbl {α : Type} [DecidableEq α] (d : α) (old new sh : Tbl α) : Tbl α :=
  if sh = old then new
  else ((old ++ new).map (·.1)).foldl (fun t k => if look d old k = look d new k then t else put d t k (look d new k)) sh

def followVal {α : Type} [DecidableEq α] (old new sh : α) : α := if old = new then sh else new

/-- The shadow takes loaded values and landed lines from its leader's queue: what changes in the leader's registers by no word of
its own. -/
def Regs.follow (old new sh : Regs) : Regs :=
  { x := followTbl 0 old.x new.x sh.x, c := followTbl emptyCap old.c new.c sh.c, v := followTbl 0 old.v new.v sh.v,
    q := followTbl 0 old.q new.q sh.q, e := followTbl 0 old.e new.e sh.e, z := followTbl 0 old.z new.z sh.z,
    zPoison := followTbl false old.zPoison new.zPoison sh.zPoison, rng := followTbl 0 old.rng new.rng sh.rng,
    pv := followTbl 0 old.pv new.pv sh.pv, ps := followTbl false old.ps new.ps sh.ps, pcap := followTbl false old.pcap new.pcap sh.pcap,
    k := followTbl 0 old.k new.k sh.k }

/-- The same of the control registers that an engine, a controller or the host writes, and of a position that the host sets. -/
def Ctl.follow (old new sh : Ctl) : Ctl :=
  if sh = old then new
  else if old.pc = new.pc ∧ old.remain = new.remain then
    { sh with wets := followVal old.wets new.wets sh.wets, holef := followVal old.holef new.holef sh.holef,
              scs := followVal old.scs new.scs sh.scs, done := followVal old.done new.done sh.done,
              risked := followVal old.risked new.risked sh.risked, xim := followVal old.xim new.xim sh.xim }
  else new

/-- Every shadow follows what changed in its leader. -/
def State.follow (before after : State) : State :=
  (after.allScribes.filter fun c => !c.at_.shadow && c.at_.pair.isSome).foldl (fun s c =>
    match before.scribe c.at_.id, c.at_.pair.bind fun sh => find s.others sh.toNat with
    | some b, some d => s.setScribe { d with r := Regs.follow b.r c.r d.r, ctl := Ctl.follow b.ctl c.ctl d.ctl }
    | _, _ => s) after

/-! ### Latent errors (R177) -/

/-- The lane registers that a word reads: it writes the first it names, and reads the rest, but for the words listed. A store of 64 bits
reads a pair. -/
def State.laneReads (s : State) (i : Instr) : List Nat :=
  match i with
  | .stw _ d a _ _ w | .ste _ d a w => s.vr a.toNat :: Machine.pair (s.vr d.toNat) (widthOf w.toNat)
  | .vamoAdd _ d a w | .vamoMinI _ d a w | .vamoMaxI _ d a w | .vamoMinB _ d a w | .vamoMaxB _ d a w | .vamoAnd _ d a w | .vamoOr _ d a w
  | .vamoXor _ d a w | .vamoSwap _ d a w | .vamoBfadd _ d a w => s.vr a.toNat :: Machine.pair (s.vr d.toNat) (widthOf w.toNat)
  | .vamoCas _ d a w => s.vr a.toNat :: (Machine.pair (s.vr d.toNat) (widthOf w.toNat)
      ++ Machine.pair (s.vr d.toNat + (Machine.pair (s.vr d.toNat) (widthOf w.toNat)).length) (widthOf w.toNat))
  | .vcmp .. | .vcmpF .. | .fcmpu .. | .vpick .. | .vmad .. | .vbfi .. | .fdot2 .. | .fma .. | .fms .. | .fnma .. | .lcopy .. => (laneFields i).map s.vr
  | _ => ((laneFields i).drop 1).map s.vr

/-- The word that the scribe issues, after a word XIM too. -/
noncomputable def State.issuing (s : State) : Option (BitVec 32) :=
  match s.tried.fetch with
  | .ok (s1, w) =>
    if bits w.toNat 26 6 ≠ 0x11 ∨ s.me.ctl.xim.isSome then some w
    else (match exec (.xim (w.setWidth 26)) s1 with
      | .next t => (match t.fetch with
        | .ok (_, w1) => some w1
        | .error _ => none)
      | _ => none)
  | .error _ => none

/-- The instruction that it issues. -/
noncomputable def State.issuingInstr (s : State) : Option Instr :=
  if s.me.ctl.remain = 0 then none
  else s.issuing.bind fun w => match decode w with
    | .error _ => none
    | .ok i => some i

/-- The guard of a lane word: in bits [25:22], in LCOPY in [3:0] (R299). -/
def guardOf (i : Instr) : BitVec 4 :=
  match i with
  | .lcopy .. => BitVec.ofNat 4 (bits (encodeNat i) 0 4)
  | _ => BitVec.ofNat 4 (bits (encodeNat i) 22 4)

/-- A register that a word consumes in lanes of its own, whatever its guard leaves active: the other operand of VSEL (R135), and the source of
a word that moves values between lanes (R139 to R142). -/
def State.consumes (s : State) (i : Instr) : Option (Nat × Word) :=
  match i with
  | .vsel g _ _ b => some (s.vr b.toNat, s.live &&& ~~~s.active g)
  | .vperm g _ a b | .vpermM g _ a b => some (s.vr a.toNat, s.sources (s.active g) fun l => some (bits (s.getV (s.vr b.toNat) l).toNat 0 6))
  | .vshufx g _ a mode k => some (s.vr a.toNat, s.sources (s.active g) (s.me.shufPos false mode.toNat k.toInt))
  | .vshufy g _ a mode k => some (s.vr a.toNat, s.sources (s.active g) (s.me.shufPos true mode.toNat k.toInt))
  | .vbcast g _ a p => some (s.vr a.toNat, s.sources (s.active g) fun _ => some p.toNat)
  | _ => none

/-- The words with an undetected error that a lane word reads in lanes its guard masks off, and does not consume. -/
noncomputable def State.latentKeys (s : State) : List Nat :=
  if s.me.r.pv.all (fun p => p.2 ≠ 3) then []
  else match s.issuingInstr with
    | none => []
    | some i =>
      let off := s.liveLanes s.me.at_ &&& ~~~(s.active (guardOf i))
      let used := fun (r l : Nat) => (s.consumes i).any fun c => c.1 = r && bitOf c.2 l
      ((s.laneReads i).flatMap fun r => ((lanesOf off).filter fun l => !used r l).map fun l => vKey r l).filter fun k => look 0 s.me.r.pv k = 3

/-! ### A shadow that has strayed (R350) -/

/-- Two states that differ in nothing but what the scribe that issues holds in its registers. -/
def State.sameBut (s t : State) : Bool := s = { t with me := { t.me with r := s.me.r, ctl := s.me.ctl } }

/-- A mismatch: the leader's word has no effect, and its team rolls back or dies. -/
def State.mismatched (s : State) : State :=
  match s.team s.me.at_.team with
  | some t => s.setTeam { t with failing := true }
  | none => s

/-- The shadow of the scribe that issues, if it holds other values than its leader. -/
def State.strayed (s : State) : Option Scribe :=
  (s.me.at_.pair.bind fun sh => find s.others sh.toNat).filter fun c => c.at_.shadow && !(c.r = s.me.r && c.ctl = s.me.ctl)

/-- Operand registers of a word: predicates, scalar, capability, lane, rectangle and tile registers. -/
structure Operands where
  q : List Nat := []
  x : List Nat := []
  c : List Nat := []
  v : List Nat := []
  e : List Nat := []
  z : List Nat := []

/-- The operands of a format SM word. -/
def smOperands (data : List Nat) (c : BitVec 4) (x : BitVec 5) : Operands := { x := data ++ (if x = 0 then [] else [x.toNat]), c := [c.toNat] }

/-- The address, operands and value of a store, an atomic, a kick, an ownership instruction or BARRIVE; none for any other word. -/
def State.released (s : State) (i : Instr) : Option Operands :=
  let guarded := fun (o : Operands) => { o with q := [bits (guardOf i).toNat 0 3] }
  match i with
  | .st d c x _ _ _ | .amoAdd d c x _ _ _ | .amoMin d c x _ _ _ | .amoMax d c x _ _ _ | .amoAnd d c x _ _ _ | .amoOr d c x _ _ _
  | .amoXor d c x _ _ _ | .amoSwap d c x _ _ _ | .amoBfadd d c x _ _ _ | .amoBfset d c x _ _ _ => some (smOperands [d.toNat] c x)
  | .amoCas d c x _ _ _ => some (smOperands [d.toNat, d.toNat + 1] c x)
  | .stc t c x _ _ => some { smOperands [] c x with c := [t.toNat, c.toNat] }
  | .stw .. | .ste .. | .vamoAdd .. | .vamoMinI .. | .vamoMaxI .. | .vamoMinB .. | .vamoMaxB .. | .vamoAnd .. | .vamoOr .. | .vamoXor ..
  | .vamoSwap .. | .vamoCas .. | .vamoBfadd .. => some (guarded { v := s.laneReads i })
  | .zst a z | .zcvt a _ _ _ z => some { x := [a.toNat], z := [z.toNat] }
  | .qkick l p n => some { x := [l.toNat, p.toNat, n.toNat] }
  | .coll a b => some { x := [a.toNat, b.toNat] }
  | .spub a _ => some { x := [a.toNat] }
  | .ssubCell a b _ e => some { x := [a.toNat, b.toNat], e := [e.toNat] }
  | .lcopy a c _ _ _ _ => some (guarded { x := [a.toNat], c := [c.toNat], v := s.laneReads i })
  | .own e | .share e | .claim e => some { e := [e.toNat] }
  | .give a e | .pass a e => some { x := [a.toNat], e := [e.toNat] }
  | .barrive a b _ _ => some { x := [a.toNat, b.toNat] }
  | _ => none

/-- The registers that a load takes its address from, without those that it writes. -/
def State.addressed (s : State) (i : Instr) : Operands × Operands :=
  let both := fun (o : Operands) (x c v : List Nat) =>
    (o, { o with x := o.x.filter (!x.contains ·), c := o.c.filter (!c.contains ·), v := o.v.filter (!v.contains ·) })
  match i with
  | .ldB d c x _ _ _ | .ldI d c x _ _ _ => both (smOperands [] c x) [d.toNat] [] []
  | .ldc d c x _ _ => both (smOperands [] c x) [] [d.toNat] []
  | .ldw .. | .ldeB .. | .ldeI .. => both { v := s.laneReads i } [] [] (s.laneDests i)
  | .zld a _ => both { x := [a.toNat] } [] [] []
  | _ => ({}, {})

/-- Whether two scribes hold the same operands, in the lanes given. -/
def Scribe.sameOperands (a b : Scribe) (lanes : List Nat) (o : Operands) : Bool :=
  o.q.all (fun n => a.getQ n = b.getQ n) && o.x.all (fun n => a.getS n = b.getS n) && o.c.all (fun n => a.getC n = b.getC n) && o.e.all (fun n => look 0 a.r.e n = look 0 b.r.e n)
    && o.v.all (fun n => lanes.all fun l => a.getV n l = b.getV n l)
    && o.z.all (fun z => lanes.all fun l => (List.range 64).all fun k => a.getZ z l k = b.getZ z l k)

/-- Registers with those of a list as another scribe holds them. -/
def Regs.lent (r : Regs) (d : Nat) (from_ : Regs) (o : Operands) : Regs :=
  { r with x := o.x.foldl (fun t n => put 0 t (xKey d n) (look 0 from_.x (xKey d n))) r.x,
           c := o.c.foldl (fun t n => put emptyCap t n (look emptyCap from_.c n)) r.c,
           v := (o.v.flatMap fun n => (List.range 64).map fun l => vKey n l).foldl (fun t k => put 0 t k (look 0 from_.v k)) r.v }

/-- The shadow runs the leader's word in step with it (log 96). One that holds other values runs its own, with the same memory. What it
would let out must be the leader's address, operands and value; a load gives it what the leader's queue holds, the value at the leader's
address; and anything else that the two do differently outside their own registers is a mismatch. -/
noncomputable def State.mirror (before after : State) : State :=
  match before.strayed with
  | none => before.follow after
  | some c =>
    let i := before.issuingInstr
    let its : State := { before with me := { before.me with r := c.r, ctl := c.ctl } }
    let lanes := lanesOf (before.liveLanes before.me.at_)
    let letsOut := fun (s : State) => s.issuingInstr.bind s.released
    if ((letsOut before).isSome ∨ (letsOut its).isSome) ∧ (i ≠ its.issuingInstr ∨ (letsOut before).any fun o => !before.me.sameOperands c lanes o) then before.mismatched
    else
      let (lent, back) := (i.map before.addressed).getD ({}, {})
      match ({ before with me := { before.me with r := c.r.lent c.ctl.depth before.me.r lent, ctl := c.ctl } } : State).tried.issue with
      | .next t =>
        if t.sameBut after then
          (match find after.others c.at_.id.toNat with
          | some d => after.setScribe { d with r := t.me.r.lent c.ctl.depth c.r back, ctl := t.me.ctl }
          | none => after)
        else before.mismatched
      | _ => before.mismatched

/-- R205: the lines that the word touches are fresh no more, unless an event was taken before it. -/
noncomputable def State.firstTouch (before after : State) : State :=
  if before.me.run.fresh = [] ∨ before.deliverable then after
  else match before.issuingInstr with
    | none => after
    | some i => after.asScribe before.me.at_.id fun t => t.onRun fun r => { r with fresh := r.fresh.filter fun l => !(before.touches i).contains l }

/-- An error found in a lane that the word masks off is logged, and marks the word poisoned (log 128); not where an event was taken before
the word, which has read nothing then (R168). -/
noncomputable def State.latentSeen (before after : State) : State :=
  (if before.deliverable then [] else before.latentKeys).foldl (fun s k =>
    (s.logFor before.me.at_.asid (scribeLog (dieOf before.me.at_.id)) 0 2 0 before.me.at_.id.toNat 0 0 0).onR fun r =>
      if look 0 r.pv k = 3 then { r with pv := put 0 r.pv k 1 } else r) after

/-- R378: a scribe that the host lets run one word is held again after it, not after a turn that entered an event or read a header. -/
def State.stepHeld (before after : State) : State :=
  if after.me.run.stepOne ∧ after.me.run.life = .running ∧ after.me.ctl.xim.isNone ∧ before.deliverable = false ∧ before.me.ctl.remain ≠ 0
  then after.debugStop else after

/-- R378: the same of scribes whose words, parked before, a step has ended, but for the scribe `but` that issued. -/
def State.stepsDone (before : State) (but : Option (BitVec 14)) (after : State) : State :=
  (after.allScribes.filter fun c => c.run.stepOne && c.run.life = .running && c.run.park.isNone && but ≠ some c.at_.id
    && (before.scribe c.at_.id).any fun b => b.run.stepOne && b.run.life = .running && b.run.park.isSome).foldl
    (fun s c => s.asScribe c.at_.id State.debugStop) after

/-! ## Which scribe issues next (R232 to R234) -/

/-- A scribe in the middle of a hold run. -/
def Scribe.holds (c : Scribe) : Bool := c.run.hold = 2 && c.ctl.remain ≠ 0

/-- The rank in its slot. A scribe that fetches a header, which costs no issue cycle, goes first; then a hold run, the urgent, one
whose hold run begins once no other is urgent, those not deferred, and the rest. -/
def Scribe.rank (c : Scribe) : Nat :=
  if c.ctl.remain = 0 then 0 else if c.holds then 1 else if c.isUrgent then 2 else if c.run.hold = 1 then 3
  else if c.run.deferred then 5 else 4

/-- Whether one scribe is chosen before another of its slot. Of two hold runs under way in one slot, which R233 does not speak of, that of
the older stamp goes first (the model's choice, log 149). -/
def Scribe.before (c d : Scribe) : Bool :=
  c.rank < d.rank || (c.rank = d.rank && (c.run.stamp < d.run.stamp || (c.run.stamp = d.run.stamp && c.at_.id.toNat < d.at_.id.toNat)))

/-- The scribe chosen of a list. -/
def chosen : List Scribe → Option Scribe
  | [] => none
  | c :: cs => match chosen cs with
    | none => some c
    | some d => if d.before c then some d else some c

/-- The least number of a list, from `a` on if there is one. -/
def nextFrom (a : Nat) (l : List Nat) : Option Nat :=
  let least := fun (l : List Nat) => l.foldl (fun m x => match m with
    | some y => some (min x y)
    | none => some x) none
  (least (l.filter (a ≤ ·))).orElse fun _ => least l

/-- A scribe whose word may be tried: none of a team that is to roll back or die (R349), or that the watchdog has stopped, once the scribe
stands at a precise point (R174, R336). -/
def State.mayTry (s : State) (c : Scribe) : Bool :=
  c.tryable && !(match s.team c.at_.team with
    | some t => t.failing || (t.held && c.ctl.xim.isNone)
    | none => false)

def State.tryables (s : State) : List Scribe := s.allScribes.filter s.mayTry

/-- R234: who joins the issue under way in its slot next. -/
def State.joiner (s : State) : Option Scribe := chosen (s.tryables.filter fun c => c.joins (look {} s.islands (islandOf c.at_.id)).pack)

/-- The scribe that a slot chooses. -/
def State.slotChoice (s : State) (slot : Nat) : Option Scribe := chosen (s.tryables.filter fun c => islandOf c.at_.id = slot)

/-- The scribe that issues next: who joins an issue under way; else the choice of the next slot, in turn, that has one to try. -/
def State.nextIssuer (s : State) : Option Scribe :=
  match s.joiner with
  | some c => some c
  | none => match nextFrom (islandOf s.me.at_.id + 1) (s.tryables.map fun c => islandOf c.at_.id) with
    | none => none
    | some k => s.slotChoice k

/-- Whether the issuing scribe is the one that issues. -/
def State.myTurn (s : State) : Bool :=
  (s.joiner.orElse fun _ => s.slotChoice (islandOf s.me.at_.id)).any fun c => c.at_.id = s.me.at_.id && s.me.run.life ≠ .free

/-- Make a scribe the one that issues. -/
def State.turnTo (s : State) (c : Scribe) : State :=
  if c.at_.id = s.me.at_.id ∧ s.me.run.life ≠ .free then s else s.switchTo c.at_.id.toNat

/-- Give the issue to the scribe that is next. -/
def State.handOver (s : State) : State :=
  match s.nextIssuer with
  | some c => s.turnTo c
  | none => s

/-- R231: a scribe is ready: its next word, fetched already, would issue. -/
noncomputable def State.isReady (s : State) (c : Scribe) : Bool :=
  s.mayTry c && c.ctl.remain ≠ 0 && !c.run.began && (match (s.turnTo c).tried.issue with
    | .next t => t.me.run.park.isNone
    | _ => false)

/-- R232: the other scribes of a slot that were ready as one issued have waited one issue cycle more. The cycles add up over waits and
handlers until the scribe issues (the model's choice, log 132). -/
noncomputable def State.countWaits (before after : State) : State :=
  let slot := islandOf before.me.at_.id
  if (look {} after.islands slot).issues = before.island.issues then after
  else after.mapScribes fun c =>
    if islandOf c.at_.id = slot ∧ c.at_.id ≠ before.me.at_.id ∧ before.isReady c then { c with run := { c.run with ready := c.run.ready + 1 } } else c

/-- A word that has issued and waits to complete: its issue cycle counts as any other's (R232, R273). -/
def Run.begin_ (r : Run) (last : Bool) (now : Nat) : Run :=
  { r with stamp := if last then now else r.stamp, ready := 0, urgent := false, deferred := false }

/-- A word that parks has not issued: what it paid comes back, its word XIM stands before it again (R161), and a hold run ends where the
word waits at the scoreboard (R21, R233). A word that has begun and waits to complete keeps its permit paid. -/
def State.putBackWord (before after : State) : State :=
  let c := before.me.ctl
  let key := islandOf before.me.at_.id
  let began := after.me.run.began
  let t := if began then after else { after with islands := put {} after.islands key before.island }
  let t1 := if c.xim.isNone ∧ t.me.ctl.xim.isSome then t.onCtl fun k => { k with pc := c.pc, remain := c.remain, xim := none } else t
  t1.onRun fun r =>
    if began then (if before.me.run.began then r else r.begin_ (c.remain ≤ 1) after.island.issues)
    else { r with hold := if before.me.run.hold = 2 ∧ r.park.any atScoreboard then 0 else before.me.run.hold }

/-- The issue under way in a slot is over once no scribe joins it. -/
def State.closePack (s : State) (slot : Nat) : State :=
  if s.joiner.isSome then s
  else
    let i : Island := look {} s.islands slot
    { s with islands := put {} s.islands slot { i with pack := {} } }

/-- After the issuing scribe's turn. When it issued, what waits may try again. A word that has begun, and parks to complete, has issued as far
as its shadow and the lines it touches go (R205, R350). -/
noncomputable def State.afterIssue (before after : State) : State :=
  let parked := after.me.run.life = .running ∧ after.me.run.park.isSome
  let u : State := if parked ∧ after.me.run.began ∧ before.me.run.began = false then
      before.countWaits (before.putBackWord (before.firstTouch (before.mirror after))).retryAll
    else if parked then before.countWaits (before.follow (before.putBackWord after))
    else { before.countWaits (before.stepHeld (before.firstTouch (before.latentSeen (before.mirror after)))).retryAll with engineTurn := true }
  ((before.stepsDone (some before.me.at_.id) u).closePack (islandOf before.me.at_.id)).handOver

/-- What a step wrote is noted by the scribes that watch it (R271); objects that have become free get the landings they are owed, and event
words whose layer serves are written. -/
def noted (before : State) (f : State → State) : Host.Outcome State Fault Refusal → Host.Outcome State Fault Refusal
  | .next t => .next ((f t).payAll.payEvents.noteWatches before)
  | o => o

noncomputable def State.issueStep (s : State) : Host.Outcome State Fault Refusal := noted s s.afterIssue s.tried.issue

/-- Whether a step is an error of storage, which befalls one scribe of a pair. -/
def isStorageError : Instr → Bool
  | .storageError _ => true
  | _ => false

/-- The event `i` has happened. -/
def State.afterEvent (before : State) (i : Instr) (t : State) : State :=
  { (before.stepsDone none (if isStorageError i then t else before.follow t)).retryAll.retryColls with engineTurn := false }

/-! ## What engines and controllers do by themselves -/

/-- Steps for every tag of every scribe. -/
noncomputable def State.tagSteps (s : State) : List Instr :=
  s.allScribes.flatMap fun c => c.wet.tags.map fun t => .resolution c.at_.id.toNat t.1

noncomputable def State.scribeSteps (s : State) : List Instr :=
  s.allScribes.flatMap fun c =>
    let n := c.at_.id.toNat
    (if c.run.watch.isSome then [.semwaitRetry n, .watchWake n] else [])
      ++ (if c.run.jobs = [] then [] else [.unitStep n, .planeFillWrite n])
      ++ (if 32 ≤ c.run.ready ∧ c.run.urgent = false then [.urgent n] else [])

noncomputable def State.loopSteps (s : State) : List Instr :=
  s.loops.flatMap fun l => (lanesOf l.2.lanes).map (fun k => .loopStep l.1 k) ++ [.loopCompletion l.1]

noncomputable def State.copySteps (s : State) : List Instr :=
  (s.copies.flatMap fun c => [.lineRequest c.1, .completionRecord c.1]) ++ s.lcopies.map (fun c => .lcopyLanding c.1)
    ++ s.streams.flatMap fun t => (List.range (t.2.subs.length + 1)).flatMap fun i => [.chunk t.1 i, .cellRingSlotLanding t.1 i]

/-- Islands whose counters something waits for. -/
def State.permitIslands (s : State) : List Nat :=
  ((s.allScribes.filter fun c => c.run.park = some .permit || c.run.park = some .memPermit).map fun c => islandOf c.at_.id)
    ++ (s.loops.filter fun l => (s.isl (islandOf l.2.sid)).matrix = 0).map fun l => islandOf l.2.sid

noncomputable def State.permitSteps (s : State) : List Instr := s.permitIslands.map fun k => .islandCycle k

noncomputable def State.queueSteps (s : State) : List Instr :=
  s.queues.flatMap fun q => [.launch q.1, .copy q.1, .wait q.1, .signal q.1, .marker q.1, .traceOpen q.1, .traceClose q.1, .traceFlush q.1]

/-- Islands in retention that something may wait for (R353). -/
def State.retained_ (s : State) : List Nat := (s.islands.filter fun i => i.2.retention).map (·.1)

/-- Launches that wait for room: their priority and context. -/
def State.waitingLaunches (s : State) : List (Nat × BitVec 14) :=
  (s.dies.flatMap fun d => d.2.waiting.filterMap fun w => (find s.launches w.launch).map fun l => (s.prioOf l, l.asid))
  ++ s.queues.filterMap fun q => match s.handing q.1 with
    | some (_, l) => if l.handed < l.total && !s.ready q.1 then some (q.2.prio, l.asid) else none
    | none => none

/-- The priority of a team, and whether a context could use its cores. -/
def State.teamPrio (s : State) (t : Team) : Nat :=
  match find s.launches t.launch with
  | some l => s.prioOf l
  | none => 0
def State.wants (s : State) (asid : BitVec 14) (t : Team) : Bool := t.cores.any fun c => s.partition asid c

/-- R334: the team that the dispatcher pre-empts for a launch of higher priority: of the lowest priority, started last. -/
def State.victim (s : State) : Option Team :=
  let may := (s.teams.map (·.2)).filter fun t => !t.saved && (match find s.ctxs t.asid.toNat with
      | some c => bits c.flags.toNat 0 1 = 1
      | none => false)
    && s.waitingLaunches.any fun w => s.teamPrio t < w.1 && s.wants w.2 t
  may.foldl (fun b t => match b with
    | none => some t
    | some u => if s.teamPrio t < s.teamPrio u ∨ (s.teamPrio t = s.teamPrio u ∧ u.started ≤ t.started) then some t else some u) none

/-- A saved team that no waiting launch of higher priority goes before. -/
def State.mayReturn (s : State) (t : Team) : Bool :=
  t.saved && !t.held && !s.waitingLaunches.any fun w => s.teamPrio t < w.1 && s.wants w.2 t

noncomputable def State.dispatchSteps (s : State) : List Instr :=
  [.batchDispatch] ++ (s.retained_.map fun i => .retentionWake i)
    ++ ((s.teams.filter fun t => t.2.moving = 2 || s.mayReturn t.2).map fun t => .contextRestore { team := t.1, asid := t.2.asid.toNat, spills := [] })
    ++ ((s.teams.filter fun t => t.2.moving = 1 || (t.2.held && !t.2.saved)).map fun t => .preemption t.1)
    ++ ((List.range 4).flatMap fun d => [.teamPlacement d, .drainToFit d])
    ++ (match s.victim with
      | some t => [.preemption t.id.toNat]
      | none => [])
    ++ s.launches.map fun l => .launchCompletion l.1

noncomputable def State.timedSteps (s : State) : List Instr :=
  (List.range s.heldContribs.length).map (fun k => .contributionTimeout k)
    ++ [.ductusDecision] ++ (s.ctxs.map fun c => .watchdog c.1)
    ++ (s.clusters.filter fun c => c.2.folio ≠ []).map fun c => .folioDrain c.1

/-- The steps to look at, in order. -/
noncomputable def State.ownSteps (s : State) : List Instr :=
  ((s.teams.filter fun t => t.2.failing).map fun t => .rollback t.1) ++ s.tagSteps ++ s.scribeSteps ++ s.loopSteps ++ s.copySteps
    ++ s.permitSteps ++ s.queueSteps ++ s.dispatchSteps ++ s.timedSteps

def isNext : Host.Outcome State Fault Refusal → Bool
  | .next _ => true
  | _ => false

/-- The first of them that can be taken. -/
noncomputable def State.autoEvent (s : State) : Option Instr := s.ownSteps.find? fun i => isNext (exec i s)

/-- The step of an engine or controller, if one can be taken. -/
noncomputable def State.engineStep (s : State) : Option (Host.Outcome State Fault Refusal) :=
  s.autoEvent.map fun i => noted s (s.afterEvent i) (exec i s)

/-! ## The agenda -/

/-- Steps that are part of an issue, which the agenda cannot ask for. -/
def isIssueStep : Instr → Bool
  | .illegalWord _ => true
  | .clauseHeaderFetch _ => true
  | _ => false

/-- What an island owes at a device time: its raised clock, its waking, a cycle (R352, R353). -/
noncomputable def Island.owed (key time : Nat) (i : Island) : Option Instr :=
  if i.raising.isSome ∧ i.raiseBy ≤ time then some (.clockRaise key)
  else if i.retention then (if i.waking.any (· ≤ time) then some (.retentionWake key) else none)
  else if i.resident ∧ 64 ≤ i.due time then some (.islandCycle key)
  else none

/-- The nanoseconds until an island owes something next; none when it does not as time goes. -/
def Island.until_ (time : Nat) (i : Island) : Option Nat :=
  let raise := if i.raising.isSome then some (i.raiseBy - time) else none
  let wake := if i.retention then i.waking.map (· - time) else if ¬ i.resident then none else some ((64 - i.due time + 5 * i.clock - 1) / (5 * i.clock))
  match raise, wake with
  | some a, some b => some (min a b)
  | some a, none => some a
  | none, r => r

/-- What is owed at the present time: something of an island, whose cycles up to a decision of Ductus come before it; the decision (R358);
retention (R353); what the outlet of the cold plate calls for (R371). -/
noncomputable def State.owed (s : State) : Option Instr :=
  match s.islands.findSome? fun i => i.2.owed i.1 s.time with
  | some i => some i
  | none =>
    if s.lastDecision + 10000 ≤ s.time then some .ductusDecision
    else match s.islands.find? fun i => s.mayRetain i.1 with
      | some i => some (.retentionEntry i.1)
      | none => [Instr.coolantHot, Instr.coolantNormal].find? fun i => match exec i s with
        | .next _ => true
        | _ => false

/-- The nanoseconds that may pass before something is owed. -/
def State.untilOwed (s : State) : Nat := s.islands.foldl (fun m i => min m ((i.2.until_ s.time).getD m)) (s.lastDecision + 10000 - s.time)

/-- Time passes, but not past what is owed on the way, which comes first. -/
noncomputable def State.passTime (s : State) (ns : Nat) : State :=
  match s.owed with
  | some i => { s with agenda := .event i :: .pass ns :: s.agenda }
  | none =>
    let d := min ns s.untilOwed
    let t := { s with time := s.time + d }
    if d < ns ∨ t.owed.isSome then { t with agenda := .pass (ns - d) :: t.agenda } else t

/-- The turn at the head of the agenda. -/
noncomputable def State.turn (s : State) (t : Turn) : Host.Outcome State Fault Refusal :=
  match t with
  | .pass ns => .next (s.passTime ns)
  | .event i => if isWord i || isIssueStep i then .refused .notEnabled else noted s (s.afterEvent i) (exec i s)
  | .run sid =>
    match s.slotChoice (sid / 16) with
    | some c => if c.at_.id.toNat = sid then (s.turnTo c).issueStep else .refused .notEnabled
    | none => .refused .notEnabled

/-- With an empty agenda: an engine's step after each issue, and the scribes in turn; when none can move, time passes. -/
noncomputable def State.ownTurn (s : State) : Host.Outcome State Fault Refusal :=
  match (if s.engineTurn then s.engineStep else none) with
  | some o => o
  | none =>
    if s.myTurn then s.issueStep
    else match s.nextIssuer with
      | some c => .next (s.turnTo c)
      | none => match s.engineStep with
        | some o => o
        | none => .next (s.passTime 1)

/-! ## A word placed for the next step (log 6) -/

/-- Place the word `w` where the scribe that issues fetches next: the scribe runs, in a clause of class
any, on a page of its own at bit address 0. After the word XIM stands a word that it widens, for the two issue together (R83). -/
def State.place (s : State) (w : Nat) : State :=
  let mj := bits w 26 6
  let page := 0x10000000000
  let me := s.me
  let place := { me.at_ with vregs := 64, tiles := 4, shadow := false }
  let ctl := { me.ctl with
    pc := 32, codeCap := mkCap 0 1024 (pExec + pLoad) 0, header := 0x7F#32,
    remain := if mj = 0x11 then 2 else 1, xim := if mj = 0x2A then some 0 else none }
  let run := { me.run with life := .running, park := none, retry := false, pending := [] }
  { s with
    me := { me with at_ := place, ctl := ctl, run := run }, agenda := [], engineTurn := false,
    dram := writeBytes s.dram (page + 4) (w + if mj = 0x11 then 0x08000000 * 2 ^ 32 else 0) 8,
    eccHard := put 0 s.eccHard (page / 32) 0, eccSoft := put 0 s.eccSoft (page / 32) 0,
    tlb := set s.tlb (tlbKey (place.id.toNat / 64) place.asid 0) ({ phys := page, dev := false, x := true, wr := true, rd := true } : Leaf).pack,
    islands := put {} s.islands (islandOf place.id) {} }

end Sys2Proof.Machine
end

