-- ==== Sys2Proof/Machine/Step.lean ====
section
/-! DEFINITION. One step of the package: the agenda's next turn, or else a turn in the model's own order. -/

namespace Sys2Proof.Machine

open Sys2Proof

/-- One step: an issue under way takes the scribes that join it first (R234); then comes the agenda's next turn, or else the
model's own order. -/
noncomputable def step (s : State) : Host.Outcome State Fault Refusal :=
  match s.joiner with
  | some c => (s.turnTo c).issueStep
  | none => match s.agenda with
    | t :: rest => ({ s with agenda := rest } : State).turn t
    | [] => s.ownTurn

/-- The state with the word placed where `step` fetches next (log 6). -/
def State.withFetchWord (s : State) (nbits w : Nat) : State := s.place (w % 2 ^ nbits % 2 ^ 32)

end Sys2Proof.Machine
end

