-- ==== Sys2Proof/Safety.lean ====
section
/-! DEFINITION. What claims about a run are stated in: the invariant of a state, what a safe step keeps, and frames: what
a word leaves alone. -/

namespace Sys2Proof.Machine

open Sys2Proof

/-! ## The invariant -/

/-- The four memories are in canonical form: addresses strictly rising, no byte that an unlisted address reads as. -/
def State.MemWf (s : State) : Prop :=
  Memory.wf s.plane = true ∧ Memory.wf s.dram = true ∧ Memory.wf s.host = true ∧ Memory.wf s.peer = true

/-- A safe outcome: a next state in which the invariant holds, or a stop that changes nothing. -/
def Safe : Host.Outcome State Fault Refusal → Prop
  | .next t => t.MemWf
  | .fault _ => True
  | .refused _ => True

/-! ## Frames -/

/-- Every byte of every memory reads as before. -/
def State.sameMemory (s t : State) : Prop :=
  ∀ a, readByte t.plane a = readByte s.plane a ∧ readByte t.dram a = readByte s.dram a
    ∧ readByte t.host a = readByte s.host a ∧ readByte t.peer a = readByte s.peer a

/-- The same but for the bytes of the plane from `a` on that hold the bits a .. a + w - 1. -/
def State.sameMemoryBut (s t : State) (a w : Nat) : Prop :=
  (∀ b, b < a / 8 ∨ a / 8 + coverBytes a w ≤ b → readByte t.plane b = readByte s.plane b)
    ∧ ∀ b, readByte t.dram b = readByte s.dram b ∧ readByte t.host b = readByte s.host b ∧ readByte t.peer b = readByte s.peer b

/-- An access of `n` bits at `v`, with `tag` as its place among those that wait, that finds its pages with walks that change nothing, and
no layer that holds it back; `ps` are the pieces it touches. -/
def State.reachesAs (s : State) (who : Who) (tag : Option Nat) (asid : BitVec 14) (k : AKind) (v n : Nat) (ps : List Piece) : Prop :=
  s.walked who asid v n = s ∧ s.heldAt who.sid tag (s.walksOf who.core asid v n) = none ∧ s.translate who.core asid k v n = .ok ps
    ∧ s.heldAt who.sid tag (pieceWords ps) = none

/-- The same for an access that a word makes as it issues. -/
def State.reaches (s : State) (who : Who) (asid : BitVec 14) (k : AKind) (v n : Nat) (ps : List Piece) : Prop :=
  s.reachesAs who none asid k v n ps

/-- Everything outside the context of the scribe that issues is as before. -/
def State.sameElse (s t : State) : Prop := { t with me := s.me } = s

/-- The control part is as before but for the program's position and the count of discarded wet tags. -/
def State.sameCtl (s t : State) : Prop :=
  t.me.ctl = { s.me.ctl with pc := t.me.ctl.pc, remain := t.me.ctl.remain, xim := t.me.ctl.xim, wets := t.me.ctl.wets }

/-- The same, with FPM also left out: the forms that may set flags. -/
def State.sameCtlButFpm (s t : State) : Prop :=
  t.me.ctl = { s.me.ctl with pc := t.me.ctl.pc, remain := t.me.ctl.remain, xim := t.me.ctl.xim, wets := t.me.ctl.wets, fpm := t.me.ctl.fpm }

/-- The scalar words with a key other than `key` are as before, with their poison and their records. -/
def State.sameScalarsBut (s t : State) (key : Nat) : Prop :=
  ∀ k, k ≠ key → look 0 t.me.r.x k = look 0 s.me.r.x k ∧ look false t.me.r.ps k = look false s.me.r.ps k
    ∧ find t.me.wet.s k = find s.me.wet.s k

/-- The lane words are as before, but for those of register `reg` in the lanes of `m`. -/
def State.sameLanesBut (s t : State) (reg : Nat) (m : Word) : Prop :=
  ∀ r l, l < 64 → ¬ (r = reg ∧ bitOf m l = true) →
    t.getV r l = s.getV r l ∧ look 0 t.me.r.pv (vKey r l) = look 0 s.me.r.pv (vKey r l)

/-- The records of lane registers other than `reg` are as before. -/
def State.sameRecordsBut (s t : State) (reg : Nat) : Prop := ∀ r, r ≠ reg → find t.me.wet.v r = find s.me.wet.v r

/-- What a word that writes the scalar code `d` leaves alone: every other register, the control registers, every byte
of memory and everything outside its scribe. -/
def State.scalarFrame (s t : State) (d : Nat) : Prop :=
  s.sameElse t ∧ s.sameMemory t ∧ s.sameCtl t ∧ s.sameScalarsBut t (xKey s.me.ctl.depth d) ∧ t.me.wet.v = s.me.wet.v ∧ t.me.at_ = s.me.at_
    ∧ { t.me.r with x := s.me.r.x, ps := s.me.r.ps } = s.me.r

/-- What a word that writes lane register `reg` in the lanes of `m` leaves alone. -/
def State.laneFrame (s t : State) (reg : Nat) (m : Word) : Prop :=
  s.sameElse t ∧ s.sameMemory t ∧ s.sameCtl t ∧ s.sameLanesBut t reg m ∧ s.sameRecordsBut t reg ∧ t.me.wet.s = s.me.wet.s ∧ t.me.at_ = s.me.at_
    ∧ { t.me.r with v := s.me.r.v, pv := s.me.r.pv } = s.me.r

/-- The same for a floating-point form: it may also set flags and advance the stochastic states of lanes of `m`. -/
def State.fpFrame (s t : State) (reg : Nat) (m : Word) : Prop :=
  s.sameElse t ∧ s.sameMemory t ∧ s.sameCtlButFpm t ∧ s.sameLanesBut t reg m ∧ s.sameRecordsBut t reg ∧ t.me.wet.s = s.me.wet.s ∧ t.me.at_ = s.me.at_
    ∧ { t.me.r with v := s.me.r.v, pv := s.me.r.pv, rng := s.me.r.rng } = s.me.r
    ∧ ∀ l, bitOf m l = false → look 0 t.me.r.rng l = look 0 s.me.r.rng l

/-- What a word that writes no register leaves alone. -/
def State.plainFrame (s t : State) : Prop :=
  s.sameElse t ∧ s.sameMemory t ∧ s.sameCtl t ∧ t.me.r = s.me.r ∧ t.me.wet = s.me.wet ∧ t.me.at_ = s.me.at_

/-! ## Outcomes -/

/-- R153, R177: scalar `code` carries no wet record and no mark of poison, so a word may take its bits. -/
def State.readsS (s : State) (code : Nat) : Prop :=
  s.me.wetS code = none ∧ look false s.me.r.ps (xKey s.me.ctl.depth code) = false

/-- R94: a transfer may go to `t`. -/
def State.goodTarget (s : State) (t : Word) : Prop :=
  t.toNat % 32 = 0 ∧ s.me.ctl.codeCap.base ≤ t.toNat ∧ t.toNat + 32 ≤ s.me.ctl.codeCap.top

/-- R94: the outcome `o` of a transfer to `t` that is taken when `c` holds. -/
def State.branches (s : State) (c : Prop) (t : Word) (o : Host.Outcome State Fault Refusal) : Prop :=
  (¬ c → o = .next s.advance)
  ∧ (c → s.goodTarget t → o = .next (s.jump t))
  ∧ (c → t.toNat % 32 ≠ 0 → o = .next (s.takeTrap { code := cALIGN, detail := 2, tinfo := 496, taddr := t.toNat }))
  ∧ (c → t.toNat % 32 = 0 → ¬ s.goodTarget t → o = .next (s.takeTrap { code := cCAP_BOUNDS, detail := 2, tinfo := 496, taddr := t.toNat }))

/-- The outcome `o` is the trap `t` at the word. -/
def State.traps (s : State) (o : Host.Outcome State Fault Refusal) (t : Trap) : Prop := o = .next (s.takeTrap t)

/-- The outcome `o` writes the lanes of `m` of lane register `d` with `f`, clean, and nothing else. -/
def State.laneGives (s : State) (m : Word) (d : Nat) (f : Nat → Lane) (o : Host.Outcome State Fault Refusal) : Prop :=
  ∃ t, o = .next t ∧ (∀ l, l < 64 → bitOf m l = true → t.getV d l = f l ∧ look 0 t.me.r.pv (vKey d l) = 0) ∧ s.laneFrame t d m
    ∧ t.me.ctl.pc = s.me.ctl.pc + 32 ∧ t.me.ctl.remain = s.me.ctl.remain - 1

/-- R35, R40: the same for a floating-point form: its lanes' words, stochastic states and sticky flags. -/
def State.fpGives (s : State) (m : Word) (d : Nat) (f : Nat → LaneOut) (o : Host.Outcome State Fault Refusal) : Prop :=
  ∃ t, o = .next t
    ∧ (∀ l, l < 64 → bitOf m l = true → t.getV d l = (f l).v ∧ look 0 t.me.r.pv (vKey d l) = 0 ∧ look 0 t.me.r.rng l = (f l).rng)
    ∧ (∀ k, k < 64 → (t.me.ctl.fpm.getLsbD k = true
        ↔ s.me.ctl.fpm.getLsbD k = true ∨ (16 ≤ k ∧ ∃ l, l < 64 ∧ bitOf m l = true ∧ (f l).flags.getLsbD (k - 16) = true)))
    ∧ s.fpFrame t d m ∧ t.me.ctl.pc = s.me.ctl.pc + 32 ∧ t.me.ctl.remain = s.me.ctl.remain - 1

/-- The outcome `o` writes predicate `q` in the lanes of `m`, and nothing else; q0 takes no write (R114). -/
def State.predGives (s : State) (m : Word) (q : Nat) (f : Nat → Bool) (o : Host.Outcome State Fault Refusal) : Prop :=
  ∃ t, o = .next t
    ∧ (q ≠ 0 → ∀ l, l < 64 → bitOf (t.getQ q) l = if bitOf m l then f l else bitOf (s.getQ q) l)
    ∧ (∀ p, p ≠ q ∨ q = 0 → t.getQ p = s.getQ p)
    ∧ s.sameElse t ∧ s.sameMemory t ∧ s.sameCtl t ∧ { t.me.r with q := s.me.r.q } = s.me.r ∧ t.me.wet = s.me.wet ∧ t.me.at_ = s.me.at_
    ∧ t.me.ctl.pc = s.me.ctl.pc + 32 ∧ t.me.ctl.remain = s.me.ctl.remain - 1

/-- R22, R168: `t` is the state after entering the handler with the report `r`, at the word that issues. The registers stay,
but for t0-t3 of an interrupted clause that has them. -/
def State.entered (s t : State) (r : Trap) : Prop :=
  let at_ := if r.next then s.me.ctl.pc + 32 else s.me.ctl.wordAt
  t.me.ctl.tcause.toNat = (r.code + 256 * r.detail) % 2 ^ 64 ∧ t.me.ctl.tinfo.toNat = r.tinfo % 2 ^ 64 ∧ t.me.ctl.taddr.toNat = r.taddr % 2 ^ 64
  ∧ t.me.ctl.tpc = at_ ∧ t.me.ctl.pc = s.me.ctl.tvec ∧ t.me.ctl.remain = 0 ∧ t.me.ctl.handler = true ∧ t.me.ctl.xim = none
  ∧ t.me.ctl.depth = s.me.ctl.depth ∧ t.me.ctl.fpm = s.me.ctl.fpm ∧ t.me.ctl.part = s.me.ctl.part ∧ t.me.ctl.tvec = s.me.ctl.tvec
  ∧ { t.me.r with v := s.me.r.v, pv := s.me.r.pv } = s.me.r
  ∧ (∀ g l, g < 64 → l < 64 → t.getV g l = s.getV g l ∧ look 0 t.me.r.pv (vKey g l) = look 0 s.me.r.pv (vKey g l))
  ∧ t.me.wet.s = s.me.wet.s ∧ (∀ g, g < 64 → find t.me.wet.v g = find s.me.wet.v g)
  ∧ s.sameMemory t ∧ t.lines = s.lines ∧ t.teams = s.teams ∧ t.others = s.others

end Sys2Proof.Machine
end

