-- ==== Sys2Proof/Certificates/Slice0/Obligations.lean ====
section
/-! DEFINITION. The statements. Each docstring names the rule it formalises, or says that it is the model's own choice. -/

open Sys2Proof Sys2Proof.Machine

/-! ## The machine as a whole -/

/-- R65, R83, R84, R85: at a step of a scribe that issues, the word at its program counter, when it is paid for, decodes to `i` and
passes the checks of Table 04-9, runs as `exec i`; a word XIM and the word after it run together. Around it the model's scheduling
(log 1) clears the park before and does its bookkeeping after. Words that wait at the scoreboard are not meant here. -/
def Obligations.StepRunsDecodedWord : Prop :=
  ∀ (s s0 : State) (w : BitVec 32),
    s.joiner = none → s.agenda = [] → s.engineTurn = false → s.myTurn = true → s.tried.deliverable = false →
    s.me.ctl.remain ≠ 0 → s.tried.fetch = .ok (s0, w) →
    let runs := fun (t : State) (x : BitVec 32) => ∀ (t1 : State) (i : Instr), t.pay x.toNat = some t1 → decode x = .ok i →
      t1.clauseCheck x.toNat i = none → t1.heldWord i = none → step s = noted s s.afterIssue (exec i t1)
    (bits w.toNat 26 6 ≠ 0x11 ∨ s.me.ctl.xim ≠ none → runs s0 w)
    ∧ (bits w.toNat 26 6 = 0x11 → s.me.ctl.xim = none → ∀ (t t0 : State) (x : BitVec 32),
        exec (.xim (w.setWidth 26)) s0 = .next t → t.me.ctl.xim ≠ none → t.fetch = .ok (t0, x) → runs t0 x)

/-- Table 04-8 and the encodings of the owning chapters: one word of each major, most of them assembled by the spec itself, decodes to the
instruction it stands for. -/
def Obligations.DecodedWords : Prop :=
  decodeTableWord 32 0x06AA9800 = some (.add 21 10 19)
  ∧ decodeTableWord 32 0x09293FFF = some (.addi 9 9 0x3FFF)
  ∧ decodeTableWord 32 0x0EAA3333 = some (.andi 21 10 13107)
  ∧ decodeTableWord 32 0x10C661C8 = some (.bfx 6 6 7 8)
  ∧ decodeTableWord 32 0x16AA9800 = some (.mul 21 10 19)
  ∧ decodeTableWord 32 0x1AAA0000 = some (.mov 21 10)
  ∧ decodeTableWord 32 0x21D20FFC = some (.bnz 9 0xFFC)
  ∧ decodeTableWord 32 0x240A0AAA = some (.bru 5 2730)
  ∧ decodeTableWord 32 0x28000555 = some (.call 1365)
  ∧ decodeTableWord 32 0x2DA2B200 = some (.ldB 13 1 11 2 0 0)
  ∧ decodeTableWord 32 0x32B536B0 = some (.st 21 10 19 6 2 6)
  ∧ decodeTableWord 32 0x3584E300 = some (.amoBfadd 12 2 14 3 0 0)
  ∧ decodeTableWord 32 0x3AAA0000 = some (.cgetb 21 10)
  ∧ decodeTableWord 32 0x3D414826 = some (.pinb 10 1 9 2)
  ∧ decodeTableWord 32 0x40050002 = some (.trap 5)
  ∧ decodeTableWord 32 0x4402010B = some (.xim 0x2010B)
  ∧ decodeTableWord 32 0x48000028 = some (.dry 5 0)
  ∧ decodeTableWord 32 0x516ACCC0 = some (.vadd 5 42 51 12)
  ∧ decodeTableWord 32 0x556ACCCC = some (.vaddi 5 42 51 204)
  ∧ decodeTableWord 32 0x58050833 = some (.vmad 0 5 2 3)
  ∧ decodeTableWord 32 0x5D6ACCC0 = some (.vshl 5 42 51 12)
  ∧ decodeTableWord 32 0x60830FC0 = some (.fadd 2 3 3 60)
  ∧ decodeTableWord 32 0x656ACCC8 = some (.faddPacked 5 42 51 12 1)
  ∧ decodeTableWord 32 0x683C0420 = some (.fma 0 60 1 2 0)
  ∧ decodeTableWord 32 0x6C011882 = some (.vcmp 0 1 6 8 2)
  ∧ decodeTableWord 32 0x70010004 = some (.vlane 0 1 0)
  ∧ decodeTableWord 32 0x74020402 = some (.cvtI32ToX 0 2 1 0 0)
  ∧ decodeTableWord 32 0x796ACC00 = some (.frcp 5 42 51)
  ∧ decodeTableWord 32 0x7C081C15 = some (.vred 0 8 7 1)
  ∧ decodeTableWord 32 0x80010887 = some (.ldw 0 1 2 1 0 7)
  ∧ decodeTableWord 32 0x856ACF28 = some (.stw 5 42 51 6 2 8)
  ∧ decodeTableWord 32 0x88071816 = some (.ldeI 0 7 6 6)
  ∧ decodeTableWord 32 0x8C082407 = some (.vamoAdd 0 8 9 7)
  ∧ decodeTableWord 32 0x92A9CCCE = some (.lcopy 21 9 51 12 1 6)
  ∧ decodeTableWord 32 0x95800009 = some (.give 12 1)
  ∧ decodeTableWord 32 0x9DA00008 = some (.rset 13 1)
  ∧ decodeTableWord 32 0xA080BFE0 = some (.scroll 1 2 0x1FF 0)
  ∧ decodeTableWord 32 0xA5800000 = some (.pfill 3)
  ∧ decodeTableWord 32 0xA9FDAE92 = some (.mloop 1 63 13 14 18 1 0)
  ∧ decodeTableWord 32 0xAC000000 = some .mcommit
  ∧ decodeTableWord 32 0xB5AE0000 = some (.binit 13 14 0)
  ∧ decodeTableWord 32 0xB84C0048 = some (.semwait 2 12 1 1)
  ∧ decodeTableWord 32 0xBC8B6000 = some (.qkick 4 11 12)
  ∧ decodeTableWord 32 0xC00F1400 = some (.ssubNib 15 5)
  ∧ decodeTableWord 32 0xC56C0000 = some (.coll 11 12)
  ∧ decodeTableWord 32 0xC9CF0014 = some (.stepb 14 15 5)
  ∧ decodeTableWord 32 0xCD600070 = some (.mark 11 7)

/-- Tier 3. Decoding the encoding of any well-formed word gives it back, for every operand the encoding admits. -/
def Obligations.DecodeEncode : Prop := ∀ i : Instr, isWord i = true → wf i = true → decode (encode i) = .ok i

/-- R186, R372: the package after reset: every memory in canonical form, no scribe, team, queue, copy, loop or barrier, every line
FREE, and the boot ROM of the management controller first to act. That nothing is resident is the model's reading (log 6). -/
def Obligations.ResetState : Prop :=
  State.reset.MemWf ∧ State.reset.allScribes = [] ∧ (∀ n, State.reset.team n = none) ∧ (∀ q, find State.reset.queues q = none)
    ∧ State.reset.copies = [] ∧ State.reset.loops = [] ∧ State.reset.bars = [] ∧ (∀ n, (State.reset.line n).st = .free)
    ∧ State.reset.mgmt.boot = .inReset ∧ State.reset.agenda = [.event .boot]

/-- Tier 3. Every step keeps the four memories in canonical form: no step lists a byte twice, out of order or with the
value an unlisted byte reads as. -/
def Obligations.StepKeepsMemories : Prop := ∀ s t : State, s.MemWf → step s = .next t → t.MemWf

/-! ## Scalar words -/

/-- R153, R156, R177: a dry, clean scalar is read as it stands; a pending one parks the scribe, a faulted one raises
WET_FAULT and a poisoned one raises POISON. -/
def Obligations.ScalarUse : Prop :=
  ∀ (s : State) (code : Nat),
    (s.me.wetS code = none → look false s.me.r.ps (xKey s.me.ctl.depth code) = false → s.sval code = .ok (s.getS code))
    ∧ (∀ r, s.me.wetS code = some r → r.fault = none → s.sval code = .error (.park .wetOperand))
    ∧ (∀ r c, s.me.wetS code = some r → r.fault = some c → ∃ t, s.sval code = .error (.trap t) ∧ t.code = cWET_FAULT ∧ t.detail = c)
    ∧ (s.me.wetS code = none → look false s.me.r.ps (xKey s.me.ctl.depth code) = true →
        s.sval code = .error (.trap { code := cPOISON, detail := 0, tinfo := 1, taddr := code + 64 }))

/-- R89, R92, Table 05-4: the forms of two dry scalars that wait for dry operands write their result to sd, and the program goes
on: logic, shifts, minima, comparisons, high halves of products, and quotients and remainders with the corners the table gives; division
truncates toward zero, and a remainder that is not zero has the sign of the dividend. -/
def Obligations.ScalarTwoSources : Prop :=
  ∀ (s : State) (d a b : BitVec 5), s.readsS a.toNat → s.readsS b.toNat →
    let x := s.getS a.toNat
    let y := s.getS b.toNat
    exec (.and d a b) s = .next (s.setS d.toNat (x &&& y)).advance
    ∧ exec (.or d a b) s = .next (s.setS d.toNat (x ||| y)).advance
    ∧ exec (.xor d a b) s = .next (s.setS d.toNat (x ^^^ y)).advance
    ∧ exec (.andn d a b) s = .next (s.setS d.toNat (x &&& ~~~y)).advance
    ∧ exec (.shl d a b) s = .next (s.setS d.toNat (BitVec.ofNat 64 (x.toNat * 2 ^ (y.toNat % 64)))).advance
    ∧ exec (.shr d a b) s = .next (s.setS d.toNat (BitVec.ofNat 64 (x.toNat / 2 ^ (y.toNat % 64)))).advance
    ∧ exec (.sar d a b) s = .next (s.setS d.toNat (BitVec.ofInt 64 (x.toInt / 2 ^ (y.toNat % 64)))).advance
    ∧ exec (.minI d a b) s = .next (s.setS d.toNat (if y.toInt < x.toInt then y else x)).advance
    ∧ exec (.maxI d a b) s = .next (s.setS d.toNat (if y.toInt < x.toInt then x else y)).advance
    ∧ exec (.minB d a b) s = .next (s.setS d.toNat (if y.toNat < x.toNat then y else x)).advance
    ∧ exec (.maxB d a b) s = .next (s.setS d.toNat (if y.toNat < x.toNat then x else y)).advance
    ∧ exec (.slt d a b) s = .next (s.setS d.toNat (if x.toInt < y.toInt then 1 else 0)).advance
    ∧ exec (.sltb d a b) s = .next (s.setS d.toNat (if x.toNat < y.toNat then 1 else 0)).advance
    ∧ exec (.seq d a b) s = .next (s.setS d.toNat (if x = y then 1 else 0)).advance
    ∧ exec (.sne d a b) s = .next (s.setS d.toNat (if x = y then 0 else 1)).advance
    ∧ (s.readsS d.toNat → exec (.sel d a b) s = .next (s.setS d.toNat (if s.getS d.toNat = 0 then y else x)).advance)
    ∧ exec (.mulhI d a b) s = .next (s.setS d.toNat (BitVec.ofInt 64 (x.toInt * y.toInt / 2 ^ 64))).advance
    ∧ exec (.mulhB d a b) s = .next (s.setS d.toNat (BitVec.ofNat 64 (x.toNat * y.toNat / 2 ^ 64))).advance
    ∧ ∃ qi qb ri rb : Word,
        exec (.divI d a b) s = .next (s.setS d.toNat qi).advance ∧ exec (.remI d a b) s = .next (s.setS d.toNat ri).advance
        ∧ exec (.divB d a b) s = .next (s.setS d.toNat qb).advance ∧ exec (.remB d a b) s = .next (s.setS d.toNat rb).advance
        ∧ (y = 0 → qi = BitVec.allOnes 64 ∧ qb = BitVec.allOnes 64 ∧ ri = x ∧ rb = x)
        ∧ (y ≠ 0 → x.toNat = qb.toNat * y.toNat + rb.toNat ∧ rb.toNat < y.toNat)
        ∧ (y ≠ 0 → ¬ (x.toInt = -2 ^ 63 ∧ y.toInt = -1) → x.toInt = qi.toInt * y.toInt + ri.toInt
            ∧ ri.toInt.natAbs < y.toInt.natAbs ∧ (ri.toInt = 0 ∨ (0 ≤ ri.toInt ↔ 0 ≤ x.toInt)))
        ∧ (x.toInt = -2 ^ 63 → y.toInt = -1 → qi = x ∧ ri = 0)

/-- R82: the immediates of formats SI and LI, the offset of a branch and the offset of a memory word, without the word XIM and
with its payload above them. R82, R91, R163: such a word whose payload has a bit set, before a word of major 0x04, 0x12 or VSHLI,
raises ILLEGAL, and the word has no other effect; that its DETAIL is 4 is the model's reading (log 18). -/
def Obligations.WidenedImmediates : Prop :=
  (∀ (s : State) (i : Instr) (p : BitVec 26), s.me.ctl.xim = some p → p ≠ 0 →
    (∃ d a n, i = .shli d a n ∨ i = .shri d a n ∨ i = .sari d a n ∨ i = .sext d a n ∨ i = .zext d a n)
      ∨ (∃ d a l q, i = .bfx d a l q ∨ i = .bfxI d a l q ∨ i = .bfi d a l q)
      ∨ (∃ d r k, i = .dry r k ∨ i = .wetq d r k ∨ i = .dryAll) ∨ (∃ g d a n, i = .vshli g d a n) →
    exec i s = .next (s.takeTrap { code := cILLEGAL, detail := 4, tinfo := encodeNat i }))
  ∧ ∀ (s : State) (i : BitVec 14) (k : BitVec 8) (o : BitVec 12),
    (s.me.ctl.xim = none → s.imm14 i = i.signExtend 64 ∧ s.uimm 14 i.toNat = i.toNat ∧ s.imm8 k = k.signExtend 32 ∧ s.xoff = 0
        ∧ s.target o = s.me.ctl.pc + 32 * o.signExtend 64)
    ∧ ∀ p : BitVec 26, s.me.ctl.xim = some p →
        s.imm14 i = (p ++ i).signExtend 64 ∧ s.uimm 14 i.toNat = (p ++ i).toNat ∧ s.imm8 k = (p ++ k).setWidth 32 ∧ s.xoff = p.toInt
        ∧ s.target o = s.me.ctl.pc + 32 * (p ++ o).signExtend 64

/-- R89, R90, R98: forms of one dry scalar and an immediate, counts, and constants. `s.imm14 i` is the
immediate, widened by a word XIM where one stands before the word. -/
def Obligations.ScalarOneSource : Prop :=
  ∀ (s : State) (d a : BitVec 5) (i : BitVec 14) (n : BitVec 6) (u : BitVec 1), s.readsS a.toNat →
    let x := s.getS a.toNat
    exec (.slti d a i) s = .next (s.setS d.toNat (if x.toInt < (s.imm14 i).toInt then 1 else 0)).advance
    ∧ exec (.li d i) s = .next (s.setS d.toNat (s.imm14 i)).advance
    ∧ exec (.lih d a i) s = .next (s.setS d.toNat (BitVec.ofNat 64 (x.toNat % 2 ^ 32 + s.uimm 14 i.toNat % 2 ^ 32 * 2 ^ 32))).advance
    ∧ exec (.andi d a i) s = .next (s.setS d.toNat (x &&& s.imm14 i)).advance
    ∧ exec (.ori d a i) s = .next (s.setS d.toNat (x ||| s.imm14 i)).advance
    ∧ exec (.xori d a i) s = .next (s.setS d.toNat (x ^^^ s.imm14 i)).advance
    ∧ exec (.ldk n d u) s = .next (s.setS d.toNat
        (if u = 1 then (look 0 s.me.r.k n.toNat).signExtend 64 else (look 0 s.me.r.k n.toNat).setWidth 64)).advance
    ∧ ∃ z t c : Nat,
        exec (.clz d a) s = .next (s.setS d.toNat (BitVec.ofNat 64 z)).advance
        ∧ exec (.ctz d a) s = .next (s.setS d.toNat (BitVec.ofNat 64 t)).advance
        ∧ exec (.popc d a) s = .next (s.setS d.toNat (BitVec.ofNat 64 c)).advance
        ∧ z ≤ 64 ∧ t ≤ 64 ∧ c = ((List.range 64).filter fun k => x.getLsbD k).length
        ∧ (∀ k, k < z → x.getLsbD (63 - k) = false) ∧ (z < 64 → x.getLsbD (63 - z) = true)
        ∧ (∀ k, k < t → x.getLsbD k = false) ∧ (t < 64 → x.getLsbD t = true)

/-- R91: shifts by an immediate, and fields of l + 1 bits at bit p; `payload 0` or no word XIM stands before the word. A
field that passes bit 63 raises ILLEGAL. -/
def Obligations.ScalarFields : Prop :=
  ∀ (s : State) (d a : BitVec 5) (n l p : BitVec 6), s.me.ctl.xim.getD 0 = 0 → s.readsS a.toNat →
    let x := s.getS a.toNat
    exec (.shri d a n) s = .next (s.setS d.toNat (x >>> n.toNat)).advance
    ∧ exec (.sari d a n) s = .next (s.setS d.toNat (x.sshiftRight n.toNat)).advance
    ∧ exec (.sext d a n) s = .next (s.setS d.toNat ((x.setWidth (n.toNat + 1)).signExtend 64)).advance
    ∧ exec (.zext d a n) s = .next (s.setS d.toNat ((x.setWidth (n.toNat + 1)).setWidth 64)).advance
    ∧ (p.toNat + l.toNat < 64 →
        exec (.bfx d a l p) s = .next (s.setS d.toNat ((x.extractLsb' p.toNat (l.toNat + 1)).setWidth 64)).advance
        ∧ exec (.bfxI d a l p) s = .next (s.setS d.toNat ((x.extractLsb' p.toNat (l.toNat + 1)).signExtend 64)).advance
        ∧ (s.readsS d.toNat → ∃ v : Word, exec (.bfi d a l p) s = .next (s.setS d.toNat v).advance
            ∧ ∀ k, k < 64 → v.getLsbD k = if p.toNat ≤ k ∧ k ≤ p.toNat + l.toNat then x.getLsbD (k - p.toNat) else (s.getS d.toNat).getLsbD k))
    ∧ (64 ≤ p.toNat + l.toNat →
        exec (.bfx d a l p) s = .next (s.takeTrap (illegal9 (encodeNat (.bfx d a l p))))
        ∧ exec (.bfxI d a l p) s = .next (s.takeTrap (illegal9 (encodeNat (.bfxI d a l p))))
        ∧ exec (.bfi d a l p) s = .next (s.takeTrap (illegal9 (encodeNat (.bfi d a l p)))))

/-- R89 to R93, Table 07-1: the affine forms on dry, clean scalars. -/
def Obligations.ScalarAffine : Prop :=
  ∀ (s : State) (d a b : BitVec 5) (i : BitVec 14) (n : BitVec 6),
    s.me.wetS a.toNat = none → s.me.wetS b.toNat = none →
    look false s.me.r.ps (xKey s.me.ctl.depth a.toNat) = false → look false s.me.r.ps (xKey s.me.ctl.depth b.toNat) = false →
    exec (.add d a b) s = .next (s.setS d.toNat (s.getS a.toNat + s.getS b.toNat)).advance
    ∧ exec (.sub d a b) s = .next (s.setS d.toNat (s.getS a.toNat - s.getS b.toNat)).advance
    ∧ exec (.mul d a b) s = .next (s.setS d.toNat (s.getS a.toNat * s.getS b.toNat)).advance
    ∧ exec (.addi d a i) s = .next (s.setS d.toNat (s.getS a.toNat + s.imm14 i)).advance
    ∧ exec (.mov d a) s = .next (s.setS d.toNat (s.getS a.toNat)).advance
    ∧ (s.me.ctl.xim.getD 0 = 0 → exec (.shli d a n) s = .next (s.setS d.toNat (s.getS a.toNat <<< n.toNat)).advance)

/-- R151, R155: an affine form on one wet operand goes on without its bits: sd carries a record of the same tag, and when
the tag resolves to X, sd takes the value the form would have computed from a·X + o. -/
def Obligations.AffineStaysWet : Prop :=
  ∀ (s : State) (d a b : BitVec 5) (i : BitVec 14) (n : BitVec 6) (r : WetRec) (x : Word),
    s.me.wetS a.toNat = some r → s.me.wetS b.toNat = none → look false s.me.r.ps (xKey s.me.ctl.depth b.toNat) = false →
    s.me.wet.recCount < 32 → s.me.ctl.xim.getD 0 = 0 →
    let v := r.a * x + s.getS a.toNat
    let y := s.getS b.toNat
    let wetWith := fun (o : Host.Outcome State Fault Refusal) (w : Word) =>
      ∃ t, o = .next t ∧ (∃ q, t.me.wetS d.toNat = some q ∧ q.tag = r.tag ∧ q.fault = r.fault ∧ q.a * x + t.getS d.toNat = w)
        ∧ s.sameElse t ∧ s.sameMemory t ∧ s.sameScalarsBut t (xKey s.me.ctl.depth d.toNat)
    wetWith (exec (.add d a b) s) (v + y) ∧ wetWith (exec (.add d b a) s) (y + v)
    ∧ wetWith (exec (.sub d a b) s) (v - y) ∧ wetWith (exec (.sub d b a) s) (y - v)
    ∧ wetWith (exec (.mul d a b) s) (v * y) ∧ wetWith (exec (.mul d b a) s) (y * v)
    ∧ wetWith (exec (.addi d a i) s) (v + s.imm14 i) ∧ wetWith (exec (.mov d a) s) v
    ∧ wetWith (exec (.shli d a n) s) (v <<< n.toNat)

/-- R89 to R93, R19, R87: writing scalar sd makes it read as the value written, dry and clean; every other scalar word
(held stack entries included), every other register and every byte of memory stays, and the program goes on at the next
word. R62, R105: the same for a capability register. -/
def Obligations.RegisterFrames : Prop :=
  (∀ (s : State) (d : Nat) (k : Cap),
    let t := (s.setC d k).advance
    t.cval d = .ok k ∧ (∀ n, n ≠ d → t.cval n = s.cval n) ∧ s.sameElse t ∧ s.sameMemory t ∧ s.sameCtl t
      ∧ { t.me.r with c := s.me.r.c, pcap := s.me.r.pcap } = s.me.r ∧ t.me.wet = s.me.wet ∧ t.me.at_ = s.me.at_
      ∧ t.me.ctl.pc = s.me.ctl.pc + 32 ∧ t.me.ctl.remain = s.me.ctl.remain - 1)
  ∧ ∀ (s : State) (d : BitVec 5) (v : Word),
    let t := (s.setS d.toNat v).advance
    t.getS d.toNat = v ∧ t.sval d.toNat = .ok v ∧ s.scalarFrame t d.toNat
      ∧ t.me.ctl.pc = s.me.ctl.pc + 32 ∧ t.me.ctl.remain = s.me.ctl.remain - 1

/-! ## Control flow -/

/-- R94, R95, Table 05-5: each form of major 0x08 on dry scalars, taken and not taken, and what a bad target raises. R96,
R114, R178: the predicate branches look at the lanes that are not on holes; BRU on a predicate that holds in some of them but not
in all raises UNIFORM. -/
def Obligations.Branches : Prop :=
  (∀ (s : State) (q : BitVec 3) (o : BitVec 12),
    let on := fun l => bitOf s.live l = true
    let yes := fun l => bitOf (s.getQ q.toNat) l = true
    s.branches (∃ l < 64, on l ∧ yes l) (s.target o) (exec (.bany q o) s)
    ∧ s.branches (∀ l < 64, on l → yes l) (s.target o) (exec (.ball q o) s)
    ∧ s.branches (∀ l < 64, on l → ¬ yes l) (s.target o) (exec (.bnone q o) s)
    ∧ ((∀ l < 64, on l → yes l) ∨ (∀ l < 64, on l → ¬ yes l) →
        s.branches (∃ l < 64, on l ∧ yes l) (s.target o) (exec (.bru q o) s))
    ∧ ((∃ l < 64, on l ∧ yes l) → (∃ l < 64, on l ∧ ¬ yes l) →
        ∃ t, exec (.bru q o) s = .next (s.takeTrap t) ∧ t.code = cUNIFORM ∧ t.detail = 1))
  ∧ ∀ (s : State) (a b : BitVec 5) (o : BitVec 12) (x y : Word), s.sval a.toNat = .ok x →
    s.branches (x = 0) (s.target o) (exec (.bz a o) s)
    ∧ s.branches (x ≠ 0) (s.target o) (exec (.bnz a o) s)
    ∧ s.branches True (s.target o) (exec (.jmp o) s)
    ∧ s.branches True x (exec (.jr a) s)
    ∧ (s.sval b.toNat = .ok y →
        s.branches (x = y) (s.target o) (exec (.beq a b o) s)
        ∧ s.branches (x ≠ y) (s.target o) (exec (.bne a b o) s)
        ∧ s.branches (x.toInt < y.toInt) (s.target o) (exec (.blt a b o) s)
        ∧ s.branches (¬ x.toInt < y.toInt) (s.target o) (exec (.bge a b o) s)
        ∧ s.branches (x.toNat < y.toNat) (s.target o) (exec (.bltb a b o) s)
        ∧ s.branches (¬ x.toNat < y.toNat) (s.target o) (exec (.bgeb a b o) s))

/-- R19, R97: CALL and CALLR save the return address in s8 of a new window whose s0-s7 are the caller's s16-s23 and whose
s9-s23 are zero; RET goes back. Here neither spills nor fills. At the deepest call and outside any call they trap. -/
def Obligations.CallReturn : Prop :=
  ∀ (s : State) (a : BitVec 5) (o : BitVec 12) (x : Word),
    let room := s.noneWet callerArgs = .ok () ∧ s.me.ctl.depth < 65535 ∧ 16 * (s.me.ctl.depth + 1) + 24 ≤ s.me.ctl.heldBase + 256
    let called := fun (t : State) (dest : Word) =>
      t.me.ctl.depth = s.me.ctl.depth + 1 ∧ t.me.ctl.pc = dest ∧ t.me.ctl.remain = 0 ∧ t.me.ctl.heldBase = s.me.ctl.heldBase
        ∧ t.getS 16 = s.me.ctl.pc + 32 ∧ (∀ c, 17 ≤ c → c < 32 → t.getS c = 0)
        ∧ (∀ c < 8, t.getS c = s.getS c) ∧ (∀ c < 8, t.getS (8 + c) = s.getS (24 + c))
        ∧ s.sameElse t ∧ s.sameMemory t
        ∧ ∀ k, (k < 16 * (s.me.ctl.depth + 1) + 16 ∨ 16 * (s.me.ctl.depth + 1) + 32 ≤ k) → look 0 t.me.r.x k = look 0 s.me.r.x k
    (room → s.goodTarget (s.target o) → ∃ t, exec (.call o) s = .next t ∧ called t (s.target o))
    ∧ (room → s.sval a.toNat = .ok x → s.goodTarget x → ∃ t, exec (.callr a) s = .next t ∧ called t x)
    ∧ (s.noneWet callerArgs = .ok () → s.me.ctl.depth = 65535 → s.goodTarget (s.target o) →
        s.traps (exec (.call o) s) { code := cWINDOW_SPILL })
    ∧ (s.me.ctl.depth ≠ 0 → s.sval 16 = .ok x → s.noneWet calleeArgs = .ok () → s.goodTarget x →
        s.me.ctl.heldBase ≤ 16 * (s.me.ctl.depth - 1) →
        ∃ t, exec .ret s = .next t ∧ t.me.ctl.depth = s.me.ctl.depth - 1 ∧ t.me.ctl.pc = x ∧ t.me.ctl.remain = 0
          ∧ (∀ c < 8, t.getS c = s.getS c) ∧ (∀ c < 8, t.getS (24 + c) = s.getS (8 + c))
          ∧ t.me.r = s.me.r ∧ s.sameElse t ∧ s.sameMemory t)
    ∧ (s.me.ctl.depth = 0 → s.traps (exec .ret s) { code := cILLEGAL, detail := 9, tinfo := 0x28C00000 })

/-! ## Scalar memory words -/

/-- R61, R98, R99, R146, R344: LD.B and LD.I, where the capability's checks pass and the order's wait is over. From the
plane, on a hole, and from host memory the load blocks and sd takes the bits; from global memory a plain load that is back
in time (log 3) does the same, and one that is not leaves sd wet under a tag whose value is those bits. A read of an
uncorrectable word leaves sd faulted with the underlying cause 2. Failed checks raise their cause. That FILLV, which a hole gives, is
sign-extended for LD.I is the model's reading (log 40). Device pages are not meant here. -/
def Obligations.ScalarLoads : Prop :=
  ∀ (s : State) (d x : BitVec 5) (cr w : BitVec 4) (o : BitVec 2) (sc : BitVec 3) (c : Cap) (a : Nat),
    s.scalarAddr cr.toNat x.toNat = .ok (c, a) → s.acquire o.toNat = .ok () →
    let n := widthOf w.toNat
    let loads := fun (u : State) (v : Nat) =>
      exec (.ldB d cr x w o sc) s = .next (u.setS d.toNat (BitVec.ofNat 64 v)).advance
      ∧ exec (.ldI d cr x w o sc) s = .next (u.setS d.toNat (sext64 n v)).advance
    let stays := fun (u t : State) (v : Word) (cause : Option Nat) =>
      ∃ q r, t.me.wetS d.toNat = some q ∧ q.a = 1 ∧ t.getS d.toNat = 0 ∧ q.fault = cause ∧ find s.me.wet.tags q.tag = none
        ∧ find t.me.wet.tags q.tag = some r ∧ r.x = v ∧ r.addr = a ∧ r.width = n
        ∧ u.sameMemory t ∧ s.sameScalarsBut t (xKey s.me.ctl.depth d.toNat)
    (∀ code, capCheck c a n pLoad .load false = some code →
      s.traps (exec (.ldB d cr x w o sc) s) { code := code, detail := 0, tinfo := accessInfo cr.toNat n .load 0, taddr := a })
    ∧ (capCheck c a n pLoad .load false = none → s.afterOwn c.space a n = .ok s →
        (c.space = 1 → s.planeCheck false a n = .ok true → s.planePoison a n = false → loads s (readBits s.plane a n))
        ∧ (c.space = 1 → s.planeCheck false a n = .ok false → loads (s.setHolef 1) (fillBits s.me.ctl.fillv n))
        ∧ (c.space = 2 → loads s (readBits s.host a n))
        ∧ (∀ l, c.space = 5 → find s.launches s.me.at_.launch = some l → loads s (readBits l.argMem a n))
        ∧ ∀ g, c.space = 0 ∨ c.space = 3 → s.getFar s.meWho c.space a n .load = .ok g → g.dev = false →
            (g.bad = none → g.st = s → g.waits = none → o = 0 → s.arrivals.headD false = true → loads s.popArrival g.n)
            ∧ (g.bad = none → g.st = s → g.waits = none → o = 1 → loads s g.n)
            ∧ (o = 0 → g.waits = none → s.needTags 1 = .ok () → s.me.wet.recCount < 32 → find s.me.wet.tags s.me.wet.next = none →
                (g.bad = none → g.st = s → s.arrivals.headD false = false →
                  (∃ t, exec (.ldB d cr x w o sc) s = .next t ∧ stays s t (BitVec.ofNat 64 g.n) none)
                  ∧ ∃ t, exec (.ldI d cr x w o sc) s = .next t ∧ stays s t (sext64 n g.n) none)
                ∧ ∀ b, g.bad = some (2, b) →
                  ∃ t, exec (.ldB d cr x w o sc) s = .next t ∧ stays g.st t 0 (some 2)))

/-- R51, R63, R100, R195: ST, where the capability's checks pass and the order's wait is over: in the plane, on a hole, in
host memory, in global memory and in another package; and what failed checks raise. What each writes is
`MemoryWrites`. -/
def Obligations.ScalarStores : Prop :=
  ∀ (s : State) (t x : BitVec 5) (cr w : BitVec 4) (o : BitVec 2) (sc : BitVec 3) (c : Cap) (a : Nat) (v : Word),
    s.scalarAddr cr.toNat x.toNat = .ok (c, a) → s.storeVal t.toNat = .ok (v, false) → s.release o.toNat = .ok () →
    let n := widthOf w.toNat
    let m := v.toNat % 2 ^ n
    (∀ code, capCheck c a n pStore .store false = some code →
      s.traps (exec (.st t cr x w o sc) s) { code := code, detail := 0, tinfo := accessInfo cr.toNat n .store 0, taddr := a })
    ∧ (capCheck c a n pStore .store false = none → s.afterOwn c.space a n = .ok s →
        (c.space = 1 → s.planeCheck true a n = .ok true → exec (.st t cr x w o sc) s = .next (s.planeStore a n m).advance)
        ∧ (c.space = 1 → s.planeCheck true a n = .ok false → exec (.st t cr x w o sc) s = .next (s.setHolef 2).advance)
        ∧ (c.space = 2 → exec (.st t cr x w o sc) s
            = .next ((s.hostWrite a n m false).endRollback s.me.at_.team 5).advance)
        ∧ (∀ asid va ps, c.space = 0 ∨ c.space = 3 → s.served s.me.at_.asid c.space a n = some (asid, va) →
            s.reaches s.meWho asid .store va n ps → ps.any (·.dev) = false →
            exec (.st t cr x w o sc) s = .next (s.storePieces s.meWho m ps).advance)
        ∧ (c.space = 3 → s.served s.me.at_.asid 3 a n = none → s.peerReachable a = true →
            exec (.st t cr x w o sc) s = .next (s.peerWrite a n m).advance))

/-- R62 to R64, R99, R100, R341: LDC and STC through a capability in the plane and in global memory whose channels all work: 128 bits at a
multiple of 128, with the tag beside the unit; a tag is stored only with store-capability and loaded only with load-capability permission. -/
def Obligations.CapabilityMemory : Prop :=
  ∀ (s : State) (d cr : BitVec 4) (x : BitVec 5) (o : BitVec 2) (sc : BitVec 3) (c : Cap) (a : Nat),
    s.scalarAddr cr.toNat x.toNat = .ok (c, a) →
    (d.toNat < 14 → s.acquire o.toNat = .ok () → capCheck c a 128 pLoad .load true = none → s.afterOwn c.space a 128 = .ok s →
      (c.space = 1 → s.planeCheck false a 128 = .ok true → s.planePoison a 128 = false →
        exec (.ldc d cr x o sc) s
          = .next (s.setC d.toNat ⟨c.has pLoadCap && s.tagAt c a, BitVec.ofNat 128 (readBits s.plane a 128)⟩).advance)
      ∧ ∀ g, c.space = 0 → s.getFar s.meWho 0 a 128 .load = .ok g → g.waits = none → g.bad = none →
        exec (.ldc d cr x o sc) s = .next (g.st.setC d.toNat ⟨c.has pLoadCap && s.tagAt c a, BitVec.ofNat 128 g.n⟩).advance)
    ∧ (∀ v, s.cval d.toNat = .ok v → s.release o.toNat = .ok () →
        (v.tag = true → c.has pStoreCap = false → c.tag = true →
          s.me.ctl.handler = false → s.traps (exec (.stc d cr x o sc) s) { code := cCAP_PERM, tinfo := accessInfo cr.toNat 128 .store 0, taddr := a })
        ∧ (s.me.ctl.handler = false → c.space = 1 → s.planeCheck true a 128 = .ok true →
            capCheck c a 128 (if v.tag then pStore + pStoreCap else pStore) .store true = none → s.afterOwn 1 a 128 = .ok s →
            ∃ t, exec (.stc d cr x o sc) s = .next t ∧ readBits t.plane a 128 = v.bits.toNat
              ∧ bits (t.line (a / 512)).tags.toNat (a % 512 / 128) 1 = v.tag.toNat
              ∧ s.sameMemoryBut t a 128 ∧ t.me.r = s.me.r)
        ∧ ∀ p, s.me.ctl.handler = false → c.space = 0 → s.reaches s.meWho s.me.at_.asid .store a 128 [⟨p, 128, false⟩] →
            s.channels = [] → s.eccSoft = [] → s.eccHard = [] → s.afterOwn 0 a 128 = .ok s →
            capCheck c a 128 (if v.tag then pStore + pStoreCap else pStore) .store true = none →
            ∃ t, exec (.stc d cr x o sc) s = .next t ∧ readBits t.dram p 128 = v.bits.toNat ∧ look false t.dramTags (p / 128) = v.tag
              ∧ (∀ b, b < p / 8 ∨ p / 8 + coverBytes p 128 ≤ b → readByte t.dram b = readByte s.dram b)
              ∧ (∀ b, readByte t.plane b = readByte s.plane b ∧ readByte t.host b = readByte s.host b ∧ readByte t.peer b = readByte s.peer b)
              ∧ t.me.r = s.me.r)

/-- R55, R102, R103, R146, R151, Table 05-8: the scalar atomics in the plane, in global memory and in another package. sd takes the old
value m and memory takes the new one; a minimum or maximum reads m as signed. One in global memory that is not back in time (log 3) has
updated memory and leaves sd wet under a tag whose value is m. On a hole sd takes FILLV as the old value and nothing is written. Failed
checks raise their cause, and in host memory every atomic raises ALIGN. CAS of s23 raises ILLEGAL. That TINFO of a failed atomic has bit 13
set and bit 12 clear (log 42) and that a signed minimum or maximum extends FILLV as it extends m (logs 40 and 42) are the model's readings.
One in another package that is not back in time is not meant here. -/
def Obligations.ScalarAtomics : Prop :=
  ∀ (s : State) (d x : BitVec 5) (cr w : BitVec 4) (o : BitVec 2) (sc : BitVec 3) (c : Cap) (a : Nat),
    s.scalarAddr cr.toNat x.toNat = .ok (c, a) → s.sdry [d.toNat] = .ok () → s.ordered o.toNat = .ok () →
    let n := widthOf w.toNat
    let check := capCheck c a n (pLoad + pStore + pAtomic) .atomic false
    let v := (s.getS d.toNat).toNat % 2 ^ n
    let y := (s.getS (d.toNat + 1)).toNat % 2 ^ n
    let atomics := fun (does : Instr → (Nat → Nat) → (Nat → Word) → Prop) =>
      let plainOld := fun m => BitVec.ofNat 64 m
      does (.amoAdd d cr x w o sc) (fun m => (m + v) % 2 ^ n) plainOld
      ∧ does (.amoMin d cr x w o sc) (fun m => if signed n v < signed n m then v else m) (sext64 n)
      ∧ does (.amoMax d cr x w o sc) (fun m => if signed n m ≤ signed n v then v else m) (sext64 n)
      ∧ does (.amoAnd d cr x w o sc) (fun m => m &&& v) plainOld
      ∧ does (.amoOr d cr x w o sc) (fun m => m ||| v) plainOld
      ∧ does (.amoXor d cr x w o sc) (fun m => m ^^^ v) plainOld
      ∧ does (.amoSwap d cr x w o sc) (fun _ => v) plainOld
      ∧ does (.amoBfadd d cr x w o sc) (fun m => (m + v) % 2 ^ n) plainOld
      ∧ does (.amoBfset d cr x w o sc) (fun _ => v) plainOld
      ∧ (d.toNat < 31 → s.sdry [d.toNat + 1] = .ok () → does (.amoCas d cr x w o sc) (fun m => if m = v then y else m) plainOld)
    (∀ code, check = some code → atomics fun i _ _ => s.traps (exec i s) { code := code, detail := 0, tinfo := accessInfo cr.toNat n .atomic 0, taddr := a })
    ∧ (c.space = 2 → c.tag = true → c.has (pLoad + pStore + pAtomic) = true → c.base ≤ a → a + n ≤ c.top → a + n ≤ spaceLimit 2 → check = some cALIGN)
    ∧ (check = none → c.space = 1 → s.planeCheck true a n = .ok true → s.planePoison a n = false →
      atomics fun i new old =>
        let m := readBits s.plane a n
        exec i s = .next (((s.planeStore a n (new m)).endRollback s.me.at_.team 2).setS d.toNat (old m)).advance)
    ∧ (check = none → c.space = 1 → s.planeCheck true a n = .ok false →
        atomics fun i _ old => exec i s
          = .next (((s.setHolef 3).endRollback s.me.at_.team 2).setS d.toNat (old (fillBits s.me.ctl.fillv n))).advance)
    ∧ (∀ asid va ps, check = none → c.space = 0 ∨ c.space = 3 → s.afterOwn c.space a n = .ok s → s.served s.me.at_.asid c.space a n = some (asid, va) →
        s.reaches s.meWho asid .atomic va n ps → (s.fetchPieces s.meWho va ps) = (s, []) → ps.any (·.dev) = false →
        atomics fun i new old =>
          let m := readPieces s.dram ps
          (s.arrivals.headD false = false → o = 0 → s.needTags 1 = .ok () → s.me.wet.recCount < 32 → find s.me.wet.tags s.me.wet.next = none →
            let u := s.storePieces s.meWho (new m) ps
            ∃ t q r, exec i s = .next t ∧ t.me.wetS d.toNat = some q ∧ q.a = 1 ∧ q.fault = none ∧ t.getS d.toNat = 0
              ∧ find s.me.wet.tags q.tag = none ∧ find t.me.wet.tags q.tag = some r ∧ r.x = old m ∧ r.addr = a ∧ r.width = n ∧ r.updated = true
              ∧ t.dram = u.dram ∧ t.plane = u.plane ∧ t.host = u.host ∧ t.peer = u.peer ∧ s.sameScalarsBut t (xKey s.me.ctl.depth d.toNat))
          ∧ (s.arrivals.headD false = true → o = 0 →
            exec i s = .next ((((s.storePieces s.meWho (new m) ps).endRollback s.me.at_.team 2).popArrival).setS d.toNat (old m)).advance)
          ∧ (o ≠ 0 → exec i s = .next (((s.storePieces s.meWho (new m) ps).endRollback s.me.at_.team 2).setS d.toNat (old m)).advance))
    ∧ (check = none → c.space = 3 → s.afterOwn 3 a n = .ok s → s.served s.me.at_.asid 3 a n = none → s.peerReachable a = true → s.peerPoison a n = false →
        atomics fun i new old =>
          let m := readBits s.peer a n
          (s.arrivals.headD false = true → o = 0 →
            exec i s = .next ((((s.peerWrite a n (new m)).endRollback s.me.at_.team 2).popArrival).setS d.toNat (old m)).advance)
          ∧ (o ≠ 0 → exec i s = .next (((s.peerWrite a n (new m)).endRollback s.me.at_.team 2).setS d.toNat (old m)).advance))
    ∧ (d.toNat = 31 → s.traps (exec (.amoCas d cr x w o sc) s) (illegal9 (encodeNat (.amoCas d cr x w o sc))))

/-- R47, R49, R51, R63, R341: what a store of n bits writes. In the plane, in global memory whose channels all work, and in another
package the bits read back, and every other byte of every memory reads as before; registers stay. -/
def Obligations.MemoryWrites : Prop :=
  ∀ (s : State) (a n v : Nat),
    (let t := s.planeStore a n v
     readBits t.plane a n = v % 2 ^ n ∧ s.sameMemoryBut t a n ∧ t.me = s.me
        ∧ (∀ l, l < a / 512 ∨ (a + n + 511) / 512 ≤ l → t.line l = s.line l)
        ∧ ∀ l, a / 512 ≤ l → l < (a + n + 511) / 512 → ∀ u, u < 4 →
            bits (t.line l).tags.toNat u 1
              = if a < 512 * l + 128 * u + 128 ∧ 512 * l + 128 * u < a + n then 0 else bits (s.line l).tags.toNat u 1)
    ∧ (∀ who ps, s.channels = [] → s.eccSoft = [] → s.eccHard = [] → ps = [⟨a, n, false⟩] →
        let t := s.storePieces who v ps
        readPieces t.dram ps = v % 2 ^ n ∧ t.me = s.me ∧ t.plane = s.plane ∧ t.host = s.host ∧ t.peer = s.peer
          ∧ ∀ b, b < a / 8 ∨ a / 8 + coverBytes a n ≤ b → readByte t.dram b = readByte s.dram b)
    ∧ (let t := s.peerWrite a n v
       readBits t.peer a n = v % 2 ^ n ∧ t.me = s.me ∧ t.plane = s.plane ∧ t.host = s.host ∧ t.dram = s.dram
          ∧ ∀ b, b < a / 8 ∨ a / 8 + coverBytes a n ≤ b → readByte t.peer b = readByte s.peer b)

/-! ## Capabilities -/

/-- R58, R105, R108: what a scalar register takes of capabilities, tagged or not. That PINB reads sb as a signed number of elements is the
model's reading of 'computed unbounded' (log 45). -/
def Obligations.CapabilityReads : Prop :=
  ∀ (s : State) (d e : BitVec 5) (a b w : BitVec 4) (c k : Cap) (v : Word),
    s.cval a.toNat = .ok c → s.cval b.toNat = .ok k → s.sval e.toNat = .ok v →
    let gives := fun (i : Instr) (n : Nat) => exec i s = .next (s.setS d.toNat (BitVec.ofNat 64 n)).advance
    let p : Int := c.cursor + v.toInt * widthOf w.toNat
    gives (.cgetb d a) c.base ∧ gives (.cgetl d a) (min (c.top - c.base) (2 ^ 64 - 1)) ∧ gives (.cgetp d a) c.perm
    ∧ gives (.cgets d a) c.space ∧ gives (.cgett d a) c.tag.toNat
    ∧ (c.cursor % 8 = 0 → gives (.pbyte d a) (c.cursor / 8))
    ∧ (c.cursor % 8 ≠ 0 → s.traps (exec (.pbyte d a) s) { code := cALIGN, detail := 5, tinfo := a.toNat, taddr := c.cursor })
    ∧ gives (.pinb d a e w) (if c.tag = true ∧ (c.base : Int) ≤ p ∧ p + widthOf w.toNat ≤ c.top then 1 else 0)
    ∧ exec (.pdiff d a b w) s = .next (s.setS d.toNat
        (BitVec.ofInt 64 ((BitVec.ofNat 64 c.cursor - BitVec.ofNat 64 k.cursor).toInt.tdiv (widthOf w.toNat)))).advance

/-- R59, R60, R105 to R108: what a capability register takes. A form that moves the cursor keeps the tag only where the
bounds stay, and always within them and one past; CSETB gives the requested bounds rounded outward to 2^e bits, exact up
to 2^19 bits, or traps. No word writes c14, and only a handler's words write c15; that this comes before the other checks of such a word is the
model's choice (log 136). -/
def Obligations.CapabilityWrites : Prop :=
  (∀ (s : State) (d a : BitVec 4) (b : BitVec 5) (w : BitVec 4) (u : BitVec 1) (o : BitVec 2) (sc : BitVec 3),
    d = 14 ∨ (d = 15 ∧ s.me.ctl.handler = false) →
    ∀ i, i = .ldc d a b o sc ∨ i = .cmov d a ∨ i = .candp d a b ∨ i = .csetb d a b ∨ i = .ccur d a b ∨ i = .padd d a b w
        ∨ i = .psub d a b w ∨ i = .palign d a u w ∨ i = .pbit d a b →
      s.traps (exec i s) { code := cILLEGAL, detail := 9, tinfo := encodeNat i })
  ∧ (∀ (s : State) (n : Nat) (h : Bool), ({ s with me := { s.me with ctl := { s.me.ctl with handler := h } } } : State).cval n = s.cval n)
  ∧ ∀ (s : State) (d a : BitVec 4) (b : BitVec 5) (w : BitVec 4) (u : BitVec 1) (c : Cap) (v : Word),
    (d.toNat < 14 ∨ (d = 15 ∧ s.me.ctl.handler = true)) → s.cval a.toNat = .ok c → s.sval b.toNat = .ok v →
    let n := widthOf w.toNat
    let moves := fun (i : Instr) (x : Nat) =>
      ∃ k, exec i s = .next (s.setC d.toNat k).advance ∧ k.cursor = x % 2 ^ 64 ∧ k.perm = c.perm ∧ k.space = c.space
        ∧ (k.tag = true → c.tag = true ∧ k.base = c.base ∧ k.top = c.top)
        ∧ (c.tag = true → c.base ≤ x % 2 ^ 64 → x % 2 ^ 64 ≤ c.top → k.tag = true)
    let e := (encodeBounds c.cursor v.toNat).1
    let lo := c.cursor - c.cursor % 2 ^ e
    let hi := (c.cursor + v.toNat + 2 ^ e - 1) / 2 ^ e * 2 ^ e
    moves (.ccur d a b) v.toNat
    ∧ moves (.padd d a b w) (c.cursor + v.toNat * n)
    ∧ moves (.psub d a b w) (BitVec.ofNat 64 c.cursor - v * BitVec.ofNat 64 n).toNat
    ∧ moves (.pbit d a b) (8 * v.toNat)
    ∧ (0 < n → moves (.palign d a u w) (if u = 0 then c.cursor / n * n else (c.cursor + n - 1) / n * n))
    ∧ exec (.cmov d a) s = .next (s.setC d.toNat c).advance
    ∧ (∃ k, exec (.candp d a b) s = .next (s.setC d.toNat k).advance ∧ k.perm = c.perm &&& v.toNat % 2 ^ 12 ∧ k.tag = c.tag
        ∧ k.cursor = c.cursor ∧ k.space = c.space ∧ k.base = c.base ∧ k.top = c.top)
    ∧ (c.tag = true → c.cursor + v.toNat ≤ 2 ^ 64 → c.base ≤ lo → hi ≤ c.top →
        ∃ k, exec (.csetb d a b) s = .next (s.setC d.toNat k).advance ∧ k.tag = true ∧ k.cursor = c.cursor ∧ k.perm = c.perm
          ∧ k.space = c.space ∧ k.base = lo ∧ k.top = hi ∧ (v.toNat ≤ 2 ^ 19 → lo = c.cursor ∧ hi = c.cursor + v.toNat))
    ∧ (c.tag = false → s.traps (exec (.csetb d a b) s) { code := cCAP_TAG, detail := 5, tinfo := a.toNat, taddr := c.cursor })
    ∧ (c.tag = true → (2 ^ 64 < c.cursor + v.toNat ∨ lo < c.base ∨ c.top < hi) →
        s.traps (exec (.csetb d a b) s) { code := cCAP_BOUNDS, detail := 5, tinfo := a.toNat, taddr := c.cursor })

/-! ## Traps, returns and the system words -/

/-- R22, R168, R175: a trap of a scribe whose handler can run and that is not in it enters the handler; one that is in it, or
whose handler cannot run, stops with a double fault. A consumed error of a team with a checkpoint is not meant here. -/
def Obligations.TrapEntry : Prop :=
  ∀ (s : State) (r : Trap), r.code ≠ cPOISON → r.code ≠ cWET_FAULT →
    (s.me.ctl.handler = false → s.me.ctl.entryRuns = true → s.entered (s.takeTrap r) r)
    ∧ (s.me.ctl.handler = false → s.me.ctl.entryRuns = true → r.next = false → s.me.ctl.xim = none → s.me.ctl.remain < 16 →
        (s.takeTrap r).me.ctl.tstatus.toNat = if s.me.ctl.remain = 0 then 0
          else s.me.ctl.header.toNat + s.me.ctl.remain * 2 ^ 32 + (if s.me.ctl.temps then 2 ^ 36 else 0))
    ∧ (s.me.ctl.handler = true ∨ s.me.ctl.entryRuns = false → r.code < 2 ^ 8 →
        (s.takeTrap r).me.run.life = .failed ∧ (s.takeTrap r).me.run.stopCause = cDOUBLE_FAULT
          ∧ (s.takeTrap r).me.ctl.tcause.toNat = 0x12 + 256 * r.code ∧ (s.takeTrap r).me.run.pending = []
          ∧ ∀ tm, s.team s.me.at_.team = some tm → tm.id = s.me.at_.team →
              ∃ tm', (s.takeTrap r).team tm.id = some tm' ∧ tm'.failing = true)

/-- R168, R172, R378: TRAP and BRK enter the handler with their number and the next word's address; under break capture a BRK
stops its scribe for the host. -/
def Obligations.TrapWords : Prop :=
  ∀ (s : State) (n : BitVec 10), s.me.ctl.handler = false → s.me.ctl.entryRuns = true →
    (∃ t, exec (.trap n) s = .next t ∧ s.entered t { code := 0x15, tinfo := n.toNat, next := true })
    ∧ (s.breakCapture = false → ∃ t, exec (.brk n) s = .next t ∧ s.entered t { code := 0x16, tinfo := n.toNat, next := true })
    ∧ (s.breakCapture = true → ∃ t, exec (.brk n) s = .next t ∧ t.me.run.life = .debugHeld ∧ t.me.run.stopCause = 0x23
        ∧ t.me.ctl.pc = s.me.ctl.pc + 32 ∧ t.me.r = s.me.r ∧ t.plane = s.plane ∧ t.dram = s.dram)

/-- R170, R171: TRET and TRET.REPLAY leave the handler for the header position TPC, or go on inside the interrupted clause where
the resume point passes its check; another resume point raises ILLEGAL_CLAUSE, and outside a handler they raise ILLEGAL.
TRET.REPLAY on WET_FAULT performs the faulted load again first, after the scribe's earlier accesses to its atoms, and its register takes the value, or the one
that it has kept from its place in program order (R103, R104, R160). That the program goes on at TPC rounded
down to a multiple of 32 is the model's choice (log 114). -/
def Obligations.TrapReturn : Prop :=
  ∀ (s : State) (i : Instr), i = .tret ∨ i = .tretReplay →
    let rem := bits s.me.ctl.tstatus.toNat 32 4
    let back := fun (t : State) => t.me.ctl.handler = false ∧ t.me.ctl.pc.toNat = s.me.ctl.tpc.toNat / 32 * 32 ∧ t.me.ctl.remain = rem ∧ t.me.ctl.xim = none
      ∧ (rem ≠ 0 → t.me.ctl.header.toNat = bits s.me.ctl.tstatus.toNat 0 32)
    let same := fun (t : State) => { t.me.r with v := s.me.r.v, pv := s.me.r.pv } = s.me.r ∧ s.sameElse t ∧ s.sameMemory t
      ∧ ∀ g l, g < 64 → l < 64 → t.getV g l = s.getV g l
    (s.me.ctl.handler = false → s.traps (exec i s) { code := 0x01, detail := 9, tinfo := encodeNat i })
    ∧ (s.me.ctl.handler = true → rem ≠ 0 → s.resumeOk = false → s.traps (exec i s) { code := 0x02, detail := 7, tinfo := encodeNat i })
    ∧ (s.me.ctl.handler = true → (rem ≠ 0 → s.resumeOk = true) → i = .tret ∨ bits s.me.ctl.tcause.toNat 0 8 ≠ 0x09 →
        ∃ t, exec i s = .next t ∧ back t ∧ same t)
    ∧ (s.me.ctl.handler = true → rem = 0 → bits s.me.ctl.tcause.toNat 0 8 = 0x09 → i = .tretReplay →
        ∀ tag r g k q, s.me.run.replayTag = some tag → find s.me.wet.tags tag = some r → r.updated = false → r.amo = none →
          s.afterTags (· < tag) r.space r.addr r.width = .ok s → s.getFar s.meWho r.space r.addr r.width .load = .ok g → g.st = s → g.waits = none → g.bad = none →
          rising s.me.wet.s = true → find s.me.wet.s k = some q → q.tag = tag →
          ∃ t, exec i s = .next t ∧ back t ∧ find t.me.wet.s k = none ∧ find t.me.wet.tags tag = none
            ∧ look 0 t.me.r.x k = q.a * (if r.kept then r.x else extend r.width r.signed g.n) + look 0 s.me.r.x k)

/-- R81, R110, R111, Table 05-12: GETC reads a control register into sd. SETC writes one that it may write, with a value its
map allows: it then reads as written and every other one as before. SETC.RNGS writes SEED and starts the lanes' states
again. -/
def Obligations.ControlRegisters : Prop :=
  ∀ (s : State) (n : BitVec 10) (d : BitVec 5) (v : Word),
    (s.creg n.toNat = some v → exec (.getc n d) s = .next (s.setS d.toNat v).advance)
    ∧ (s.creg n.toNat = none → s.traps (exec (.getc n d) s) { code := 0x01, detail := 8, tinfo := encodeNat (.getc n d) }
        ∧ s.traps (exec (.setc n d) s) { code := 0x01, detail := 8, tinfo := encodeNat (.setc n d) })
    ∧ (s.creg 0x001 = some s.me.ctl.fpm ∧ s.creg 0x010 = some s.me.ctl.tcause ∧ s.creg 0x011 = some s.me.ctl.tpc
        ∧ s.creg 0x014 = some s.me.ctl.tstatus ∧ s.creg 0x015 = some s.me.ctl.tvec ∧ s.creg 0x051 = some (s.me.at_.id.setWidth 64))
    ∧ (s.sval d.toNat = .ok v →
        (∀ k, s.creg n.toNat ≠ none → s.me.setCreg n.toNat v = some k →
          ∃ t, exec (.setc n d) s = .next t ∧ t.creg n.toNat = some v ∧ (∀ m, m ≠ n.toNat → t.creg m = s.creg m)
            ∧ s.sameElse t ∧ s.sameMemory t ∧ t.me.r = s.me.r ∧ t.me.wet = s.me.wet)
        ∧ (n ∈ [0x000, 0x015, 0x040, 0x041, 0x042, 0x043, 0x050, 0x051, 0x052, 0x053] →
            s.traps (exec (.setc n d) s) { code := 0x01, detail := 9, tinfo := encodeNat (.setc n d) })
        ∧ (n ∈ [0x010, 0x011, 0x012, 0x013, 0x014] → s.me.ctl.handler = false →
            s.traps (exec (.setc n d) s) { code := 0x01, detail := 9, tinfo := encodeNat (.setc n d) })
        ∧ (v.toNat < 2 ^ 32 →
            ∃ t, exec (.setcRngs d) s = .next t ∧ t.creg 0x003 = some v ∧ s.sameMemory t ∧ s.sameElse t
              ∧ { t.me.r with rng := s.me.r.rng } = s.me.r
              ∧ ∀ l, l < 64 → look 0 t.me.r.rng l = if bitOf s.live l then rngSeed (v.setWidth 32) l else look 0 s.me.r.rng l))

/-- R82, R112, R113, R153, R163: small words that write no register, and WETQ, which writes sd alone. FENCE goes on once nothing it orders is under way; XIM
holds its payload for the next word; DRY and DRYALL wait until the register, or every one, is dry; WETQ tells. -/
def Obligations.SmallWords : Prop :=
  ∀ (s : State) (o : BitVec 2) (sc : BitVec 3) (p : BitVec 26) (d : BitVec 5) (r : BitVec 6) (k : BitVec 1),
    exec .nop s = .next s.advance
    ∧ exec .beat s = .next (s.progress s.me.at_.asid).advance
    ∧ (∃ t, exec .yield s = .next t ∧ s.plainFrame t ∧ (s.me.ctl.remain ≤ 1 → t.me.run.deferred = true))
    ∧ (s.me.run.jobs = [] → s.ordered o.toNat = .ok () → exec (.fence sc o) s = .next s.advance)
    ∧ (s.me.run.jobs ≠ [] → exec (.fence sc o) s = .next (s.parkMe .planeQueue))
    ∧ (s.me.ctl.xim = none → 1 < s.me.ctl.remain →
        ∃ t, exec (.xim p) s = .next t ∧ t.me.ctl.xim = some p ∧ t.me.ctl.pc = s.me.ctl.pc + 32
          ∧ t.me.ctl.remain = s.me.ctl.remain - 1 ∧ s.plainFrame t)
    ∧ (s.me.ctl.xim = none → s.me.ctl.remain ≤ 1 → s.traps (exec (.xim p) s) { code := 0x02, detail := 6, tinfo := encodeNat (.xim p) })
    ∧ (s.me.ctl.xim.getD 0 = 0 →
        (k = 1 → s.me.wetS (r.toNat % 32) = none → exec (.dry r k) s = .next s.advance)
        ∧ (k = 0 → s.me.wetV (s.vr r.toNat) = none → exec (.dry r k) s = .next s.advance)
        ∧ (k = 1 → ∀ q, s.me.wetS (r.toNat % 32) = some q → q.fault = none → exec (.dry r k) s = .next (s.parkMe .wetOperand))
        ∧ (k = 1 → exec (.wetq d r k) s = .next (s.setS d.toNat (if (s.me.wetS (r.toNat % 32)).isSome then 1 else 0)).advance)
        ∧ (k = 0 → ∃ m, exec (.wetq d r k) s = .next (s.setS d.toNat m).advance
            ∧ ∀ l, l < 64 → bitOf m l = (bitOf s.live l && (s.me.laneWet (s.vr r.toNat) l || look 0 s.me.r.pv (vKey (s.vr r.toNat) l) = 1
                || look 0 s.me.r.pv (vKey (s.vr r.toNat) l) = 2)))
        ∧ (s.me.pendingWet = false → exec .dryAll s = .next s.advance)
        ∧ (s.me.pendingWet = true → exec .dryAll s = .next (s.parkMe .wetOperand)))

/-- R65, R66, R67, R85, R408: a header that is fetched and sound begins a clause of its words; another raises ILLEGAL. A word of a
clause that is no instruction raises ILLEGAL with the check it fails first. -/
def Obligations.Clauses : Prop :=
  ∀ (s s0 : State) (w f : BitVec 32), s.me.run.life = .running →
    (s.me.ctl.remain = 0 → s.fetch = .ok (s0, f) →
      (headerOk w = true → ∃ t, exec (.clauseHeaderFetch w) s = .next t ∧ t.me.ctl.pc = s0.me.ctl.pc + 32 ∧ t.me.ctl.header = w
        ∧ t.me.ctl.remain = bits w.toNat 0 4 ∧ s0.sameElse t ∧ s0.sameMemory t
        ∧ { t.me.r with v := s0.me.r.v, pv := s0.me.r.pv } = s0.me.r
        ∧ (∀ g l, g < 64 → l < 64 → t.getV g l = s0.getV g l) ∧ ∀ g l, 64 ≤ g → g < 68 → l < 64 → t.getV g l = 0)
      ∧ (headerOk w = false → s0.traps (exec (.clauseHeaderFetch w) s) { code := 0x01, detail := 1, tinfo := w.toNat }))
    ∧ (s.me.ctl.remain ≠ 0 →
        (0x34 ≤ bits w.toNat 26 6 → s.traps (exec (.illegalWord w) s) { code := 0x01, detail := 2, tinfo := w.toNat })
        ∧ (bits w.toNat 26 6 = 0x08 → bits w.toNat 22 4 = 9 → s.traps (exec (.illegalWord w) s) { code := 0x01, detail := 3, tinfo := w.toNat })
        ∧ (bits w.toNat 26 6 = 0x01 → bits w.toNat 0 11 = 0x15 → s.traps (exec (.illegalWord w) s) { code := 0x01, detail := 3, tinfo := w.toNat })
        ∧ (bits w.toNat 26 6 = 0x01 → bits w.toNat 0 11 = 0x14 → decodeTableWord 32 w.toNat = none →
            s.traps (exec (.illegalWord w) s) { code := 0x01, detail := 4, tinfo := w.toNat }))

/-- R23, R354, R355, R381: STEPB opens a step with its deadline and work, STEPE closes it and leaves the nanoseconds left,
saturated as a signed number (the model's reading, log 21), in SLACK; MARK writes one trace record into the folio of its cluster, where an
open session of its context wants it, and nothing else; EXIT waits for what the scribe has under way and then
frees its context. -/
def Obligations.StepMarkExit : Prop :=
  ∀ (s : State) (a b : BitVec 5) (n : BitVec 12) (x y : Word),
    (s.me.ctl.xim = none → s.sval a.toNat = .ok x → s.sval b.toNat = .ok y → s.me.ctl.stepOpen = false → y ≠ 0 → y.toNat < 2 ^ 48 →
      ∃ t, exec (.stepb a b n) s = .next t ∧ t.me.ctl.stepOpen = true ∧ t.me.ctl.stepId = n.setWidth 32 ∧ t.creg 0x041 = some x
        ∧ t.me.ctl.left = y.toNat ∧ t.me.ctl.risked = false ∧ t.me.r = s.me.r ∧ s.sameMemory t ∧ s.sameElse t)
    ∧ (s.me.ctl.xim = none → s.sval a.toNat = .ok x → s.sval b.toNat = .ok y → s.me.ctl.stepOpen = true ∨ y = 0 ∨ 2 ^ 48 ≤ y.toNat →
        s.traps (exec (.stepb a b n) s) { code := 0x01, detail := 9, tinfo := encodeNat (.stepb a b n) })
    ∧ (s.me.ctl.xim = none → s.me.ctl.stepOpen = true → s.me.ctl.stepId = n.setWidth 32 →
        ∃ t, exec (.stepe n) s = .next t ∧ t.me.ctl.stepOpen = false ∧ t.me.r = s.me.r ∧ s.sameMemory t
          ∧ t.me.ctl.slackNs.toInt = max (-2 ^ 31) (min (2 ^ 31 - 1) (s.me.ctl.deadline - BitVec.ofNat 64 s.time).toInt))
    ∧ (s.me.ctl.xim = none → s.me.ctl.stepOpen = false → s.traps (exec (.stepe n) s) { code := 0x01, detail := 9, tinfo := encodeNat (.stepe n) })
    ∧ (s.sval a.toNat = .ok x →
        ∃ t, exec (.mark a n) s = .next t ∧ t.me.r = s.me.r ∧ s.sameMemory t ∧ s.sameCtl t ∧ t.lines = s.lines ∧ t.others = s.others
          ∧ (find s.sessions s.me.at_.asid.toNat = none → t.clusters = s.clusters)
          ∧ ∀ ss, find s.sessions s.me.at_.asid.toNat = some ss →
            let k := clusterOf s.me.at_.id
            let f := (look {} s.clusters k : Cluster)
            (ss.records 4 = false ∨ bits ss.clusters.toNat k 1 = 0 → t.clusters = s.clusters)
            ∧ (ss.records 4 = true → bits ss.clusters.toNat k 1 = 1 → f.folio.length < 4096 → look 0 f.dropped s.me.at_.asid.toNat = 0 →
                look 0 f.lastHi s.me.at_.asid.toNat = s.time / 2 ^ 20 + 1 →
                ∃ r : BitVec 128, (look {} t.clusters k : Cluster).folio = f.folio ++ [(s.me.at_.asid, r)] ∧ bits r.toNat 122 6 = 4
                  ∧ bits r.toNat 108 14 = s.me.at_.id.toNat ∧ bits r.toNat 64 20 = s.time % 2 ^ 20 ∧ bits r.toNat 32 32 = x.toNat % 2 ^ 32 ∧ bits r.toNat 20 12 = n.toNat
                  ∧ bits r.toNat 0 20 = (s.me.ctl.wordAt - s.me.at_.codeBase).toNat / 32 % 2 ^ 20))
    ∧ (∀ p, s.exitWaits = some p → exec .exit s = .next (s.parkMe p))
    ∧ (s.exitWaits = none → ∃ t, exec .exit s = .next t
        ∧ (s.me.run.life ≠ .free → s.me.at_.pair = none → find s.others s.me.at_.id.toNat = none → s.streams = [] →
            (∀ q ∈ s.bars, ¬ s.me.at_.id ∈ q.2.participants) → t.scribe s.me.at_.id = none))

/-! ## Lane words -/

/-- R8, R12, R13, R14, R239: plane bit addresses and lane numbers, and the lanes a guarded word writes: those of the patch, not on a hole, in
which the guard holds, or with N set does not. -/
def Obligations.ActiveLanes : Prop :=
  (∀ (s : State) (g : BitVec 4) (l : Nat), s.me.at_.width < 3 → l < 64 →
    (bitOf (s.active g) l = true ↔
      l < 16 * 2 ^ s.me.at_.width ∧ s.hole (s.me.at_.peOf l) = false
        ∧ (bits g.toNat 0 3 = 0 → g.toNat < 8) ∧ (bits g.toNat 0 3 ≠ 0 → (bitOf (look 0 s.me.r.q (bits g.toNat 0 3)) l = true ↔ g.toNat < 8))))
  ∧ (∀ (p : Place) (px py : Nat), p.width < 3 →
      let w := if p.width = 0 then 4 else 8
      let h := if p.width = 2 then 8 else 4
      px < w → py < h → p.lanes = w * h ∧ p.peOf (py * w + px) = (p.oy + py) * 256 + (p.ox + px))
  ∧ ∀ x y depth : Nat, x < 256 → y < 256 → depth < 131072 →
      let a := planeAddr (y * 256 + x) depth
      a < 2 ^ 33 ∧ bits a 0 17 = depth ∧ bits a 17 8 = x ∧ bits a 25 8 = y ∧ a / 512 = lineNo (y * 256 + x) (depth / 512)

/-- R115, R119 to R122, R151: the integer forms of two lane registers that are dry and clean where the word is active. -/
def Obligations.LaneTwoSources : Prop :=
  ∀ (s : State) (g : BitVec 4) (d a b : BitVec 6),
    let m := s.active g
    s.vdryAll m [s.vr a.toNat, s.vr b.toNat] = .ok () →
    let gives := fun (i : Instr) (f : Lane → Lane → Lane) =>
      s.laneGives m (s.vr d.toNat) (fun l => f (s.getV (s.vr a.toNat) l) (s.getV (s.vr b.toNat) l)) (exec i s)
    let pos := fun (c : Lane) => c.toNat % 32
    let len := fun (c : Lane) => min (c.toNat / 32 % 32 + 1) (32 - c.toNat % 32)
    gives (.vadd g d a b) (fun x y => x + y) ∧ gives (.vsub g d a b) (fun x y => x - y)
    ∧ gives (.vand g d a b) (fun x y => x &&& y) ∧ gives (.vor g d a b) (fun x y => x ||| y)
    ∧ gives (.vxor g d a b) (fun x y => x ^^^ y) ∧ gives (.vandn g d a b) (fun x y => x &&& ~~~y)
    ∧ gives (.vminI g d a b) (fun x y => if y.toInt < x.toInt then y else x) ∧ gives (.vmaxI g d a b) (fun x y => if y.toInt < x.toInt then x else y)
    ∧ gives (.vminB g d a b) (fun x y => if y.toNat < x.toNat then y else x) ∧ gives (.vmaxB g d a b) (fun x y => if y.toNat < x.toNat then x else y)
    ∧ gives (.vaddsatI g d a b) (fun x y => BitVec.ofInt 32 (max (-2147483648) (min 2147483647 (x.toInt + y.toInt))))
    ∧ gives (.vsubsatI g d a b) (fun x y => BitVec.ofInt 32 (max (-2147483648) (min 2147483647 (x.toInt - y.toInt))))
    ∧ gives (.vaddsatB g d a b) (fun x y => BitVec.ofNat 32 (min 4294967295 (x.toNat + y.toNat)))
    ∧ gives (.vsubsatB g d a b) (fun x y => BitVec.ofNat 32 (x.toNat - y.toNat))
    ∧ gives (.vmul g d a b) (fun x y => x * y)
    ∧ gives (.vmulhI g d a b) (fun x y => BitVec.ofInt 32 (x.toInt * y.toInt / 2 ^ 32))
    ∧ gives (.vmulhB g d a b) (fun x y => BitVec.ofNat 32 (x.toNat * y.toNat / 2 ^ 32))
    ∧ gives (.vshl g d a b) (fun x y => BitVec.ofNat 32 (x.toNat * 2 ^ (y.toNat % 32)))
    ∧ gives (.vshr g d a b) (fun x y => BitVec.ofNat 32 (x.toNat / 2 ^ (y.toNat % 32)))
    ∧ gives (.vsar g d a b) (fun x y => BitVec.ofInt 32 (x.toInt / 2 ^ (y.toNat % 32)))
    ∧ gives (.vbfx g d a b) (fun x c => BitVec.ofNat 32 (x.toNat / 2 ^ pos c % 2 ^ len c))
    ∧ gives (.vbfxI g d a b) (fun x c => ((x.extractLsb' (pos c) (len c)).signExtend 32))
    ∧ (s.vdry (s.vr d.toNat) m = .ok () →
        s.laneGives m (s.vr d.toNat) (fun l => s.getV (s.vr d.toNat) l + s.getV (s.vr a.toNat) l * s.getV (s.vr b.toNat) l) (exec (.vmad g d a b) s)
        ∧ ∃ f : Nat → Lane, s.laneGives m (s.vr d.toNat) f (exec (.vbfi g d a b) s)
          ∧ ∀ l k, l < 64 → k < 32 →
              let c := s.getV (s.vr b.toNat) l
              (f l).getLsbD k = if pos c ≤ k ∧ k < pos c + len c then (s.getV (s.vr a.toNat) l).getLsbD (k - pos c)
                else (s.getV (s.vr d.toNat) l).getLsbD k)

/-- R119 to R122, R129 to R131: the integer forms of one lane register, of an immediate and of a scalar register. -/
def Obligations.LaneOneSource : Prop :=
  ∀ (s : State) (g : BitVec 4) (d a e : BitVec 6) (i : BitVec 8) (j : BitVec 12) (n : BitVec 5) (r : BitVec 5) (v : Word),
    let m := s.active g
    let any := fun (o : Instr) (f : Nat → Lane) => s.laneGives m (s.vr d.toNat) f (exec o s)
    (s.vdry (s.vr a.toNat) m = .ok () →
      let gives := fun (o : Instr) (f : Lane → Lane) => any o fun l => f (s.getV (s.vr a.toNat) l)
      gives (.vnot g d a) (fun x => ~~~x) ∧ gives (.vabs g d a) (fun x => if x.toInt < 0 then -x else x) ∧ gives (.vneg g d a) (fun x => -x)
      ∧ gives (.vaddi g d a i) (fun x => x + s.imm8 i) ∧ gives (.vandi g d a i) (fun x => x &&& s.imm8 i) ∧ gives (.vori g d a i) (fun x => x ||| s.imm8 i)
      ∧ (s.me.ctl.xim.getD 0 = 0 → gives (.vshli g d a n) (fun x => x <<< n.toNat))
      ∧ gives (.vmov g d a) (fun x => x)
      ∧ gives (.vpopc g d a) (fun x => BitVec.ofNat 32 ((List.range 32).filter fun k => x.getLsbD k).length)
      ∧ ∃ z : Lane → Nat, gives (.vclz g d a) (fun x => BitVec.ofNat 32 (z x))
        ∧ ∀ x, z x ≤ 32 ∧ (∀ k, k < z x → x.getLsbD (31 - k) = false) ∧ (z x < 32 → x.getLsbD (31 - z x) = true))
    ∧ any (.vmovi g d j) (fun _ => j.signExtend 32)
    ∧ (s.sval r.toNat = .ok v → any (.vfromg g d r) (fun _ => v.setWidth 32))
    ∧ (let w := if s.me.at_.width = 0 then 4 else 8
       any (.vlane g d 0) (fun l => BitVec.ofNat 32 l) ∧ any (.vlane g d 1) (fun l => BitVec.ofNat 32 (l % w))
       ∧ any (.vlane g d 2) (fun l => BitVec.ofNat 32 (l / w)) ∧ any (.vlane g d 3) (fun l => BitVec.ofNat 32 (s.me.at_.ox + l % w))
       ∧ any (.vlane g d 4) (fun l => BitVec.ofNat 32 (s.me.at_.oy + l / w))
       ∧ any (.vlane g d e) (fun l => BitVec.ofNat 32 (s.me.laneNum e.toNat l)))
    ∧ (s.vdry (s.vr a.toNat) m = .ok () → s.vdry (s.vr e.toNat) (s.live &&& ~~~m) = .ok () →
        s.laneGives s.live (s.vr d.toNat) (fun l => if bitOf m l then s.getV (s.vr a.toNat) l else s.getV (s.vr e.toNat) l) (exec (.vsel g d a e) s))

/-- R114, R128, R129: compares and the forms of predicates. The f32 compares follow the order of the values, with DAZ, infinities at its
ends and -0 equal to +0; one with a NaN is false but for NE, and FCMPU is true of it. -/
def Obligations.Predicates : Prop :=
  ∀ (s : State) (g : BitVec 4) (q : BitVec 3) (a b : BitVec 6) (c : BitVec 4) (x y : BitVec 3),
    let m := s.active g
    let A := fun l => s.getV (s.vr a.toNat) l
    let B := fun l => s.getV (s.vr b.toNat) l
    let fA := fun l => opval s.me.ctl.daz .f32 (A l).toNat
    let fB := fun l => opval s.me.ctl.daz .f32 (B l).toNat
    let gives := fun (i : Instr) (f : Nat → Bool) => s.predGives m q.toNat f (exec i s)
    -- an f32 value times 2^149, which is an integer, and an infinity beyond all of them
    let scaled := fun (v : Val) => show Int from match v with
      | .fin n k e _ => (if n then -1 else 1) * k * 2 ^ (e + 149).toNat
      | .inf n => if n then -2 ^ 400 else 2 ^ 400
      | .nan => 0
    (s.vdryAll m [s.vr a.toNat, s.vr b.toNat] = .ok () →
      gives (.vcmp g q a b 0) (fun l => A l = B l) ∧ gives (.vcmp g q a b 1) (fun l => A l ≠ B l)
      ∧ gives (.vcmp g q a b 2) (fun l => (A l).toInt < (B l).toInt) ∧ gives (.vcmp g q a b 3) (fun l => (A l).toInt ≤ (B l).toInt)
      ∧ gives (.vcmp g q a b 4) (fun l => (B l).toInt < (A l).toInt) ∧ gives (.vcmp g q a b 5) (fun l => (B l).toInt ≤ (A l).toInt)
      ∧ gives (.vcmp g q a b 6) (fun l => (A l).toNat < (B l).toNat) ∧ gives (.vcmp g q a b 7) (fun l => (A l).toNat ≤ (B l).toNat)
      ∧ gives (.vcmp g q a b 8) (fun l => (B l).toNat < (A l).toNat) ∧ gives (.vcmp g q a b 9) (fun l => (B l).toNat ≤ (A l).toNat)
      ∧ (∃ f, gives (.vcmpF g q a b c) f ∧ ∀ l,
          ((fA l).isNan = true ∨ (fB l).isNan = true → f l = decide (c = 1))
          ∧ ((fA l).isNan = false → (fB l).isNan = false →
              let i : Int := scaled (fA l)
              let j : Int := scaled (fB l)
              (c = 0 → f l = decide (i = j)) ∧ (c = 1 → f l = decide (i ≠ j)) ∧ (c = 2 → f l = decide (i < j)) ∧ (c = 3 → f l = decide (i ≤ j))
                ∧ (c = 4 → f l = decide (j < i)) ∧ (c = 5 → f l = decide (j ≤ i))))
      ∧ gives (.fcmpu g q a b) (fun l => (fval .f32 (A l).toNat).isNan || (fval .f32 (B l).toNat).isNan))
    ∧ gives (.pand g q x y) (fun l => bitOf (s.getQ x.toNat) l && bitOf (s.getQ y.toNat) l)
    ∧ gives (.por g q x y) (fun l => bitOf (s.getQ x.toNat) l || bitOf (s.getQ y.toNat) l)
    ∧ gives (.pxor g q x y) (fun l => bitOf (s.getQ x.toNat) l != bitOf (s.getQ y.toNat) l)
    ∧ gives (.pnot g q x) (fun l => !bitOf (s.getQ x.toNat) l) ∧ gives (.pmov g q x) (fun l => bitOf (s.getQ x.toNat) l)

/-- R26, R27, R34, R37, R39, R123 to R127: the floating-point forms on registers that are dry where the word is active: each lane rounds the
exact result once in FPM.RM, with the stochastic state of its lane, and the flags join FPM. The sign of a zero sum in the fused forms and
in FDOT2 (log 100), FDOT2's NV for a NaN (log 24) and FRND's draw in mode 5 (log 22) are the model's readings. -/
def Obligations.FloatArithmetic : Prop :=
  (∀ (s : State) (g : BitVec 4) (d a b : BitVec 6) (p : BitVec 1) (r : BitVec 3) (f : BitVec 2),
    let m := s.active g
    let k := s.me.ctl
    let A := fun l => (s.getV (s.vr a.toNat) l).toNat
    let B := fun l => (s.getV (s.vr b.toNat) l).toNat
    let D := fun l => (s.getV (s.vr d.toNat) l).toNat
    let st := fun l => look 0 s.me.r.rng l
    let gives := fun (i : Instr) (o : Nat → LaneOut) => s.fpGives m (s.vr d.toNat) o (exec i s)
    let h := if p = 1 then Fmt.bf16 else Fmt.f16
    let v := fun n => opval k.daz .f32 n
    let w := fun n => opval k.daz h n
    let lo := fun n => n % 2 ^ 16
    let hi := fun n => n / 2 ^ 16
    let pair := fun (o : (Nat → Nat) → Lane → LaneOut) (x : Lane) =>
      let y := o lo x
      let z := o hi y.rng
      ({ v := BitVec.ofNat 32 (y.v.toNat % 2 ^ 16 + z.v.toNat % 2 ^ 16 * 2 ^ 16), flags := y.flags ||| z.flags, rng := z.rng } : LaneOut)
    let fma := fun (q : Fmt) (np nz : Bool) (x y z : Nat) (t : Lane) =>
      let e := (opval k.daz q x).mul (opval k.daz q y)
      let c := opval k.daz q z
      let u := Val.sum k.rmField [if np then e.1.negate else e.1, if nz then c.negate else c]
      roundLane (u.1, e.2 ||| u.2) q k.rm t
    s.vdryAll m [s.vr a.toNat, s.vr b.toNat] = .ok () →
    gives (.fadd g d a b) (fun l => roundLane (Val.sum k.rmField [v (A l), v (B l)]) .f32 k.rm (st l))
    ∧ gives (.fsub g d a b) (fun l => roundLane (Val.sum k.rmField [v (A l), (v (B l)).negate]) .f32 k.rm (st l))
    ∧ gives (.fmul g d a b) (fun l => roundLane ((v (A l)).mul (v (B l))) .f32 k.rm (st l))
    ∧ gives (.fmin g d a b) (fun l => fpMin k .f32 false (A l) (B l) (st l)) ∧ gives (.fmax g d a b) (fun l => fpMin k .f32 true (A l) (B l) (st l))
    ∧ gives (.fabs g d a) (fun l => fpSign k .f32 false (A l) (st l)) ∧ gives (.fneg g d a) (fun l => fpSign k .f32 true (A l) (st l))
    ∧ gives (.frnd g d a r) (fun l => fpRnd k .f32 (if r = 7 then k.rmField else r.toNat) (A l) (st l))
    ∧ gives (.faddPacked g d a b p) (fun l => pair (fun e t => roundLane (Val.sum k.rmField [w (e (A l)), w (e (B l))]) h k.rm t) (st l))
    ∧ gives (.fsubPacked g d a b p) (fun l => pair (fun e t => roundLane (Val.sum k.rmField [w (e (A l)), (w (e (B l))).negate]) h k.rm t) (st l))
    ∧ gives (.fmulPacked g d a b p) (fun l => pair (fun e t => roundLane ((w (e (A l))).mul (w (e (B l)))) h k.rm t) (st l))
    ∧ gives (.fminPacked g d a b p) (fun l => pair (fun e t => fpMin k h false (e (A l)) (e (B l)) t) (st l))
    ∧ gives (.fmaxPacked g d a b p) (fun l => pair (fun e t => fpMin k h true (e (A l)) (e (B l)) t) (st l))
    ∧ gives (.fabsPacked g d a p) (fun l => pair (fun e t => fpSign k h false (e (A l)) t) (st l))
    ∧ gives (.fnegPacked g d a p) (fun l => pair (fun e t => fpSign k h true (e (A l)) t) (st l))
    ∧ gives (.frndPacked g d a r p) (fun l => pair (fun e t => fpRnd k h (if r = 7 then k.rmField else r.toNat) (e (A l)) t) (st l))
    ∧ s.laneGives m (s.vr d.toNat) (fun l => BitVec.ofNat 32 (fpClass .f32 (A l))) (exec (.fclass g d a) s)
    ∧ gives (.fclassPacked g d a p) (fun l => pair (fun e t => { v := BitVec.ofNat 32 (fpClass h (e (A l))), rng := t }) (st l))
    ∧ (s.vdryAll m [s.vr a.toNat, s.vr b.toNat, s.vr d.toNat] = .ok () →
        gives (.fdot2 g d a b p) (fun l => fpDot2 k h (s.getV (s.vr a.toNat) l) (s.getV (s.vr b.toNat) l) (s.getV (s.vr d.toNat) l) (st l))
        ∧ (f = 0 → gives (.fma g d a b f) (fun l => fma .f32 false false (A l) (B l) (D l) (st l))
            ∧ gives (.fms g d a b f) (fun l => fma .f32 false true (A l) (B l) (D l) (st l))
            ∧ gives (.fnma g d a b f) (fun l => fma .f32 true false (A l) (B l) (D l) (st l)))
        ∧ (f ≠ 0 →
            let q := if f = 2 then Fmt.bf16 else Fmt.f16
            gives (.fma g d a b f) (fun l => pair (fun e t => fma q false false (e (A l)) (e (B l)) (e (D l)) t) (st l))
            ∧ gives (.fms g d a b f) (fun l => pair (fun e t => fma q false true (e (A l)) (e (B l)) (e (D l)) t) (st l))
            ∧ gives (.fnma g d a b f) (fun l => pair (fun e t => fma q true false (e (A l)) (e (B l)) (e (D l)) t) (st l)))))
  ∧ ∀ (k : Ctl) (q : Fmt) (x y : Nat) (t : Lane) (up : Bool),
    let n := fun z => (fval q z).isNan
    (fpMin k q up x y t).flags = 0 ∧ (fpMin k q up x y t).v = BitVec.ofNat 32 (fminmax up q (dazBits k.daz q x) (dazBits k.daz q y))
    ∧ (n x = true → n y = true → fminmax up q x y = q.canon)
    ∧ (n x = true → n y = false → fminmax up q x y = y ∧ fminmax up q y x = y)
    ∧ (n x = false → n y = false → (fval q x).cmp (fval q y) < 0 ∨ (x = 2 ^ (q.width - 1) ∧ y = 0) →
        fminmax up q x y = (if up then y else x) ∧ fminmax up q y x = if up then y else x)

/-- R25, R34: with FTZ clear, the encoding of a finite value rounds to itself, with no flag, in every format and mode: every finite value
is representable and is left alone. -/
def Obligations.RoundingIsExact : Prop :=
  ∀ (f : Fmt) (n u : Nat) (r : Rm), n < 2 ^ f.width → (fval f n).isNan = false → fval f n ≠ .inf true → fval f n ≠ .inf false → r.ftz = false →
    round (fval f n) f r u = { code := n, flags := 0 }

/-- R132 to R137: conversions, quantisation and special functions on a register that is dry where the word is active; and results the
tables give: a NaN and a value outside the range convert to an integer with NV, and the functions' special values. VQUANT of a NaN gives
scale 63, and in mode 5 draws in that lane as in any other; that a lane draws where nothing is rounded (log 22) and the values of the
special functions elsewhere (log 13) are the model's readings. -/
def Obligations.Conversions : Prop :=
  ∀ (s : State) (g : BitVec 4) (d a b : BitVec 6) (x : BitVec 4) (r t e f : BitVec 2) (h i : BitVec 1),
    let m := s.active g
    let k := s.me.ctl
    let A := fun l => s.getV (s.vr a.toNat) l
    let st := fun l => look 0 s.me.r.rng l
    let gives := fun (i : Instr) (o : Nat → LaneOut) => s.fpGives m (s.vr d.toNat) o (exec i s)
    let spec := fun (i : Instr) (fn : Val → Val × Flags) => gives i fun l =>
      let y := fn (opval k.daz .f32 (A l).toNat)
      let q := round y.1 .f32 (k.rmWith (if k.rmField = 5 then 0 else k.rmField)) 0
      { v := BitVec.ofNat 32 q.code, flags := y.2 ||| q.flags, rng := st l }
    (s.vdry (s.vr a.toNat) m = .ok () →
      gives (.cvtF32ToX g d a x r) (fun l => convert k (.float .f32) (xfmt x.toNat) (k.rnd r.toNat) (A l) (st l))
      ∧ gives (.cvtI32ToX g d a x r) (fun l => convert k (.int true 32) (xfmt x.toNat) (k.rnd r.toNat) (A l) (st l))
      ∧ gives (.cvtXToF32 g d a x r) (fun l => convert k (xfmt x.toNat) (.float .f32) (k.rnd r.toNat) (A l) (st l))
      ∧ gives (.cvtXToI32 g d a x r) (fun l => convert k (xfmt x.toNat) (.int true 32) (k.rnd r.toNat) (A l) (st l))
      ∧ s.laneGives m (s.vr d.toNat) (fun l => exactF32 (opval k.daz (if h = 1 then .bf16 else .f16) ((A l).toNat / 2 ^ (16 * i.toNat) % 2 ^ 16))) (exec (.vunpack g d a h i) s)
      ∧ s.laneGives m (s.vr d.toNat) (fun l => dequant f.toNat (A l)) (exec (.vdequant g d a f) s)
      ∧ (∃ o, gives (.vquant g d a r t e f) o ∧ ∀ l, l < 64 → bitOf m l = true → (opval k.daz .f32 (A l).toNat).isNan = true →
          (o l).v.toNat = (64 * t.toNat + 63) * 2 ^ 24 ∧ (o l).rng = if (k.rnd r.toNat).mode = 5 then rngNext (st l) else st l)
      ∧ spec (.frcp g d a) frcp ∧ spec (.frsqrt g d a) frsqrt ∧ spec (.fsqrt g d a) fsqrt ∧ spec (.fexp2 g d a) fexp2
      ∧ spec (.flog2 g d a) flog2 ∧ spec (.fsin g d a) fsin ∧ spec (.fcos g d a) fcos ∧ spec (.ftanh g d a) ftanh)
    ∧ (s.vdryAll m [s.vr a.toNat, s.vr b.toNat] = .ok () →
        let packed := fun (h : Fmt) (l : Nat) =>
          let y := roundLane (opval k.daz .f32 (A l).toNat, 0) h k.rm (st l)
          let z := roundLane (opval k.daz .f32 (s.getV (s.vr b.toNat) l).toNat, 0) h k.rm y.rng
          ({ v := BitVec.ofNat 32 (y.v.toNat % 2 ^ 16 + z.v.toNat % 2 ^ 16 * 2 ^ 16), flags := y.flags ||| z.flags, rng := z.rng } : LaneOut)
        gives (.vpackF16 g d a b) (packed .f16) ∧ gives (.vpackBf16 g d a b) (packed .bf16))
    ∧ (∀ y, (convert k (.float .f32) (.int true 32) k.rm 0x7FC00000 y).v = 0 ∧ (convert k (.float .f32) (.int true 32) k.rm 0x7FC00000 y).flags = fNV
        ∧ (convert k (.float .f32) (.int false 8) k.rm 0xFF800000 y).v = 0 ∧ (convert k (.float .f32) (.int false 8) k.rm 0x7F800000 y).v = 255
        ∧ (convert k (.int true 32) (.int true 8) k.rm 200 y).v = 127)
    ∧ (∀ n, (frcp (.fin n 0 0 false)) = (.inf n, fDZ) ∧ frsqrt (.fin n 0 0 false) = (.inf n, fDZ) ∧ (frcp (.inf n)).1.isZero n = true)
    ∧ fsqrt (.inf true) = (.nan, fNV) ∧ fexp2 (.inf false) = (.inf false, 0) ∧ (flog2 (.fin false 0 0 false)) = (.inf true, fDZ)
    ∧ fsin (.inf true) = (.nan, fNV) ∧ fcos (.inf false) = (.nan, fNV) ∧ (frcp .nan).1 = .nan ∧ (ftanh .nan) = (.nan, 0)

/-- R151, R152, R154, R155, Tables 07-1 and 07-2: an integer form on a lane register that is wet in some active lanes goes on without those
bits, whatever its destination holds that it writes whole, its own source included: vd carries a record of the same tag, and once a
lane's tag resolves to X the lane takes what the form gives on the value a·X + o, two wet operands under one tag and one mask included.
FADD, FSUB, FMUL, FMA and FNEG on a fresh record take a step, which resolves to what the form would have computed from X in that
lane. -/
def Obligations.LaneStaysWet : Prop :=
  ∀ (s : State) (g : BitVec 4) (d a b e : BitVec 6) (i : BitVec 8) (n : BitVec 5) (r : WetRec),
    let m := s.active g
    let A := s.getV (s.vr a.toNat)
    let B := s.getV (s.vr b.toNat)
    let E := s.getV (s.vr e.toNat)
    s.me.wetV (s.vr a.toNat) = some r → r.kind = .int32 → r.mask &&& m ≠ 0 → s.me.poisonLanes (s.vr a.toNat) m true = 0 →
    s.vdry (s.vr b.toNat) m = .ok () → s.me.wet.recCount < 32 →
    let val := fun l x => if bitOf r.mask l then r.a.setWidth 32 * x + A l else A l
    let fits := fun (reg : Nat) => ∀ q, s.me.wetV reg = some q → q.mask &&& ~~~(r.mask &&& m) = 0
    let stays := fun (reg : Nat) (o : Instr) (f : Nat → Lane → Lane) =>
      ∃ t q, exec o s = .next t ∧ t.me.wetV reg = some q ∧ q.tag = r.tag ∧ q.mask = r.mask &&& m ∧ q.kind = .int32
        ∧ (∀ l x, l < 64 → bitOf m l = true → (if bitOf r.mask l then q.a.setWidth 32 * x else 0) + t.getV reg l = f l x)
        ∧ s.sameElse t ∧ s.sameMemory t ∧ s.sameLanesBut t reg m
    let rd := s.vr d.toNat
    (fits rd →
      stays rd (.vadd g d a b) (fun l x => val l x + B l) ∧ stays rd (.vadd g d b a) (fun l x => B l + val l x)
      ∧ stays rd (.vsub g d a b) (fun l x => val l x - B l) ∧ stays rd (.vsub g d b a) (fun l x => B l - val l x)
      ∧ stays rd (.vaddi g d a i) (fun l x => val l x + s.imm8 i) ∧ stays rd (.vneg g d a) (fun l x => -val l x) ∧ stays rd (.vmov g d a) val
      ∧ (s.me.ctl.xim.getD 0 = 0 → stays rd (.vshli g d a n) (fun l x => val l x <<< n.toNat))
      ∧ ((∃ y, s.uniform (s.vr b.toNat) m = some y) →
          stays rd (.vmul g d a b) (fun l x => val l x * B l) ∧ stays rd (.vmul g d b a) (fun l x => B l * val l x))
      ∧ ∀ q, s.me.wetV (s.vr e.toNat) = some q → q.kind = .int32 → q.tag = r.tag → q.mask = r.mask → s.me.poisonLanes (s.vr e.toNat) m true = 0 →
          let other := fun l x => if bitOf r.mask l then q.a.setWidth 32 * x + E l else E l
          stays rd (.vadd g d a e) (fun l x => val l x + other l x) ∧ stays rd (.vsub g d a e) (fun l x => val l x - other l x))
    ∧ (fits (s.vr a.toNat) → s.vdry (s.vr e.toNat) m = .ok () → stays (s.vr a.toNat) (.vmad g a b e) (fun l x => val l x + B l * E l))
    ∧ (fits rd → r.a = 1 → (∀ l, l < 64 → bitOf r.mask l = true → A l = 0) →
        let steps := fun (o : Instr) (f : Nat → Lane → LaneOut) =>
          ∃ t q st, exec o s = .next t ∧ t.me.wetV rd = some q ∧ q.tag = r.tag ∧ q.mask = r.mask &&& m ∧ q.step = some st
            ∧ (∀ l x, l < 64 → bitOf q.mask l = true →
                resolveStep st (q.a.setWidth 32) (t.getV rd l) x l = ((f l x).v, (f l x).flags) ∧ look 0 t.me.r.rng l = (f l x).rng)
            ∧ s.sameElse t ∧ s.sameMemory t
        let c := s.me.ctl
        let st := look 0 s.me.r.rng
        steps (.fadd g d a b) (fun l x => fpAdd c .f32 false x.toNat (B l).toNat (st l))
        ∧ steps (.fadd g d b a) (fun l x => fpAdd c .f32 false (B l).toNat x.toNat (st l))
        ∧ steps (.fsub g d a b) (fun l x => fpAdd c .f32 true x.toNat (B l).toNat (st l))
        ∧ steps (.fsub g d b a) (fun l x => fpAdd c .f32 true (B l).toNat x.toNat (st l))
        ∧ steps (.fneg g d a) (fun l x => fpSign c .f32 true x.toNat (st l))
        ∧ ((∃ y, s.uniform (s.vr b.toNat) m = some y) →
            steps (.fmul g d a b) (fun l x => fpMul c .f32 x.toNat (B l).toNat (st l))
            ∧ steps (.fmul g d b a) (fun l x => fpMul c .f32 (B l).toNat x.toNat (st l))
            ∧ (s.vdry rd m = .ok () →
                steps (.fma g d a b 0) (fun l x => fpFma c .f32 false false x.toNat (B l).toNat (s.getV rd l).toNat (st l))
                ∧ steps (.fma g d b a 0) (fun l x => fpFma c .f32 false false (B l).toNat x.toNat (s.getV rd l).toNat (st l)))))

/-- R16, R27, R43, R44, R138 to R145, Table 06-7: the cross-lane forms with one segment over the whole patch and registers that are dry in it.
A read of a position on a hole or beyond the patch gives zero. VRED combines the active lanes over the fixed binary tree of positions and
VSCAN folds them in order, each with its operation, outside rounding mode 5. FMIN and FMAX round and flush nothing (the model's reading,
log 134). -/
def Obligations.CrossLane : Prop :=
  (∀ (s : State) (g : BitVec 4) (d a b p : BitVec 6) (k : BitVec 4) (o : BitVec 4),
    let m := s.active g
    let n := s.me.at_.lanes
    let w := s.me.at_.pw
    let A := s.getV (s.vr a.toNat)
    let read := fun t => if t < n ∧ s.hole (s.me.at_.peOf t) = false then A t else 0
    let gives := fun (i : Instr) (f : Nat → Lane) => s.laneGives m (s.vr d.toNat) f (exec i s)
    let onto := fun (i : Instr) (f : Nat → Lane) => ∃ t, exec i s = .next t ∧ s.fpFrame t (s.vr d.toNat) m
      ∧ ∀ l, l < 64 → bitOf m l = true → t.getV (s.vr d.toNat) l = f l
    let sum := fun (ls : List Nat) => ls.foldl (fun x l => x + A l) 0
    s.me.at_.width < 3 → s.me.ctl.sw = w → s.me.ctl.sh = s.me.at_.ph →
    s.vdry (s.vr a.toNat) s.live = .ok () →
    (s.vdry (s.vr b.toNat) m = .ok () →
      gives (.vperm g d a b) (fun l => read ((s.getV (s.vr b.toNat) l).toNat % 64))
      ∧ ∃ t, exec (.vpermM g d a b) s = .next t ∧ ∀ l, l < 64 → bitOf m l = true →
          let t' := (s.getV (s.vr b.toNat) l).toNat % 64
          t.getV (s.vr d.toNat) l = read t' ∧ bitOf (t.getQ 7) l = !decide (t' < n ∧ s.hole (s.me.at_.peOf t') = false))
    ∧ gives (.vshufx g d a 0 k) (fun l => read (l / w * w + (((l % w : Nat) : Int) + k.toInt) % (w : Int)).toNat)
    ∧ gives (.vshufx g d a 1 k) (fun l => let x := ((l % w : Nat) : Int) + k.toInt; if 0 ≤ x ∧ x < w then read (l / w * w + x.toNat) else 0)
    ∧ (0 ≤ k.toInt → gives (.vshufx g d a 2 k) (fun l => if l % w ^^^ k.toNat < w then read (l / w * w + (l % w ^^^ k.toNat)) else 0))
    ∧ gives (.vshufy g d a 0 k) (fun l => read (((((l / w : Nat) : Int) + k.toInt) % (s.me.at_.ph : Int)).toNat * w + l % w))
    ∧ (0 ≤ k.toInt → gives (.vshufy g d a 2 k) (fun l => if l / w ^^^ k.toNat < s.me.at_.ph then read ((l / w ^^^ k.toNat) * w + l % w) else 0))
    ∧ gives (.vshufy g d a 1 k) (fun l => let y := ((l / w : Nat) : Int) + k.toInt; if 0 ≤ y ∧ y < s.me.at_.ph then read (y.toNat * w + l % w) else 0)
    ∧ gives (.vbcast g d a p) (fun _ => read p.toNat)
    ∧ onto (.vred g d a 0) (fun _ => sum (lanesOf m))
    ∧ onto (.vscan g d a 0) (fun l => sum ((lanesOf m).filter (· ≤ l)))
    ∧ (∃ v, onto (.vred g d a o) (fun _ => v)) ∧ (∃ f, onto (.vscan g d a o) f)
    ∧ (let c := s.me.ctl
       let comb := fun (x y : Lane) => match o.toNat with
         | 0 => x + y
         | 1 => (fpAdd c .f32 false x.toNat y.toNat 0).v
         | 2 => if y.toInt < x.toInt then y else x
         | 3 => if y.toInt < x.toInt then x else y
         | 4 => if y.toNat < x.toNat then y else x
         | 5 => if y.toNat < x.toNat then x else y
         | 6 => (fpMin c .f32 false x.toNat y.toNat 0).v
         | 7 => (fpMin c .f32 true x.toNat y.toNat 0).v
         | 8 => x &&& y
         | 9 => x ||| y
         | _ => x ^^^ y
       let ls := lanesOf m
       o.toNat < 11 → c.rmField ≠ 5 →
       (∃ node : Nat → Nat → Option Lane, onto (.vred g d a o) (fun _ => (node 6 0).getD 0)
         ∧ (∀ p, node 0 p = if p < n ∧ bitOf m p = true then some (A p) else none)
         ∧ ∀ k p, node (k + 1) p = match node k (2 * p), node k (2 * p + 1) with
           | some x, some y => some (comb x y)
           | some x, none => some x
           | none, y => y)
       ∧ ∃ f, onto (.vscan g d a o) f ∧ (∀ l, ls.head? = some l → f l = A l)
         ∧ ∀ k l l', ls[k]? = some l → ls[k + 1]? = some l' → f l' = comb (f l) (A l'))
    ∧ gives (.vmatch g d a) (fun l =>
        let same := (lanesOf m).filter fun j => A j = A l
        BitVec.ofNat 32 (same.headD l + same.length * 2 ^ 16)))
  ∧ ∀ (s : State) (g : BitVec 4) (a : BitVec 6) (e : BitVec 5) (q : BitVec 3),
    let m := s.active g
    let A := s.getV (s.vr a.toNat)
    (s.vdry (s.vr a.toNat) m = .ok () →
      (lanesOf m = [] → exec (.vpick g e a) s = .next (s.setS e.toNat 0).advance)
      ∧ ∀ l ls, lanesOf m = l :: ls →
        ((∀ j ∈ ls, A j = A l) → exec (.vpick g e a) s = .next (s.setS e.toNat ((A l).setWidth 64)).advance)
        ∧ ((∃ j ∈ ls, A j ≠ A l) → ∃ r, s.traps (exec (.vpick g e a) s) r ∧ r.code = cUNIFORM ∧ r.detail = 0 ∧ r.tinfo < 2 ^ 64
            ∧ ∀ j < 64, (bits r.tinfo j 1 = 1 ↔ j ∈ ls ∧ A j ≠ A l)))
    ∧ exec (.vvote g e q) s = .next (s.setS e.toNat (m &&& s.getQ q.toNat)).advance

/-! ## Lane words on the plane -/

/-- R196 to R200: the lane loads. Lane l reads n bits at the depth its register names in the PE at its own position moved by (dx, dy),
which the statement computes; on a hole it takes FILLV, extended as the form extends what it reads (the model's reading, log 40), and
HOLEF says so; a failing lane traps and a busy line waits, with no lane written. Lines that are landing make the register wet under a tag
that names the lanes' cells. -/
def Obligations.LaneLoads : Prop :=
  ∀ (s : State) (g : BitVec 4) (d a : BitVec 6) (x y : BitVec 3) (w : BitVec 4) (i : Instr) (sg : Bool),
    let m := s.active g
    let n := widthOf w.toNat
    let ra := s.vr a.toNat
    let rd := s.vr d.toNat
    let go := fun (dx dy : Int) =>
      let cell := fun l => (131072 * ((s.me.at_.peOf l : Int) + 256 * dy + dx) + s.depthOf ra l).toNat
      let chk := fun l => s.laneCheck false false dx dy n (s.depthOf ra l) l
      let ext := fun v => if sg then BitVec.ofInt 32 (signed n v) else BitVec.ofNat 32 v
      ((∀ l, l < 64 → bitOf m l = true → chk l = .go (.cell (cell l) false) ∧ s.planePoison (cell l) n = false) →
        (n ≤ 32 → s.laneGives m rd (fun l => ext (readBits s.plane (cell l) n)) (exec i s))
        ∧ (n = 64 → ∃ t, exec i s = .next t ∧ s.sameElse t ∧ s.sameMemory t ∧ s.sameCtl t ∧ ∀ l, l < 64 → bitOf m l = true →
            t.getV rd l = BitVec.ofNat 32 (readBits s.plane (cell l) 32) ∧ t.getV (rd + 1) l = BitVec.ofNat 32 (readBits s.plane (cell l + 32) 32)))
      ∧ (n ≤ 32 → m ≠ 0 → (∀ l, l < 64 → bitOf m l = true → chk l = .go (.none 1 2)) →
          ∃ t, exec i s = .next t ∧ t.me.ctl.holef = s.me.ctl.holef ||| 1 ∧ s.sameElse t ∧ s.sameMemory t
            ∧ ∀ l, l < 64 → bitOf m l = true → t.getV rd l = ext (s.me.ctl.fillv.toNat % 2 ^ n))
      ∧ (n = 64 → m ≠ 0 → (∀ l, l < 64 → bitOf m l = true → chk l = .go (.none 1 2)) →
          ∃ t, exec i s = .next t ∧ t.me.ctl.holef = s.me.ctl.holef ||| 1 ∧ s.sameElse t ∧ s.sameMemory t
            ∧ ∀ l, l < 64 → bitOf m l = true → t.getV rd l = s.me.ctl.fillv ∧ t.getV (rd + 1) l = s.me.ctl.fillv)
      ∧ ((∃ l p k, l < 64 ∧ bitOf m l = true ∧ chk l = .waits p k) →
          ∃ l p k, bitOf m l = true ∧ chk l = .waits p k ∧ exec i s = .next ((if p = .retention then s.want k else s).parkMe p))
      ∧ ((∃ l r k, l < 64 ∧ bitOf m l = true ∧ chk l = .fails k r) → (∀ l k r, chk l = .fails k r → k ≤ 2) →
          (∀ l p k, l < 64 → bitOf m l = true → chk l ≠ .waits p k) → ∃ l r k, bitOf m l = true ∧ chk l = .fails k r ∧ s.traps (exec i s) r)
      ∧ (n ≤ 32 → m ≠ 0 → (∀ l, l < 64 → bitOf m l = true → chk l = .go (.cell (cell l) true)) →
          s.needTags 1 = .ok () → find s.me.wet.v rd = none → s.me.wet.recCount < 32 → find s.me.wet.tags s.me.wet.next = none →
          ∃ t q k, exec i s = .next t ∧ t.me.wetV rd = some q ∧ q.a = 1 ∧ q.kind = .int32 ∧ q.mask = m ∧ find t.me.wet.tags q.tag = some k
            ∧ s.sameElse t ∧ s.sameMemory t
            ∧ ∀ l, l < 64 → bitOf m l = true → t.getV rd l = 0 ∧ find k.lanes l = some (cell l))
    s.vdry ra m = .ok () → (n = 64 → d.toNat % 2 = 0) →
    ((i = .ldw g d a x y w → sg = false → n ≠ 0 → go x.toInt y.toInt) ∧ (i = .ldeB g d a w → sg = false → n ≠ 0 → go 0 0)
      ∧ (i = .ldeI g d a w → sg = true → n ≠ 0 → go 0 0))
    ∧ (w = 8 → d.toNat % 2 = 1 → s.traps (exec (.ldw g d a x y w) s) (illegal9 (encodeNat (.ldw g d a x y w))))

/-- R196, R198, R200: the lane stores. Each active lane stores n bits to the cell that the statement computes from its own position and the
depth its register names; no two lanes store to one PE, and every byte outside those cells stays. On holes nothing is written and
HOLEF says so; a failing lane traps, and no lane stores. -/
def Obligations.LaneStores : Prop :=
  ∀ (s : State) (g : BitVec 4) (r a : BitVec 6) (x y : BitVec 3) (w : BitVec 4) (i : Instr),
    let m := s.active g
    let n := widthOf w.toNat
    let ra := s.vr a.toNat
    let rs := s.vr r.toNat
    let go := fun (dx dy : Int) =>
      let cell := fun l => (131072 * ((s.me.at_.peOf l : Int) + 256 * dy + dx) + s.depthOf ra l).toNat
      let chk := fun l => s.laneCheck true false dx dy n (s.depthOf ra l) l
      ((∀ l, l < 64 → bitOf m l = true → chk l = .go (.cell (cell l) false)) →
        ∃ t, exec i s = .next t ∧ t.me.r = s.me.r ∧ t.dram = s.dram ∧ t.host = s.host ∧ t.peer = s.peer ∧ s.sameCtl t
          ∧ (∀ l, l < 64 → bitOf m l = true → readBits t.plane (cell l) n = s.pairBits rs n l)
          ∧ ∀ b, (∀ l, l < 64 → bitOf m l = true → b < cell l / 8 ∨ cell l / 8 + coverBytes (cell l) n ≤ b) →
              readByte t.plane b = readByte s.plane b)
      ∧ (m ≠ 0 → (∀ l, l < 64 → bitOf m l = true → chk l = .go (.none 1 2)) →
          ∃ t, exec i s = .next t ∧ t.me.ctl.holef = s.me.ctl.holef ||| 2 ∧ s.sameMemory t ∧ t.me.r = s.me.r)
      ∧ ((∃ l p k, l < 64 ∧ bitOf m l = true ∧ chk l = .waits p k) →
          ∃ l p k, bitOf m l = true ∧ chk l = .waits p k ∧ exec i s = .next ((if p = .retention then s.want k else s).parkMe p))
      ∧ ((∃ l r k, l < 64 ∧ bitOf m l = true ∧ chk l = .fails k r) → (∀ l k r, chk l = .fails k r → k ≤ 2) →
          (∀ l p k, l < 64 → bitOf m l = true → chk l ≠ .waits p k) →
          ∃ l r k, bitOf m l = true ∧ chk l = .fails k r ∧ s.traps (exec i s) r ∧ s.sameMemory (s.takeTrap r))
    s.vdryAll m (ra :: pair rs n) = .ok () → (n = 64 → r.toNat % 2 = 0) → s.me.at_.ox + s.me.at_.pw ≤ 256 →
    (i = .stw g r a x y w → n ≠ 0 → go x.toInt y.toInt) ∧ (i = .ste g r a w → n ≠ 0 → go 0 0)

/-- R201, R207: the lane atomics on each active lane's own PE: vd takes the old bits and the cell the new ones; every byte outside the
cells stays. The operand of a CAS to write stands in the register or pair after vd. -/
def Obligations.LaneAtomics : Prop :=
  ∀ (s : State) (g : BitVec 4) (d a : BitVec 6) (w : BitVec 4),
    let m := s.active g
    let n := widthOf w.toNat
    let ra := s.vr a.toNat
    let rd := s.vr d.toNat
    let k := (pair rd n).length
    let cell := fun l => 131072 * s.me.at_.peOf l + (s.depthOf ra l).toNat
    let v := s.pairBits rd n
    let does := fun (i : Instr) (new : Nat → Nat → Nat) =>
      ∃ t, exec i s = .next t ∧ t.dram = s.dram ∧ t.host = s.host ∧ t.peer = s.peer ∧ s.sameCtl t
        ∧ (∀ l, l < 64 → bitOf m l = true → readBits t.plane (cell l) n = new l (readBits s.plane (cell l) n)
            ∧ t.getV rd l = BitVec.ofNat 32 (readBits s.plane (cell l) n)
            ∧ (n = 64 → t.getV (rd + 1) l = BitVec.ofNat 32 (readBits s.plane (cell l) n / 2 ^ 32)))
        ∧ (∀ b, (∀ l, l < 64 → bitOf m l = true → b < cell l / 8 ∨ cell l / 8 + coverBytes (cell l) n ≤ b) →
            readByte t.plane b = readByte s.plane b)
        ∧ ∀ r l, l < 64 → r ≠ rd → ¬ (n = 64 ∧ r = rd + 1) → t.getV r l = s.getV r l
    s.vdryAll m (ra :: pair rd n) = .ok () → (n = 64 → d.toNat % 2 = 0) → s.me.at_.ox + s.me.at_.pw ≤ 256 → n ≠ 0 →
    (∀ l, l < 64 → bitOf m l = true → s.laneCheck true true 0 0 n (s.depthOf ra l) l = .go (.cell (cell l) false) ∧ s.planePoison (cell l) n = false) →
    does (.vamoAdd g d a w) (fun l o => (o + v l) % 2 ^ n) ∧ does (.vamoBfadd g d a w) (fun l o => (o + v l) % 2 ^ n)
    ∧ does (.vamoMinI g d a w) (fun l o => if signed n (v l) < signed n o then v l else o)
    ∧ does (.vamoMaxI g d a w) (fun l o => if signed n o ≤ signed n (v l) then v l else o)
    ∧ does (.vamoMinB g d a w) (fun l o => min o (v l)) ∧ does (.vamoMaxB g d a w) (fun l o => max o (v l))
    ∧ does (.vamoAnd g d a w) (fun l o => o &&& v l) ∧ does (.vamoOr g d a w) (fun l o => o ||| v l) ∧ does (.vamoXor g d a w) (fun l o => o ^^^ v l)
    ∧ does (.vamoSwap g d a w) (fun l _ => v l)
    ∧ (d.toNat % (2 * pairSize w) = 0 → s.vdryAll m (ra :: (pair rd n ++ pair (rd + k) n)) = .ok () →
        does (.vamoCas g d a w) (fun l o => if o = v l then s.pairBits (rd + k) n l else o))

/-! ## Rectangles, ownership, scrolls and fills -/

/-- R241, R242: the rectangle forms: a value within the plane and the line range is written, any other raises ILLEGAL, and so does an
adjustment that leaves its field. -/
def Obligations.Rectangles : Prop :=
  ∀ (s : State) (a b d : BitVec 5) (e f : BitVec 3) (x y : Word),
    s.me.rectHeld e.toNat = false → s.me.rectHeld f.toNat = false → s.sval a.toNat = .ok x → s.sval b.toNat = .ok y →
    let ok := fun (v : Word) => bits v.toNat 0 8 + bits v.toNat 16 8 < 256 ∧ bits v.toNat 8 8 + bits v.toNat 24 8 < 256
      ∧ bits v.toNat 32 8 + bits v.toNat 40 8 < 256 ∧ v.toNat < 2 ^ 49
    let sets := fun (i : Instr) (v : Word) =>
      (ok v → exec i s = .next (s.setE e.toNat v).advance) ∧ (¬ ok v → s.traps (exec i s) { code := 0x01, detail := 9, tinfo := encodeNat i })
    let v := s.getE e.toNat
    let field := fun (w : Word) (lo : Nat) => (bits w.toNat lo 8 : Int)
    let moves := fun (i : Instr) (lo : Nat) (k : Int) =>
      (0 ≤ field v lo + k → field v lo + k < 256 → ∃ w : Word, sets i w ∧ field w lo = field v lo + k
        ∧ ∀ j, j < 64 → (j < lo ∨ lo + 8 ≤ j) → w.getLsbD j = v.getLsbD j)
      ∧ (field v lo + k < 0 ∨ 256 ≤ field v lo + k → s.traps (exec i s) { code := 0x01, detail := 9, tinfo := encodeNat i })
    sets (.rset a e) x ∧ sets (.rmov f e) (s.getE f.toNat)
    ∧ exec (.rget d e) s = .next (s.setS d.toNat v).advance
    ∧ moves (.radj a b 0 e) 0 x.toInt ∧ moves (.radj a b 1 e) 8 x.toInt ∧ moves (.radj a b 3 e) 32 x.toInt
    ∧ moves (.radj a b 4 e) 16 x.toInt ∧ moves (.radj a b 5 e) 24 x.toInt ∧ moves (.radj a b 6 e) 40 x.toInt
    ∧ (let p := field v 0 + x.toInt
       let q := field v 8 + y.toInt
       (0 ≤ p → p < 256 → 0 ≤ q → q < 256 → ∃ w : Word, sets (.radj a b 2 e) w ∧ field w 0 = p ∧ field w 8 = q
         ∧ ∀ j, 16 ≤ j → j < 64 → w.getLsbD j = v.getLsbD j)
       ∧ (p < 0 ∨ 256 ≤ p ∨ q < 0 ∨ 256 ≤ q → s.traps (exec (.radj a b 2 e) s) { code := 0x01, detail := 9, tinfo := encodeNat (.radj a b 2 e) }))
    ∧ (let t := s.setE e.toNat x
       t.getE e.toNat = x ∧ (∀ k, k ≠ e.toNat → t.getE k = s.getE k) ∧ s.sameElse t ∧ s.sameMemory t
         ∧ { t.me.r with e := s.me.r.e } = s.me.r ∧ t.me.ctl = s.me.ctl ∧ t.me.wet = s.me.wet)

/-- R202 to R206: the ownership forms on a rectangle all of whose lines accept them change the owner of each of its lines and of no other,
and no byte and no register; the first line that does not accept stops the form with OWNERSHIP, and so does an operand of GIVE or PASS
that may not take lines, with nothing changed. PROBE shows a line. That GIVE with sa[14] set looks at no scribe (log 139) and where an
operand is reported (log 108), with TADDR the first line of the rectangle (log 51), are the model's choices. -/
def Obligations.Ownership : Prop :=
  ∀ (s : State) (d a : BitVec 5) (e : BitVec 3) (x : Word) (ls : List Nat),
    let me := s.me.at_.id
    let flips := fun (i : Instr) (st : OwnSt) (owner : BitVec 14) =>
      ∃ t, exec i s = .next t ∧ s.sameMemory t ∧ t.me.r = s.me.r ∧ t.me.wet = s.me.wet ∧ s.sameCtl t
        ∧ (∀ l ∈ ls, (t.line l).st = st ∧ (t.line l).owner = owner ∧ (t.line l).present = true ∧ (t.line l).tags = (s.line l).tags)
        ∧ ∀ l, ¬ l ∈ ls → t.line l = s.line l
    let free := fun l => s.retained l = false ∧ s.loopHolders l = []
    let mine := fun l => (s.line l).st = .own ∧ (s.line l).owner = me
    let ours := fun l => (s.line l).st = .shared ∧ (s.line l).owner = s.me.at_.team
    let mayOwn := fun l => mine l ∨ ((s.line l).st = .free ∧ s.allocatedToMe l = true)
    let stops := fun (i : Instr) (accepts : Nat → Prop) =>
      ∀ k l, ls[k]? = some l → (∀ j ∈ ls.take k, accepts j) → ¬ accepts l → (∀ j ∈ ls, free j ∧ ¬ ((s.line j).st = .engine ∧ (s.line j).holder = me)) →
        s.traps (exec i s) { code := cOWNERSHIP, detail := 3, tinfo := ownInfo (s.line l) 0 false, taddr := 512 * l }
    let takes := s.mate (x.setWidth 14) = true
    let passed := (bits x.toNat 0 14 = 0x100 ∨ (0x200 ≤ bits x.toNat 0 14 ∧ bits x.toNat 0 14 ≤ 0x23F))
    s.me.rectHeld e.toNat = false → s.ownLines (s.getE e.toNat) = .ok ls → s.sval a.toNat = .ok x →
    (s.acquire 1 = .ok () →
        ((∀ l ∈ ls, free l ∧ mayOwn l) → flips (.own e) .own me)
        ∧ ((∀ l ∈ ls, free l ∧ (mine l ∨ ours l)) → flips (.claim e) .own me)
        ∧ stops (.own e) mayOwn ∧ stops (.claim e) fun l => mine l ∨ ours l)
    ∧ (s.release 2 = .ok () →
        ((∀ l ∈ ls, free l ∧ (mine l ∨ ours l)) → flips (.share e) .shared s.me.at_.team)
        ∧ ((∀ l ∈ ls, free l ∧ mine l) →
            (takes → bits x.toNat 14 1 = 0 → flips (.give a e) .own (x.setWidth 14))
            ∧ (bits x.toNat 14 1 = 1 → flips (.give a e) .free 0)
            ∧ (passed → flips (.pass a e) .engine (x.setWidth 14)))
        ∧ stops (.share e) (fun l => mine l ∨ ours l)
        ∧ (takes ∨ bits x.toNat 14 1 = 1 → stops (.give a e) mine) ∧ (passed → stops (.pass a e) mine))
    ∧ (let first := planeAddr (256 * bits (s.getE e.toNat).toNat 8 8 + bits (s.getE e.toNat).toNat 0 8) (512 * bits (s.getE e.toNat).toNat 32 8)
       (¬ takes → bits x.toNat 14 1 = 0 →
          s.traps (exec (.give a e) s) { code := cOWNERSHIP, detail := 3, tinfo := 1 + 4 * bits x.toNat 0 14, taddr := first })
       ∧ (¬ passed → s.traps (exec (.pass a e) s) { code := cOWNERSHIP, detail := 3, tinfo := 3 + 4 * bits x.toNat 0 14, taddr := first }))
    ∧ (∃ v : Nat, exec (.probe d a) s = .next (s.setS d.toNat (BitVec.ofNat 64 v)).advance
        ∧ (s.hole (x.toNat % 2 ^ 33 / 131072) = true → v = 2 ^ 22)
        ∧ (s.hole (x.toNat % 2 ^ 33 / 131072) = false → s.allocatedToMe (x.toNat % 2 ^ 33 / 512) = true →
            let m := s.line (x.toNat % 2 ^ 33 / 512)
            bits v 0 14 = m.owner.toNat ∧ bits v 14 2 = m.st.code ∧ bits v 16 1 = m.present.toNat ∧ bits v 17 1 = m.poison.toNat
              ∧ bits v 18 4 = m.tags.toNat ∧ bits v 24 1 = 1))

/-- R243, R244, R247, R249, R252, R256, R257: a scroll or fill that passes its checks joins the scribe's queue with its displacement or
pattern, and its lines belong to the engine until it ends; a `.move` holds its rectangle register, and one that will halt waits for the halt
as it issues. A scroll by nothing changes nothing; it completes at its issue (the model's reading, log 38). A displacement from registers
outside -255 .. 255, and a resume with SCS not valid, raise ILLEGAL. -/
def Obligations.ScrollStarts : Prop :=
  ∀ (s : State) (a b : BitVec 5) (e m : BitVec 3) (x y : BitVec 9) (u v : Word) (ls : List Nat),
    let r := s.getE e.toNat
    let starts := fun (i : Instr) (ls : List Nat) (good : PlaneJob → Prop) =>
      ∃ t j, exec i s = .next t ∧ t.me.run.jobs = s.me.run.jobs ++ [j] ∧ good j ∧ j.lines = ls ∧ j.dxd = 0 ∧ j.dyd = 0
        ∧ s.sameMemory t ∧ t.me.r = s.me.r ∧ t.me.wet = s.me.wet
        ∧ (∀ l ∈ ls, (t.line l).st = .engine ∧ (t.line l).holder = s.me.at_.id ∧ (t.line l).present = true)
        ∧ ∀ l, ¬ l ∈ ls → t.line l = s.line l
    let lines := fun (dx dy : Int) => s.engineCheck r (if m = 3 then s.touched s.me.at_.asid r 3 dx dy else rectPes r) (s.scrollWrites s.me.at_.asid r m.toNat dx dy) 3
    let halts := fun (dx dy : Int) => m = 3 ∧ s.haltOf s.me.at_.asid r dx dy 510 (rX r) (rY r) 0 0 ≠ 0
    let job := fun (dx dy : Int) (j : PlaneJob) => j.fill = false ∧ j.rect = r ∧ j.mode = m.toNat ∧ j.dx = dx ∧ j.dy = dy ∧ j.fillv = s.me.ctl.fillv
    let scs := s.me.ctl.scs.toNat
    let rx := s9 scs 0 - s9 scs 18
    let ry := s9 scs 9 - s9 scs 27
    let held := fun (i : Instr) => ∃ t, exec i s = .next t ∧ (m = 3 → t.me.rectHeld e.toNat = true) ∧ t.me.ctl.pc = s.me.ctl.pc + 32
    s.jobRoom = .ok () → s.me.rectHeld e.toNat = false → s.sval a.toNat = .ok u → s.sval b.toNat = .ok v →
    (lines x.toInt y.toInt = .ok ls →
      (x ≠ 0 ∨ y ≠ 0 → ¬ halts x.toInt y.toInt → starts (.scroll e x y m) ls (job x.toInt y.toInt) ∧ held (.scroll e x y m))
      ∧ (halts x.toInt y.toInt → x ≠ 0 ∨ y ≠ 0 → starts (.scroll e x y m) ls (fun j => job x.toInt y.toInt j ∧ j.halt ≠ 0)
          ∧ ∃ t, exec (.scroll e x y m) s = .next t ∧ t.me.run.park = some .halting ∧ t.me.ctl.pc = s.me.ctl.pc)
      ∧ (x = 0 → y = 0 → exec (.scroll e x y m) s = .next s.advance))
    ∧ (u.toInt.natAbs ≤ 255 → v.toInt.natAbs ≤ 255 → u ≠ 0 ∨ v ≠ 0 → lines u.toInt v.toInt = .ok ls → ¬ halts u.toInt v.toInt →
        starts (.scrollReg e a b m) ls (job u.toInt v.toInt) ∧ held (.scrollReg e a b m))
    ∧ (bits scs 63 1 = 1 → bits scs 39 3 = e.toNat → bits scs 36 3 = m.toNat → rx ≠ 0 ∨ ry ≠ 0 → lines rx ry = .ok ls → ¬ halts rx ry →
        starts .scrollResume ls (job rx ry) ∧ held .scrollResume)
    ∧ (255 < u.toInt.natAbs ∨ 255 < v.toInt.natAbs → s.traps (exec (.scrollReg e a b m) s) { code := 0x01, detail := 9, tinfo := encodeNat (.scrollReg e a b m) })
    ∧ (bits s.me.ctl.scs.toNat 63 1 = 0 → s.traps (exec .scrollResume s) { code := 0x01, detail := 9, tinfo := encodeNat .scrollResume })
    ∧ (s.engineCheck r (rectPes r) (fun _ => true) 4 = .ok ls →
        starts (.pfillZero e) ls (fun j => j.fill = true ∧ j.pattern = 0) ∧ starts (.pfillScalar e a) ls (fun j => j.fill = true ∧ j.pattern = u)
        ∧ starts (.pfill e) ls fun j => j.fill = true ∧ j.pattern = s.me.ctl.fillv ++ s.me.ctl.fillv)

/-- R240, R245, R247, R249, R257: a unit step moves every line of the rectangle one position at once, with its tags and poison, as the memory
stood before it; in mode wrap a line that leaves comes round on the other side, in modes fill and zero the lines that nothing moves onto
take FILLV or zero, and in mode move the rectangle goes along and the lines it leaves stay. What comes from a hole is FILLV, and what
goes onto one is lost; no other byte changes. A fill writes its pattern into each of its lines. A job that is done gives its lines back,
and a `.move` leaves its new rectangle in its register. -/
def Obligations.ScrollSteps : Prop :=
  ∀ (s : State) (sid : Nat) (c : Scribe) (j : PlaneJob), s.headJob sid = some (c, j) → c.at_.id = BitVec.ofNat 14 sid → c.run.life ≠ .free →
    rectOk j.rect = true →
    let r := j.rect
    let at_ := fun (x y : Int) (n : Nat) => lineNo (256 * y + x).toNat (rLine r + n)
    let hole := fun (x y : Int) => s.holeFor c.at_.launch (256 * y + x).toNat
    let inside := fun (x y : Int) => (rX r : Int) ≤ x ∧ x < rX r + rW r ∧ (rY r : Int) ≤ y ∧ y < rY r + rH r
    (∀ sx sy, j.fill = false → j.mode < 4 → stepDir j.dx j.dy j.dxd j.dyd = some (sx, sy) →
      (j.mode = 3 → s.leaves c.at_.asid r (rX r + sx) (rY r + sy) = 0) →
      let dst := fun (x y : Int) => if j.mode = 3 then inside (x - sx) (y - sy) else inside x y
      let px := fun (x : Int) => if j.mode = 0 then rX r + (x - sx - rX r) % (rW r : Int) else x - sx
      let py := fun (y : Int) => if j.mode = 0 then rY r + (y - sy - rY r) % (rH r : Int) else y - sy
      let fillv := fun (t : State) (l : Nat) => ∀ k, k < 16 → readBits t.plane (512 * l + 32 * k) 32 = j.fillv.toNat
      let last := j.dxd + sx = j.dx ∧ j.dyd + sy = j.dy
      ∃ t, exec (.unitStep sid) s = .next t ∧ t.dram = s.dram ∧ t.host = s.host ∧ t.peer = s.peer
        ∧ (∀ x y n, dst x y → n < rN r → hole x y = false →
            let l := at_ x y n
            let o := at_ (px x) (py y) n
            (inside (px x) (py y) → hole (px x) (py y) = false → (j.mode = 3 → s.inPartition c.at_.asid (px x).toNat (py y).toNat = true) →
              readBits t.plane (512 * l) 512 = readBits s.plane (512 * o) 512 ∧ (t.line l).tags = (s.line o).tags ∧ (t.line l).poison = (s.line o).poison)
            ∧ (inside (px x) (py y) → hole (px x) (py y) = true → fillv t l)
            ∧ (¬ inside (px x) (py y) → j.mode = 2 → readBits t.plane (512 * l) 512 = 0)
            ∧ (¬ inside (px x) (py y) → j.mode = 1 → fillv t l))
        ∧ (∀ b, (∀ x y n, dst x y → n < rN r → hole x y = false → b / 64 ≠ at_ x y n) → readByte t.plane b = readByte s.plane b)
        ∧ (last → ∀ l ∈ j.lines, (t.line l).st = .own ∧ (t.line l).owner = c.at_.id)
        ∧ (last → j.mode = 3 → ∃ d, t.scribe c.at_.id = some d ∧ (let w := look 0 d.r.e j.reg
            (rX w : Int) = rX r + sx ∧ (rY w : Int) = rY r + sy ∧ rW w = rW r ∧ rH w = rH r ∧ rLine w = rLine r ∧ rN w = rN r)))
    ∧ (j.fill = true → ∃ t, exec (.planeFillWrite sid) s = .next t ∧ t.dram = s.dram ∧ t.host = s.host ∧ t.peer = s.peer
        ∧ (∀ l ∈ j.lines, (t.line l).st = .own ∧ (t.line l).owner = c.at_.id
            ∧ ∀ k, k < 8 → readBits t.plane (512 * l + 64 * k) 64 = j.pattern.toNat)
        ∧ ∀ b, ¬ b / 64 ∈ j.lines → readByte t.plane b = readByte s.plane b)

/-! ## The nib -/

/-- R222 to R229: the tile words on a tile with no loop in flight, in every lane of the patch that is not on a hole. ZCLR zeroes, ZMOV
copies, ZLD and ZST move a tile between its registers and four lines of each lane's cell, ZCVT converts, here to nearest even.
Every other tile, and every byte outside the lines stored to, stays. A depth that no line begins at raises ALIGN, with DETAIL and TINFO 0
(the model's choice, log 142), and ZCVT to f32 into registers raises ILLEGAL whatever its vd (the model's reading, log 18). -/
def Obligations.TileWords : Prop :=
  ∀ (s : State) (a : BitVec 5) (d : BitVec 6) (z m : BitVec 2) (i : BitVec 1) (r f : BitVec 2) (v : Word),
    let on := fun l => l < 64 ∧ bitOf s.live l = true
    let el := fun (t : State) (z : BitVec 2) l e => look 0 t.me.r.z (zKey z.toNat l e)
    let rest := fun (t : State) (z : BitVec 2) => s.sameElse t ∧ s.sameMemory t ∧ s.sameCtl t ∧ t.me.wet = s.me.wet
      ∧ { t.me.r with z := s.me.r.z, zPoison := s.me.r.zPoison } = s.me.r
      ∧ ∀ n l e, n < 4 → n ≠ z.toNat → l < 64 → e < 64 → look 0 t.me.r.z (zKey n l e) = look 0 s.me.r.z (zKey n l e)
    let cell := fun l => 131072 * s.me.at_.peOf l + v.toNat
    let w := (cvtFmt f.toNat).width
    let only := fun (t : State) (k : Nat) => t.dram = s.dram ∧ t.host = s.host ∧ t.peer = s.peer ∧ t.me.r.z = s.me.r.z
      ∧ { t.me.r with rng := s.me.r.rng } = s.me.r
      ∧ ∀ b, (∀ l, on l → b < cell l / 8 ∨ cell l / 8 + k ≤ b) → readByte t.plane b = readByte s.plane b
    s.tileFree z.toNat = .ok () →
    (∃ t, exec (.zclr z) s = .next t ∧ rest t z ∧ ∀ l e, on l → e < 64 → el t z l e = 0)
    ∧ (s.tileFree m.toNat = .ok () → ∃ t, exec (.zmov m z) s = .next t ∧ rest t z ∧ ∀ l e, on l → e < 64 → el t z l e = el s m l e)
    ∧ (s.sval a.toNat = .ok v →
        (s.tileCheck false v.toNat 2048 = .ok () → ∃ t, exec (.zld a z) s = .next t ∧ rest t z
          ∧ ∀ l e, on l → e < 64 → (el t z l e).toNat = readBits s.plane (cell l + 32 * e) 32)
        ∧ (s.me.at_.ox + s.me.at_.pw ≤ 256 → s.tileCheck true v.toNat 2048 = .ok () → ∃ t, exec (.zst a z) s = .next t ∧ only t 256
          ∧ ∀ l e, on l → e < 64 → readBits t.plane (cell l + 32 * e) 32 = (el s z l e).toNat)
        ∧ (v.toNat % 512 ≠ 0 → s.traps (exec (.zld a z) s) { code := cALIGN, taddr := v.toNat } ∧ s.traps (exec (.zst a z) s) { code := cALIGN, taddr := v.toNat })
        ∧ (s.me.at_.ox + s.me.at_.pw ≤ 256 → s.tileCheck true v.toNat (512 * (64 * w / 512)) = .ok () → ∃ t, exec (.zcvt a i r f z) s = .next t ∧ only t (8 * w)
          ∧ (r = 1 → i = 0 → f ≠ 0 → ∀ l e, on l → e < 64 → readBits t.plane (cell l + w * e) w
              = (round (opval s.me.ctl.daz .f32 (el s z l e).toNat) (cvtFmt f.toNat) (s.me.ctl.rmWith 0) 0).code)))
    ∧ (f = 0 → s.traps (exec (.zcvtReg d i r f z) s) (illegal9 (zcvtRegWord d i r f z)))
    ∧ (f ≠ 0 → (∀ k, k < 2 * w → d.toNat + k < s.me.at_.vregs ∧ d.toNat + k < 60) →
        ∃ t, exec (.zcvtReg d i r f z) s = .next t ∧ s.sameElse t ∧ s.sameMemory t ∧ t.me.r.z = s.me.r.z
          ∧ (∀ g l, l < 64 → (g < d.toNat ∨ d.toNat + 2 * w ≤ g) → t.getV g l = s.getV g l)
          ∧ (r = 1 → i = 0 → ∀ l e, on l → e < 64 → bits (t.getV (d.toNat + w * e / 32) l).toNat (w * e % 32) w
              = (round (opval s.me.ctl.daz .f32 (el s z l e).toNat) (cvtFmt f.toNat) (s.me.ctl.rmWith 0) 0).code))

/-- R212 to R217, R221, Table 10-4: an MLOOP that passes its checks starts a loop of 1 + STEPS steps in every lane of the patch, in the open
batch, and goes on; one that fails raises its trap and starts nothing. MCOMMIT closes the batch; MWAIT goes on once at most n
closed batches are outstanding, and waits otherwise. -/
def Obligations.MatrixLoops : Prop :=
  ∀ (s : State) (z : BitVec 2) (va : BitVec 6) (d b f : BitVec 5) (bs : BitVec 2) (k : BitVec 1) (n : BitVec 3),
    let p := (s.me.ctl.xim.getD 0).toNat
    let x : MloopIn :=
      { va := va.toNat, av := (s.getS d.toNat).toNat, bv := (s.getS b.toNat).toNat,
        fb := (s.getS f.toNat).toNat + (s.getS (f.toNat + 1)).toNat * 2 ^ 64, bsrc := bs.toNat, keep := decide (k = 1),
        steps := p % 256 + 1, ia := p / 256 % 512, ib := p / 2 ^ 17 % 512 }
    let l := s.mkLoop z.toNat x
    (va = 63 → s.sdry [f.toNat, f.toNat + 1, b.toNat, d.toNat] = .ok () → s.nibFull = false →
      (bs ≠ 2 → s.mloopFault x l = none → s.operandCheck l = .ok () →
        ∃ t h, exec (.mloop z va d b f bs k) s = .next t ∧ find t.loops s.nextLoop = some h ∧ h.sid = s.me.at_.id ∧ h.tile = z.toNat
          ∧ h.steps = p % 256 + 1 ∧ h.lanes = s.live ∧ h.progress = [] ∧ h.batch = s.me.run.openBatch ∧ t.nextLoop = s.nextLoop + 1
          ∧ look 0 t.me.run.batches s.me.run.openBatch = look 0 s.me.run.batches s.me.run.openBatch + 1
          ∧ t.me.r = s.me.r ∧ s.sameMemory t ∧ t.lines = s.lines ∧ s.sameCtl t ∧ t.me.wet = s.me.wet)
      ∧ (∀ r, s.mloopFault x l = some r → s.traps (exec (.mloop z va d b f bs k) s) r)
      ∧ (nibClass (bits x.fb 0 5) = 3 → s.traps (exec (.mloop z va d b f bs k) s)
          { code := cNIB_FAULT, detail := 1, tinfo := x.fb % 2 ^ 64 }))
    ∧ (∀ c, s.me.closeBatch = some c →
        exec .mcommit s = .next ({ s with me := c } : State).advance
        ∧ (c.run.closed.length ≤ n.toNat → exec (.mwait n) s = .next ({ s with me := c } : State).advance)
        ∧ (n.toNat < c.run.closed.length → exec (.mwait n) s = .next (({ s with me := c } : State).parkMe .mwait)))
    ∧ (s.me.closeBatch = none → exec .mcommit s = .next (s.parkMe .batches) ∧ exec (.mwait n) s = .next (s.parkMe .batches))

/-- R42, R208, R211, R216, R221: a ready step of an i8 loop with both operands in the lane's own cell adds to each element (m, n) of the
tile, in that lane alone, the sum of A(m, κ)·B(κ, n) over the step's depth, modulo 2^32. A loop all of whose lanes have run their
steps leaves, and its batch counts it. -/
def Obligations.LoopSteps : Prop :=
  ∀ (s : State) (n lane : Nat) (l : Loop), find s.loops n = some l → l.sid = s.me.at_.id → s.me.run.life ≠ .free →
    let p := s.me.at_
    let at_ := fun (d : Nat) => 131072 * p.peOf lane + d
    let A := fun m κ => signed 8 (readBits s.plane (at_ (l.aDepth + 512 * l.ran lane * l.ia) + 8 * (8 * κ + m)) 8)
    let B := fun κ m => signed 8 (readBits s.plane (at_ (l.bDepth + 512 * l.ran lane * l.ib) + 8 * (8 * κ + m)) 8)
    (s.stepReady n l s.me lane = true → l.bsrc = 0 → l.aRegs = false → l.afmt = 0 → l.bfmt = 0 → lane < 64 →
      ∃ t h, exec (.loopStep n lane) s = .next t ∧ find t.loops n = some h ∧ h.ran lane = l.ran lane + 1 ∧ (∀ j, j ≠ lane → h.ran j = l.ran j)
        ∧ s.sameMemory t ∧ t.lines = s.lines ∧ { t.me.r with z := s.me.r.z, zPoison := s.me.r.zPoison } = s.me.r ∧ t.me.ctl = s.me.ctl
        ∧ (∀ i j, i < 8 → j < 8 → look 0 t.me.r.z (zKey l.tile lane (8 * i + j))
            = look 0 s.me.r.z (zKey l.tile lane (8 * i + j)) + BitVec.ofInt 32 (((List.range 8).map fun κ => A i κ * B κ j).sum))
        ∧ ∀ q, q / 64 ≠ 64 * l.tile + lane → look 0 t.me.r.z q = look 0 s.me.r.z q)
    ∧ ((∀ k, k < 64 → bitOf l.lanes k = true → l.ran k = l.steps) → l.bsrc ≠ 2 →
        ∃ t, exec (.loopCompletion n) s = .next t ∧ find t.loops n = none ∧ s.sameMemory t ∧ t.me.r = s.me.r
          ∧ (l.nv = false → l.ovf = false → look 0 s.me.run.batchFlags l.batch = 0 → t.me.ctl = s.me.ctl)
          ∧ (¬ (l.batch ∈ s.me.run.closed) → look 0 t.me.run.batches l.batch = look 0 s.me.run.batches l.batch - 1)
          ∧ (l.batch ∈ s.me.run.closed → look 0 s.me.run.batches l.batch = 1 → ¬ l.batch ∈ t.me.run.closed))

/-! ## Barriers and watched atoms -/

/-- R260 to R267, Table 14-1: the barrier words on an object the scribe may use. BINIT makes an object with E = sb and nothing arrived.
BARRIVE counts one arrival and answers the phase parity; the one that makes A = E with nothing pending turns the parity over,
starts the count again and adds one completion. BWAIT goes on when the parity differs from sb's and waits when not; BTEST shows the
object; BEXPECT adds to what is pending. Only the 32 bytes of the object change. -/
def Obligations.BarrierWords : Prop :=
  ∀ (s : State) (a b : BitVec 5) (f : BitVec 1) (ad : Nat) (v : Word),
    let only := fun (t : State) => s.sameMemoryBut t ad 256 ∧ { t.me.r with x := s.me.r.x, ps := s.me.r.ps } = s.me.r ∧ t.me.ctl.pc = s.me.ctl.pc + 32
    let waitsNot := s.me.run.brokenBy = none ∧ s.me.run.brokenAt = none ∧ s.me.run.ckWait = none ∧ s.me.run.heldArr = none ∧ s.me.run.waitOn = none ∧ s.me.run.woken = false
    s.barAddr a.toNat = .ok ad → s.sval b.toNat = .ok v → s.me.run.life ≠ .free → waitsNot →
    (s.barCheck ad false = .ok () → v.toNat % 4096 ≠ 0 → s.barsOfCore ad < 64 →
      ∃ t, exec (.binit a b f) s = .next t ∧ only t ∧ find t.bars ad = some { team := s.me.at_.team } ∧ t.objE ad = v.toNat % 4096 ∧ t.objA ad = 0
        ∧ t.objP ad = 0 ∧ t.objCk ad = decide (f = 1) ∧ t.objPend ad = 0 ∧ t.objCompl ad = 0)
    ∧ (ad % 256 ≠ 0 → s.traps (exec (.btest a b) s) { code := cALIGN, tinfo := 4080, taddr := ad }
        ∧ s.traps (exec (.barrive a b 0 f) s) { code := cALIGN, tinfo := 4080, taddr := ad })
    ∧ (∀ g : BitVec 4, g ≠ 0 → s.traps (exec (.barrive a b g f) s) { code := cBARRIER_MASK, tinfo := g.toNat, taddr := ad })
    ∧ (s.barCheck ad true = .ok () →
        (∃ k : Nat, exec (.btest a b) s = .next (s.setS b.toNat (BitVec.ofNat 64 k)).advance ∧ bits k 0 32 = s.objCompl ad ∧ bits k 32 1 = s.objP ad
          ∧ bits k 34 12 = s.objA ad ∧ bits k 46 12 = s.objE ad)
        ∧ (s.objP ad ≠ v.toNat % 2 → s.acquire 1 = .ok () → exec (.bwait a b) s = .next s.advance)
        ∧ ∀ rec, find s.bars ad = some rec → rec.broken = none →
          (s.objP ad = v.toNat % 2 → ∃ t, exec (.bwait a b) s = .next t ∧ t.me.run.park = some .barrierPhase ∧ t.me.run.waitOn = some ad
            ∧ t.me.ctl = s.me.ctl ∧ t.me.r = s.me.r ∧ s.sameMemory t)
          ∧ (v.toInt.natAbs < 2 ^ 39 → rec.held = [] → s.objA ad ≠ s.objE ad →
              ∃ t, exec (.bexpect a b) s = .next t ∧ only t ∧ (t.objPend ad : Int) = (s.objPend ad + v.toInt) % 2 ^ 40 ∧ t.objA ad = s.objA ad
                ∧ t.objE ad = s.objE ad ∧ t.objP ad = s.objP ad)
          ∧ (s.objCk ad = false → s.release 2 = .ok () → rec.held = [] → rec.dropping = [] → s.objA ad < s.objE ad →
              (s.objA ad + 1 < s.objE ad → ∃ t, exec (.barrive a b 0 f) s = .next t ∧ only t ∧ t.getS b.toNat = BitVec.ofNat 64 (s.objP ad)
                ∧ t.objA ad = s.objA ad + 1 ∧ t.objE ad = s.objE ad ∧ t.objP ad = s.objP ad ∧ t.objCompl ad = s.objCompl ad
                ∧ ∃ q, find t.bars ad = some q ∧ s.me.at_.id ∈ q.participants)
              ∧ (s.objA ad + 1 = s.objE ad → s.objPend ad = 0 → f = 0 → rec.breakAtCompletion = none → s.ckWaiters ad = [] →
                ∃ t, exec (.barrive a b 0 f) s = .next t ∧ only t ∧ t.getS b.toNat = BitVec.ofNat 64 (s.objP ad)
                ∧ t.objA ad = 0 ∧ t.objE ad = s.objE ad ∧ t.objP ad = 1 - s.objP ad ∧ t.objCompl ad = (s.objCompl ad + 1) % 2 ^ 32 ∧ t.objPend ad = 0)))

/-- R270 to R272, R348: SEMPOST adds to an atom in global memory, saturating, and SEMWAIT takes from it where there is enough and otherwise
waits with a watch on it, at its home; PARK goes on when the atom differs from sb and otherwise waits. A waiting SEMWAIT is tried again, and a
waiting PARK ends, once the atom has changed. -/
def Obligations.WatchedAtoms : Prop :=
  ∀ (s : State) (c : BitVec 4) (b : BitVec 5) (n : BitVec 10) (sc : BitVec 3) (k : Cap) (a : Nat) (v : Word) (ps : List Piece) (sid : Nat),
    s.me.run.life = .running → s.me.at_.id = BitVec.ofNat 14 sid →
    (n ≠ 0 → s.semAddr c.toNat b.toNat = .ok (k, a) → k.space = 0 → semCheck k c.toNat a (pLoad + pStore + pAtomic) .atomic [0, 3] = .ok () →
      s.me.run.watch = none → s.afterOwn 0 a 32 = .ok s → s.reaches s.meWho s.me.at_.asid .atomic a 32 ps → s.fetchPieces s.meWho a ps = (s, []) →
      let m := readPieces s.dram ps
      let stores := fun x => ((s.storePieces s.meWho x ps).endRollback s.me.at_.team 2).advance
      (s.release 2 = .ok () → exec (.sempost c b n sc) s = .next (stores (min (m + n.toNat) (2 ^ 32 - 1))))
      ∧ (s.acquire 1 = .ok () → n.toNat ≤ m → exec (.semwait c b n sc) s = .next (stores (m - n.toNat)))
      ∧ (s.acquire 1 = .ok () → m < n.toNat → ∃ t, exec (.semwait c b n sc) s = .next t ∧ t.me.run.park = some .semaphore ∧ s.sameMemory t
          ∧ t.me.ctl = s.me.ctl ∧ t.me.r = s.me.r
          ∧ t.me.run.watch = some { sem := true, space := 0, addr := a, home := ps.head?.map fun p => p.phys / 8, n := n.toNat, changed := false }))
    ∧ (∀ w p, s.me.run.watch = some w → w.sem = true → w.changed = true → w.home = some p → s.me.eventDue = false →
        let at_ := homePiece p
        s.heldAt (some s.me.at_.id) none (pieceWords at_) = none → s.fetchPieces s.meWho w.addr at_ = (s, []) →
        (w.n ≤ readPieces s.dram at_ → exec (.semwaitRetry sid) s
          = .next ((s.storePieces s.meWho (readPieces s.dram at_ - w.n) at_).endRollbackLate s.me.at_.team 2).advance)
        ∧ (readPieces s.dram at_ < w.n → ∃ t, exec (.semwaitRetry sid) s = .next t ∧ t.me.run.watch = some { w with changed := false } ∧ s.sameMemory t))
    ∧ (∀ w, s.me.run.watch = some w → w.sem = false → w.changed = true → s.me.eventDue = false → exec (.watchWake sid) s = .next s.advance)
    ∧ (s.cval c.toNat = .ok k → s.sval b.toNat = .ok v → s.acquire 1 = .ok () → semCheck k c.toNat k.cursor pLoad .load [0, 1, 3] = .ok () →
        s.me.run.watch = none → k.space = 1 → s.hole (k.cursor / 131072) = false → s.planeCheck false k.cursor 32 = .ok true →
        s.planePoison k.cursor 32 = false →
        (readBits s.plane k.cursor 32 ≠ v.toNat % 2 ^ 32 → exec (.park c b sc) s = .next s.advance)
        ∧ (readBits s.plane k.cursor 32 = v.toNat % 2 ^ 32 → ∃ t, exec (.park c b sc) s = .next t ∧ t.me.run.park = some .watch ∧ s.sameMemory t
            ∧ t.me.ctl = s.me.ctl ∧ t.me.run.watch = some { sem := false, space := 1, addr := k.cursor, home := none, n := 0, changed := false }))

/-! ## Quills and copies -/

/-- R276, R287, R292, R296 to R299: the words that start, watch and cancel copies. QKICK of one descriptor that passes its checks adds the
copy, takes its destination lines and, with CREC, one entry of QRING; operands out of range raise QUILL_FAULT or ALIGN. QDRAIN goes
on when the scribe has no copy left. QSTAT counts copies; QCANCEL ends those with CORR = sa, with their record owed. LCOPY starts one copy of
128 bits per lane. That QCANCEL ends a copy at once (log 62), TADDR 0 for a lane outside the patch (log 120) and TINFO 0 of ALIGN for a depth
that holds no descriptor (log 143) are the model's choices. QKICK of several descriptors is not meant here. -/
def Obligations.QuillWords : Prop :=
  ∀ (s : State) (a c l p n d : BitVec 5) (v w : BitVec 6) (nb : BitVec 1) (q : BitVec 3) (x : Word),
    let lane := (s.getS l.toNat).toNat
    let sp := (s.getS p.toNat).toNat
    let cnt := (s.getS n.toNat).toNat
    let at_ := planeAddr (s.me.at_.peOf lane) sp
    let ln := at_ / 512
    let desc := s.readDesc ln
    let lands := (desc.destLines s).map (·.1)
    let m := s.live &&& s.me.guard (BitVec.ofNat 4 (nb.toNat * 8 + q.toNat))
    let bar := x.toNat % 2 ^ 33
    let cell := fun k => planeAddr (s.me.at_.peOf k) (s.getV (s.vr w.toNat) k).toNat
    (s.sdry [l.toNat, p.toNat, n.toNat] = .ok () →
      (lane < s.me.at_.lanes → s.hole (s.me.at_.peOf lane) = false → cnt = 1 → sp % 512 = 0 → sp + 1024 ≤ 131072 →
        s.release 2 = .ok () → s.rulingLoad < 16 → s.descLines lane [ln, ln + 1] = .ok () → s.checkCopy desc false lane 0 (512 * ln) = .ok () →
        ∃ t k, exec (.qkick l p n) s = .next t ∧ find t.copies s.nextCopy = some k ∧ k.d0 = s.lineBits ln ∧ k.d1 = s.lineBits (ln + 1)
          ∧ k.sid = s.me.at_.id ∧ k.pos = 0 ∧ k.ended = false ∧ k.queued = 0 ∧ t.nextCopy = s.nextCopy + 1
          ∧ (∀ g ∈ lands, (t.line g).st = .engine ∧ (t.line g).present = false ∧ (t.line g).holder = s.me.at_.id)
          ∧ (∀ g, ¬ g ∈ lands → t.line g = s.line g) ∧ s.sameMemory t ∧ t.me.r = s.me.r ∧ t.me.ctl.pc = s.me.ctl.pc + 32
          ∧ bits t.me.ctl.qring.toNat 0 32 = bits s.me.ctl.qring.toNat 0 32
          ∧ bits t.me.ctl.qring.toNat 32 32 = (bits s.me.ctl.qring.toNat 32 32 + if desc.crec then 1 else 0) % 2 ^ 32)
      ∧ (s.me.at_.lanes ≤ lane ∨ cnt = 0 ∨ 16 < cnt → s.traps (exec (.qkick l p n) s)
          { code := cQUILL_FAULT, detail := 12, taddr := if lane < s.me.at_.lanes then planeAddr (s.me.at_.peOf lane) (sp / 512 * 512 % 131072) else 0 })
      ∧ (lane < s.me.at_.lanes → s.hole (s.me.at_.peOf lane) = false → 1 ≤ cnt → cnt ≤ 16 → sp % 512 ≠ 0 →
          s.traps (exec (.qkick l p n) s) { code := cALIGN, detail := 3, taddr := sp }))
    ∧ (s.myCopies = [] → (∀ k ∈ s.lcopies, k.2.sid ≠ s.me.at_.id) → s.acquire 1 = .ok () → exec .qdrain s = .next s.advance)
    ∧ (s.myCopies ≠ [] → ∃ t, exec .qdrain s = .next t ∧ t.me.run.park = some .qdrain ∧ t.me.ctl = s.me.ctl ∧ t.me.r = s.me.r ∧ s.sameMemory t)
    ∧ (∃ k : Word, exec (.qstat d) s = .next (s.setS d.toNat k).advance ∧ bits k.toNat 0 16 = s.myCopies.length % 2 ^ 16
        ∧ bits k.toNat 16 16 = (s.myCopies.filter fun k => k.2.queued ≠ 0).length % 2 ^ 16)
    ∧ (s.sval a.toNat = .ok x →
        ((∀ k ∈ s.myCopies, k.2.corr ≠ x.toNat % 2 ^ 24) → exec (.qcancel d a) s = .next (s.setS d.toNat 0).advance)
        ∧ (∀ k h, (s.myCopies.filter fun k => k.2.corr = x.toNat % 2 ^ 24) = [(k, h)] → find s.copies k = some h → h.ended = false → h.owed = [] →
            h.bar = noBar → h.ring.isSome = true → ∃ t h', exec (.qcancel d a) s = .next t ∧ t.getS d.toNat = 1 ∧ find t.copies k = some h'
              ∧ h'.ended = true ∧ h'.status = h.status ||| 4 ∧ h'.srcLines = [] ∧ s.sameMemory t)
        ∧ (∀ k b, s.cval c.toNat = .ok k → s.vdryAll m [s.vr v.toNat, s.vr w.toNat] = .ok () → s.release 2 = .ok () →
            (∀ g ∈ lanesOf m, s.lcopyCheck k c.toNat (s.vr v.toNat) (s.vr w.toNat) g = .ok) →
            s.barCheck bar true = .ok () → find s.bars bar = some b → b.broken = none →
            ∃ t, exec (.lcopy a c v w nb q) s = .next t ∧ t.nextLcopy = s.nextLcopy + (lanesOf m).length ∧ s.sameMemory t ∧ t.me.r = s.me.r
              ∧ (∀ g ∈ lanesOf m, let h := t.line (cell g / 512); h.st = .engine ∧ h.present = false ∧ h.holder = s.me.at_.id)
              ∧ ∀ i g, (lanesOf m)[i]? = some g → ∃ j, find t.lcopies (s.nextLcopy + i) = some j ∧ j.cap = k ∧ j.bar = bar ∧ j.dest = cell g
                  ∧ j.addr = modw 64 ((k.cursor : Int) + (s.getV (s.vr v.toNat) g).toInt)))

/-- R281, R288, R291, R292, R299, R324: the engine's steps for a copy of one element, here from host memory. A line request writes the element
to memory or to its cell, whose line lands: present, and its kicker's again; the copy is then over, with STATUS bit 0. Its record
goes to its ring (Table 16-7); without a ring nothing is left of it. A lane's 128 bits of an LCOPY land the same way. -/
def Obligations.CopySteps : Prop :=
  (∀ (s : State) (k : Nat) (c : Copy), find s.copies k = some c → c.ended = false → c.queued = 0 → s.copyPaused c = false → c.wc < 10 → c.op = 0 → c.btab = false →
    c.total = 1 → c.pos = 0 → c.inb 0 = true → c.bar = noBar → s.keepsTags c = false → c.src.space = 2 →
    let v := readBits s.host (c.srcAt c.src.cursor 0) c.w
    let isOver := fun (t : State) => ((c.ring.isSome = true ∨ c.queue.isSome = true) → ∃ c', find t.copies k = some c' ∧ c'.ended = true ∧ c'.status = c.status ||| 1
        ∧ c'.bitsDone = c.bitsDone + c.w ∧ c'.ring = c.ring) ∧ (c.ring = none → c.queue = none → find t.copies k = none)
    (c.dst.space = 2 → ∃ t, exec (.lineRequest k) s = .next t ∧ isOver t ∧ readBits t.host (c.dstAt 0) c.w = v
        ∧ (∀ b, b < c.dstAt 0 / 8 ∨ c.dstAt 0 / 8 + coverBytes (c.dstAt 0) c.w ≤ b → readByte t.host b = readByte s.host b)
        ∧ (∀ b, readByte t.plane b = readByte s.plane b ∧ readByte t.dram b = readByte s.dram b))
    ∧ ∀ g n, c.dst.space = 1 → c.segs c.die 0 = [g] → g.off = 0 → g.n = c.w → s.holeFor c.launch g.pe = false → find c.owed g.line = some (c.w, n) →
        find c.passers g.line = none → c.lsh = false → ∃ t, exec (.lineRequest k) s = .next t ∧ isOver t ∧ readBits t.plane (planeAddr g.pe g.depth) c.w = v
          ∧ s.sameMemoryBut t (planeAddr g.pe g.depth) c.w
          ∧ (t.line g.line).present = true ∧ (t.line g.line).st = .own ∧ (t.line g.line).owner = c.sid)
  ∧ (∀ (s : State) (k : Nat) (c : Copy), find s.copies k = some c →
      (c.ended = false → exec (.completionRecord k) s = .refused .notEnabled)
      ∧ (∀ r n seq, c.queue = none → c.ended = true → c.queued = 0 → c.ring = some (r, n, seq) → r.space = 2 →
          ∃ t, exec (.completionRecord k) s = .next t ∧ find t.copies k = none
            ∧ (let v := readBits t.host (modw 64 ((r.cursor : Int) + (256 * (seq % 2 ^ n) : Nat))) 256
               bits v 0 32 = seq % 2 ^ 32 ∧ bits v 32 16 = c.status % 2 ^ 16 ∧ bits v 64 64 = c.bitsDone % 2 ^ 64 ∧ bits v 128 8 = c.fcode % 256
                 ∧ bits v 136 8 = c.fdetail % 256 ∧ bits v 144 24 = c.corr ∧ bits v 192 64 = s.time % 2 ^ 64)))
  ∧ ∀ (s : State) (n : Nat) (k : LaneCopy), find s.lcopies n = some k → k.queued = 0 → s.copyPaused k.asCopy = false →
      (s.line k.line).st = .engine → (s.line k.line).present = false → (s.line k.line).holder = k.sid → k.cap.space = 2 → k.bar < noBar → find s.bars k.bar = none →
      s.loopHolders (k.bar / 512) = [] →
      ∃ t, exec (.lcopyLanding n) s = .next t ∧ find t.lcopies n = none ∧ readBits t.plane k.dest 128 = readBits s.host k.addr 128
        ∧ s.sameMemoryBut t k.dest 128 ∧ (t.line k.line).present = true ∧ (t.line k.line).st = .own ∧ (t.line k.line).owner = k.sid

/-! ## Streams and collectives -/

/-- R300 to R303, R305: SSUB adds a subscription with its window at the start of the stream, and SSUB.CELL gives the lines of its rectangle to
the ring; a window outside 1 .. 64 raises ILLEGAL. SUNSUB leaves no subscription of the scribe. SPUB publishes a descriptor that
passes its checks on a stream on which nothing is published. The head reads one chunk after another; a nib subscription is given
its next chunk, also while the head waits on a page; for a cell ring's next chunk the lines of its slot turn to PRESENT 0, and then it lands in every cell of the rectangle, one
line after another, and the lines go back. DETAIL 8 of an SPUB under a ring that does not fit (log 131) and the two steps in which a chunk
lands (log 66) are the model's choices. -/
def Obligations.Feed : Prop :=
  (∀ (s : State) (a b : BitVec 5) (n : BitVec 6) (e : BitVec 3) (x y : Word) (ls : List Nat),
    let key := streamKey (dieOf s.me.at_.id) n.toNat
    let st := s.stream key
    let r := s.getE e.toNat
    let joins := fun (i : Instr) (good : State → Sub → Prop) =>
      ∃ t u, exec i s = .next t ∧ (t.stream key).subs = st.subs ++ [u] ∧ (t.stream key).pub = st.pub ∧ good t u ∧ u.sid = s.me.at_.id ∧ u.next = 0
        ∧ u.window = y.toNat ∧ u.got = [] ∧ (∀ k, k ≠ key → t.stream k = s.stream k) ∧ s.sameMemory t ∧ t.me.r = s.me.r
    s.sval a.toNat = .ok x → s.sval b.toNat = .ok y →
    (s.subBad key false y.toNat = false → joins (.ssubNib b n) fun t u => u.cell = false ∧ t.lines = s.lines)
    ∧ (y.toNat = 0 ∨ 64 < y.toNat → s.traps (exec (.ssubNib b n) s) (illegal9 (subWord 0 0 b.toNat n.toNat 0)))
    ∧ (s.sdry [a.toNat, b.toNat] = .ok () → s.me.rectHeld e.toNat = false → s.ownLines r = .ok ls → s.release 2 = .ok () →
        s.subBad key true y.toNat = false → (st.pub.isSome = true → rN r % (st.kc / 512) = 0) →
        (∀ l ∈ ls, s.retained l = false ∧ s.loopHolders l = [] ∧ (s.line l).st = .own ∧ (s.line l).owner = s.me.at_.id ∧ s.barHit (512 * l) 512 = false) →
        joins (.ssubCell a b n e) fun t u => u.cell = true ∧ u.rect = r ∧ u.bar = x.toNat % 2 ^ 33
          ∧ (∀ l ∈ ls, (t.line l).st = .engine ∧ (t.line l).owner = ringId n.toNat ∧ (t.line l).present = true)
          ∧ ∀ l, ¬ l ∈ ls → t.line l = s.line l)
    ∧ (∃ t, exec (.sunsub n) s = .next t ∧ (∀ u ∈ (t.stream key).subs, u.of s.me.at_.id = false)
        ∧ ((∀ u ∈ st.subs, u.of s.me.at_.id = true → u.cell = true → u.got = []) → s.sameMemory t ∧ t.me.r = s.me.r))
    ∧ (let ad := x.toNat % 2 ^ 33
       let c := s.readDesc (ad / 512)
       s.hole (ad / 131072) = false → ad % 512 = 0 → ad % 131072 + 1024 ≤ 131072 → s.release 2 = .ok () →
       s.descLines 0 [ad / 512, ad / 512 + 1] = .ok () →
         (st.pub.isSome = true → s.traps (exec (.spub a n) s) { code := cQUILL_FAULT, detail := 1, taddr := ad })
         ∧ (st.pub = none → st.misfit (c.dstr 1) = true → s.traps (exec (.spub a n) s) { code := cQUILL_FAULT, detail := 8, taddr := ad })
         ∧ (st.pub = none → st.misfit (c.dstr 1) = false → s.checkCopy c true 0 0 ad = .ok () →
            ∃ t, exec (.spub a n) s = .next t
              ∧ t.stream key = { pub := some { c with srcLines := c.readLines s 0 }, kc := c.dstr 1, total := c.chunks, head := 0, kept := [], subs := st.subs }
              ∧ (∀ k, k ≠ key → t.stream k = s.stream k) ∧ s.sameMemory t ∧ t.me.r = s.me.r ∧ t.lines = s.lines)))
  ∧ ∀ (s : State) (key i : Nat) (c : Copy), (s.stream key).pub = some c → s.copyPaused c = false →
    let st := s.stream key
    (∀ s1 c1 v bad, st.subs[i]? = none → c.queued = 0 → st.head + 1 < st.total → s.readChunk (c.atStep key 0) st.kc st.head = .got s1 c1 v bad →
      ∃ t, exec (.chunk key i) s = .next t ∧ (t.stream key).head = st.head + 1 ∧ find (t.stream key).kept st.head = some (v, bad)
        ∧ (t.stream key).subs = st.subs ∧ s1.sameMemory t ∧ t.me = s1.me)
    ∧ ∀ u v bad, st.subs[i]? = some u → u.saved = none →
      (u.cell = false → u.queued = 0 → u.cut = false → u.next < st.head → st.head - u.next ≤ u.window → find st.kept u.next = some (v, bad) → ∃ t, exec (.chunk key i) s = .next t ∧ (t.stream key).subs[i]? = some { u with next := u.next + 1, got := set u.got u.next (v, bad) }
        ∧ s.sameMemory t ∧ t.me = s.me)
      ∧ (let n := st.kc / 512
         let slot := u.next % (rN u.rect / n)
         let at_ := fun pe j => lineNo pe (rLine u.rect + slot * n + j)
         let cells := (rectPes u.rect).filter fun p => !s.holeFor (s.subLaunch u.sid) p
         u.cell = true → 0 < n → n ≤ rN u.rect → rectOk u.rect = true →
         (u.got = [] → u.queued = 0 → u.cut = false → u.next < st.head → st.head - u.next ≤ u.window → find st.kept u.next = some (v, bad) →
           (∀ pe ∈ cells, ∀ j < n, let m := s.line (at_ pe j); m.st = .engine ∧ m.present = true ∧ m.owner = ringId (key % 64)) →
           ∃ t, exec (.cellRingSlotLanding key i) s = .next t ∧ (t.stream key).subs[i]? = some { u with got := [(u.next, v, bad)] } ∧ s.sameMemory t
             ∧ ∀ pe ∈ cells, ∀ j < n, let m := t.line (at_ pe j); m.st = .engine ∧ m.present = false ∧ m.holder = u.sid)
         ∧ (u.got = [(u.next, v, bad)] → u.bar = noBar → st.head < st.total → (∀ pe ∈ cells, ∀ j < n, s.barHit (512 * at_ pe j) 512 = false) →
         ∃ t, exec (.cellRingSlotLanding key i) s = .next t ∧ (t.stream key).subs[i]? = some { u with next := u.next + 1, got := [] }
           ∧ (∀ pe ∈ cells, ∀ j < n, readBits t.plane (512 * at_ pe j) 512 = v / 2 ^ (512 * j) % 2 ^ 512
               ∧ (t.line (at_ pe j)).st = .own ∧ (t.line (at_ pe j)).owner = u.sid)
           ∧ ∀ b, (∀ pe ∈ cells, ∀ j < n, b / 64 ≠ at_ pe j) → readByte t.plane b = readByte s.plane b))

/-- R386 to R392, R395: COLL, contributions and their time limit. COLL of a sum over two ranks, this one the first and the other in a
package within reach, on the f32 wire and with residuals that belong to BUF: its elements are the rounded sums of BUF and RES, it
has its own contribution, and the other rank's is sent. Operands and fields out of range raise. A contribution joins its collective,
is held when there is none, and with one that disagrees ends it; a held one ends after 100 ms. TADDR 0 for a lane outside the patch
(log 120), TINFO 0 of ALIGN for a depth that holds no descriptor (log 143) and the order of COLL's checks (log 68) are the model's choices.
Other sizes and wires are not meant here. -/
def Obligations.Collectives : Prop :=
  (∀ (s : State) (a b : BitVec 5), s.sdry [a.toNat, b.toNat] = .ok () →
    let lane := (s.getS a.toNat).toNat
    let dep := (s.getS b.toNat).toNat
    let ln := planeAddr (s.me.at_.peOf lane) dep / 512
    (s.me.at_.lanes ≤ lane → s.traps (exec (.coll a b) s) { code := cQUILL_FAULT, detail := 12, taddr := 0 })
    ∧ (lane < s.me.at_.lanes → s.hole (s.me.at_.peOf lane) = true → s.traps (exec (.coll a b) s)
        { code := cQUILL_FAULT, detail := 12, taddr := planeAddr (s.me.at_.peOf lane) (dep / 512 * 512 % 131072) })
    ∧ (lane < s.me.at_.lanes → s.hole (s.me.at_.peOf lane) = false →
        (dep % 512 ≠ 0 → s.traps (exec (.coll a b) s) { code := cALIGN, detail := 3, taddr := dep })
        ∧ ∀ slot, dep % 512 = 0 → dep + 512 ≤ 131072 → s.release 2 = .ok () → s.descLines lane [ln] = .ok () → s.collSlot (dieOf s.me.at_.id) = some slot →
          let c := s.collDesc ln slot
          let key := 64 * dieOf s.me.at_.id + slot
          c.f 511 1 = 0 → s.barFault (barOnly c.bar) (quillFault 10 0 (512 * ln)) = .ok () →
          (∀ f, s.collFault c = some f → s.traps (exec (.coll a b) s) { code := cQUILL_FAULT, detail := f, taddr := 512 * ln })
          ∧ ∀ table e0 e1 xs rs, s.collFault c = none → bufCheck c.buf (32 * c.n) 4 = .ok () → bufCheck c.res (128 + 32 * c.n) 5 = .ok () →
              c.tbl = [table] → capCheck table table.cursor (128 * c.nrank) (pLoad + pLoadCap + pEngine) .load true = none →
              s.readTable c table 0 c.nrank = .ok (s, [e0, e1]) → c.nrank = 2 → c.rank = 0 → c.op = 0 → c.wire = 7 → c.crec = false →
              e0.space = 0 → e0.cursor = c.buf.cursor → e1.space = 3 → s.ownWindow e1.cursor 32 = none → s.peerReachable e1.cursor = true →
              s.collGet c c.res.cursor 64 = .ok (s, c.buf.cursor) → s.collWords c c.buf.cursor (span 0 c.n) = .ok (s, xs) →
              s.collWords c (c.res.cursor + 128) (span 0 c.n) = .ok (s, rs) → s.colls = [] → s.heldContribs = [] →
              ∃ t k m, exec (.coll a b) s = .next t ∧ find t.colls key = some k
                ∧ k.mine = (xs.map fun p => (p.1, f32Sum (laneVal p.2) (laneVal (look 0 rs p.1)))) ∧ k.got.map (fun g : Contrib => g.rank) = [0]
                ∧ t.sentContribs = s.sentContribs ++ [{ m := m, sender := key, time := s.time }] ∧ m.target.toNat = e1.cursor ∧ m.rank = 0 ∧ m.n = c.n
                ∧ m.vals = (span 0 c.n).map (look 0 k.mine) ∧ s.sameMemory t ∧ t.me.r = s.me.r ∧ t.me.ctl.pc = s.me.ctl.pc + 32))
  ∧ (∀ (s : State) (m : Contrib),
      (m.src = s.mgmt.pkg → exec (.contribution m) s = .refused .notEnabled)
      ∧ ∀ asid ad, m.src ≠ s.mgmt.pkg → s.pkgReachable m.src = true → s.ownWindow m.target.toNat 32 = some (asid, ad) →
        (s.collFor m asid ad = none →
          exec (.contribution m) s = .next { s with heldContribs := s.heldContribs ++ [{ m := m, asid := asid, addr := ad, time := s.time, sender := none }] })
        ∧ ∀ k c, s.collFor m asid ad = some (k, c) →
          (c.agrees m = true → c.got.length + 1 ≠ c.nrank → exec (.contribution m) s = .next { s with colls := set s.colls k { c with got := c.got ++ [m] } })
          ∧ (c.agrees m = false → find s.colls k = some c → c.bar = noBar → c.ring = none →
              ∃ t, exec (.contribution m) s = .next t ∧ find t.colls k = none ∧ s.sameMemory t ∧ t.me = s.me))
  ∧ ∀ (s : State) (k : Nat) (h : Held), s.heldContribs[k]? = some h →
      (s.time < h.time + 100000000 → exec (.contributionTimeout k) s = .refused .notEnabled)
      ∧ (h.time + 100000000 ≤ s.time → h.sender = none → s.colls = [] →
          exec (.contributionTimeout k) s = .next { s with heldContribs := s.heldContribs.eraseIdx k })

/-! ## Events of a scribe and of a context -/

/-- R155, R156, R158, R173, R174, R232: what happens to a scribe between its words. A scalar tag that resolves to X turns each record that
carries it into the dry value a·X + o; one whose access faults marks each of its records. A pending deliverable cause, the lowest
code first, enters the handler with its count of coalesced raisings. A fault that no register carries, as it comes or once the last one is
overwritten, adds 1 to WETS.COUNT, saturating; the first of the two is the model's reading (log 28). A scribe ready for 32 issue cycles turns
urgent. -/
def Obligations.ScribeEvents : Prop :=
  (∀ (s : State) (sid tag cause : Nat) (c : Scribe) (k : TagRec),
    let id := BitVec.ofNat 14 sid
    let lone := fun key r => (c.wet.s.filter fun q => q.1 = key) = [(key, r)]
    s.tagOf sid tag = some (c, k) → c.at_.id = id →
    (s.resolves k = false → s.goesOn c (tag, k) = false → exec (.resolution sid tag) s = .refused .notEnabled)
    ∧ (k.scalar = true → s.resolves k = true →
        ∃ t u, exec (.resolution sid tag) s = .next t ∧ t.scribe id = some u ∧ find u.wet.tags tag = none ∧ s.sameMemory t
          ∧ (∀ key r, lone key r → r.tag = tag → look 0 u.r.x key = r.a * k.x + look 0 c.r.x key ∧ find u.wet.s key = none)
          ∧ (∀ key, (∀ r, (key, r) ∈ c.wet.s → r.tag ≠ tag) → look 0 u.r.x key = look 0 c.r.x key ∧ find u.wet.s key = find c.wet.s key)
          ∧ { u.r with x := c.r.x } = c.r ∧ u.ctl = c.ctl)
    ∧ (s.lateFault c k cause = false → exec (.wetAccessFault sid tag cause) s = .refused .notEnabled)
    ∧ (k.scalar = true → k.fault = none → k.queued = 0 → s.lateFault c k cause = true →
        ∃ t u, exec (.wetAccessFault sid tag cause) s = .next t ∧ t.scribe id = some u ∧ s.sameMemory t ∧ u.r = c.r
          ∧ (∀ key r, lone key r → find u.wet.s key = some (if r.tag = tag then { r with fault := some cause } else r))
          ∧ ((∀ q ∈ c.wet.s ++ c.wet.v, q.2.tag ≠ tag) → find u.wet.tags tag = none ∧ u.ctl.wets.toNat = min (2 ^ 32 - 1) (c.ctl.wets.toNat + 1))))
  ∧ (∀ (s : State) (d : BitVec 5) (i : BitVec 14) (r : WetRec) (k : TagRec), s.me.wetS d.toNat = some r → find s.me.wet.tags r.tag = some k → k.fault.isSome = true →
      (∀ q ∈ s.me.wet.s, q.2.tag = r.tag → q.1 = xKey s.me.ctl.depth d.toNat) → (∀ q ∈ s.me.wet.v, q.2.tag ≠ r.tag) →
      ∃ t, exec (.li d i) s = .next t ∧ find t.me.wet.tags r.tag = none ∧ t.me.ctl.wets.toNat = min (2 ^ 32 - 1) (s.me.ctl.wets.toNat + 1))
  ∧ (∀ s : State, (s.deliverable = false → exec .deliverableEventEntry s = .refused .notEnabled)
      ∧ (s.me.run.life = .running → s.deliverable = true → s.me.ctl.entryRuns = true →
          let code := s.me.nextCause.1
          ∃ t, exec .deliverableEventEntry s = .next t ∧ t.me.ctl.tcause = word (code + (s.me.nextCause.2 - 1) % 256 * 256) ∧ t.me.ctl.tinfo = s.causeInfo code
            ∧ t.me.ctl.taddr = 0 ∧ t.me.ctl.tpc = s.me.ctl.pc ∧ t.me.ctl.pc = s.me.ctl.tvec ∧ t.me.ctl.handler = true ∧ t.me.ctl.remain = 0
            ∧ find t.me.run.pending code = none ∧ (∀ k, k ≠ code → find t.me.run.pending k = find s.me.run.pending k)
            ∧ s.sameMemory t ∧ { t.me.r with v := s.me.r.v, pv := s.me.r.pv } = s.me.r))
  ∧ ∀ (s : State) (sid : Nat) (c : Scribe), s.scribe (BitVec.ofNat 14 sid) = some c → c.at_.id = BitVec.ofNat 14 sid →
      (c.run.ready < 32 → exec (.urgent sid) s = .refused .notEnabled)
      ∧ (c.run.life = .running → 32 ≤ c.run.ready → c.run.urgent = false →
          ∃ t, exec (.urgent sid) s = .next t ∧ t.scribe (BitVec.ofNat 14 sid) = some { c with run := { c.run with urgent := true } })

/-- R328, R331, R332, R410: a walk for an access enters its page into the TLBs that the access looks in, those of its core, cluster and die, and
the page translates as before; a page that one of them holds is not walked. A full TLB loses one entry of its own, and no TLB holds more than
its room. Invalidation takes the entries of the ASID over the range out of every TLB, and no other. A write of CCNT is stored, and what waited on an
entry below it goes on, with what waited for room in the queue (the model's reading, log 99). Which entry a full TLB loses, and the TLB of an
access for no scribe, are the model's choice (log 111). -/
def Obligations.Translations : Prop :=
  ∀ (s : State) (core asid v out lo hi : Nat) (w : BitVec 64),
    let id := BitVec.ofNat 14 asid
    let b := v % 2 ^ 60 / 8
    let at_ := coreOperand core
    let ws := s.walksOf at_ id (v % 2 ^ 60) 1
    let u := s.readWalk (dispatcher id) ws
    let keys := fun (x : Nat) => tlbKey x id b
    (∀ l, s.tlbFind at_ id b = none → s.heldAt none none ws = none → u.leaf at_ id b = .ok l → ∃ t, exec (.translationWalk asid ⟨core, v, out⟩) s = .next t
        ∧ (∀ x ∈ tlbPath at_, (find t.tlb (keys x)).isSome = true) ∧ t.leaf at_ id b = .ok l ∧ { t with tlb := u.tlb } = u
        ∧ (∀ x ∈ tlbPath at_, (s.tlbOf x).length ≤ tlbRoom x → (t.tlbOf x).length ≤ tlbRoom x)
        ∧ (∀ x ∈ tlbPath at_, (s.tlbOf x).length < tlbRoom x → ∀ k, k / 2 ^ 55 = x → k ≠ keys x → find t.tlb k = find s.tlb k)
        ∧ ∀ x, x ∉ tlbPath at_ → ∀ k, k / 2 ^ 55 = x → find t.tlb k = find s.tlb k)
    ∧ (s.heldAt none none ws ≠ none → exec (.translationWalk asid ⟨core, v, out⟩) s = .refused .notEnabled)
    ∧ (∀ n, s.tlbFind at_ id b = some n → exec (.translationWalk asid ⟨core, v, out⟩) s = .refused .notEnabled)
    ∧ (asid < 2 ^ 14 → ∃ t, exec (.asidInvalidate asid lo hi) s = .next t ∧ { t with tlb := s.tlb } = s
        ∧ (∀ x a, lo ≤ 8 * a → 8 * a < hi → a < 2 ^ 57 → find t.tlb (tlbKey x id a) = none)
        ∧ ∀ k, k / 2 ^ 41 % 2 ^ 14 ≠ asid ∨ hi ≤ k % 2 ^ 41 * 2 ^ 19 ∨ (k % 2 ^ 41 + 1) * 2 ^ 19 ≤ lo → find t.tlb k = find s.tlb k)
    ∧ ∀ c, find s.ctxs asid = some c → c.faultQ.space = 2 → s.colls = [] → (∀ d ∈ s.allScribes, d.wet.tags = []) →
      let on := fun (a : BitVec 14) (n : Nat) => a = c.asid ∧ 0 < n ∧ (n ≤ w.toNat ∨ noEntry ≤ n)
      ∃ t, exec (.ccntAdvance asid w) s = .next t ∧ readBits t.host (c.faultQ.base + 128) 64 = w.toNat
        ∧ (s.me.run.life ≠ .free → t.me = if on s.me.at_.asid s.me.run.waitEntry then { s.me with run := { s.me.run with waitEntry := 0, retry := true } } else s.me)
        ∧ (∀ f, f ∈ t.faulted ↔ f ∈ s.faulted ∧ ¬ (f.asid = c.asid ∧ f.entry < w.toNat))
        ∧ (∀ k (d : Copy), find s.copies k = some d → find t.copies k = some (if on d.asid d.queued then { d with queued := 0 } else d))
        ∧ (∀ k (d : Queue), find s.queues k = some d → find t.queues k = some (if on d.asid d.parked then { d with parked := 0 } else d))
        ∧ ∀ a, readByte t.plane a = readByte s.plane a ∧ readByte t.dram a = readByte s.dram a

/-! ## Teams -/

/-- R17, R186, R187, R325, R326, R334 to R336, R349: how a team comes, leaves, comes back, and rolls back. Placement starts every scribe of the
team at the launch's entry, and a lone scribe's lines are zero and its own; drain to fit and a batch follow their conditions; pre-emption
saves every scribe with PREEMPT, or with WATCHDOG a team that the watchdog holds, keeps its lines for a quill, and then frees them; restore
takes them again, with c14 over a larger area where one is given, and brings registers and lines back, and under another ASID kills the
team; the watchdog holds the context's teams and reports their launches with STATUS 5; rollback reloads the image and the undo lines, and kills a team that cannot. The number a
team takes (log 11), a restore from the team's record (log 12), that a die to be drained places no team and that its candidate is found anew
(log 76), the two steps of a save and a restore (log 83), what the watchdog does with teams that cannot be saved yet and the order of its
notices (log 84) and what a rollback keeps (log 85) are the model's. -/
def Obligations.Teams : Prop :=
  (∀ (s : State) (die : Nat),
    (s.placeable die = none → (look {} s.dies die : Die).waiting.find? s.hopeless = none → exec (.teamPlacement die) s = .refused .notEnabled)
    ∧ ((s.toDrain die).isSome = true → exec (.teamPlacement die) s = .refused .notEnabled)
    ∧ (∀ w l, s.toDrain die = none → s.placeable die = none → (look {} s.dies die : Die).waiting.find? s.hopeless = some w → find s.launches w.launch = some l →
        ∃ t l', exec (.teamPlacement die) s = .next t ∧ find t.launches w.launch = some l' ∧ l'.status = (if l.status = 0 then 3 else l.status)
          ∧ l'.stopped = true ∧ t.teams = s.teams)
    ∧ ∀ i w l core ps, s.toDrain die = none → s.placeable die = some (i, w, l, core, ps) → s.asleep ps = [] →
      let id := s.freeTeam (core / 64)
      ∃ t m, exec (.teamPlacement die) s = .next t ∧ find t.teams id.toNat = some m ∧ m.id = id ∧ m.launch = w.launch ∧ m.index = w.index ∧ m.asid = l.asid
        ∧ m.saved = false ∧ m.interval = .noCheckpoint ∧ m.places.map (·.id) = ps.map (·.id)
        ∧ (∀ p ∈ ps, ∃ c, find t.others p.id.toNat = some c ∧ c.run.life = .running ∧ c.at_.id = p.id ∧ c.at_.team = id
            ∧ c.ctl.pc = word (l.code.cursor + l.f 288 32) ∧ c.ctl.codeCap = l.code ∧ c.ctl.handler = false ∧ look 0 c.r.x 3 = word l.number
            ∧ c.getC 0 = l.arg ∧ c.wet = {})
        ∧ ∀ p, ps = [p] → p.shadow = false → p.firstLine + p.lines + p.undo ≤ 256 → p.ox + p.pw ≤ 256 →
            ∀ q ∈ boxPes p.ox p.oy p.pw p.ph, s.holeFor p.launch q = false → ∀ j < p.lines, let n := lineNo q (p.firstLine + j)
              readBits t.plane (512 * n) 512 = 0 ∧ t.line n = { st := .own, owner := p.id })
  ∧ (∀ (s : State) (die : Nat) (w : Waiting) (ws : List Waiting) (core : Nat) (l : Launch), (look {} s.dies die : Die).waiting = w :: ws →
      find s.launches w.launch = some l → s.candidate die l (l.shape w.launch) = some core → (look {} s.dies die : Die).draining = none →
      (look 0 (look {} s.dies die : Die).doneOn core < look 0 w.seen core + 16 ∨ s.watchStopped l = true → exec (.drainToFit die) s = .refused .notEnabled)
      ∧ (s.watchStopped l = false → look 0 w.seen core + 16 ≤ look 0 (look {} s.dies die : Die).doneOn core →
          ∃ t, exec (.drainToFit die) s = .next t ∧ (look {} t.dies die : Die).draining = some (core, (l.shape w.launch).vregs) ∧ { t with dies := s.dies } = s))
  ∧ (∀ s : State, (s.pickQueue = none → s.hopelessQueue = none → exec .batchDispatch s = .refused .notEnabled)
      ∧ ∀ q n l, s.pickQueue = some q → s.handing q = some (n, l) →
        let best := s.bestDie n l
        let k := min best.2 (l.total - l.handed)
        (l.persist = false → ∃ t, exec .batchDispatch s = .next t ∧ find t.launches n = some { l with handed := l.handed + k } ∧ look 0 t.rrNext (s.prioOf l) = q + 1
          ∧ (look {} t.dies best.1 : Die).waiting.map (fun w => (w.launch, w.index))
              = (look {} s.dies best.1 : Die).waiting.map (fun w => (w.launch, w.index)) ++ (List.range k).map fun j => (n, l.handed + j))
        ∧ (l.persist = true → ∃ t, exec .batchDispatch s = .next t ∧ find t.launches n = some { l with handed := l.total } ∧ look 0 t.rrNext (s.prioOf l) = q + 1))
  ∧ (∀ (s : State) (team : Nat) (k : Team), find s.teams team = some k → k.id.toNat = team →
      (∀ l, find s.launches k.launch = some l → l.persist = false) →
      let kept := fun (t : State) => ∀ a, readByte t.plane a = readByte s.plane a
      let moving := fun (t : State) => ∀ l ∈ k.allLines s, (t.line l).st = .engine ∧ engineClass (t.line l).owner = 5
      (k.moving ≠ 1 → s.savable k = false → exec (.preemption team) s = .refused .notEnabled)
      ∧ (k.moving ≠ 1 → s.savable k = true → ∃ t m, exec (.preemption team) s = .next t ∧ find t.teams team = some m ∧ m.saved = true ∧ m.moving = 1 ∧ m.held = k.held
          ∧ m.savedScribes = (s.teamScribes k.id).map (fun c => c.saved (if k.held then cWATCHDOG else cPREEMPT)) ∧ (∀ c ∈ m.savedScribes, c.run.life ≠ .running)
          ∧ moving t ∧ ((s.saveArea k.asid).space ≠ 1 → kept t)
          ∧ (s.me ∈ s.teamScribes k.id → s.me.run.life ≠ .free → t.me.run.life = .free))
      ∧ (k.moving = 1 → ∃ t m, exec (.preemption team) s = .next t ∧ find t.teams team = some m ∧ m.moving = 0 ∧ m.savedScribes = k.savedScribes
          ∧ (∀ l ∈ k.allLines s, (t.line l).st = .free) ∧ s.sameMemory t)
      ∧ (∀ asid spills, k.moving ≠ 2 → asid = k.asid.toNat →
          (s.restorable k = false → exec (.contextRestore ⟨team, asid, spills⟩) s = .refused .notEnabled)
          ∧ (s.restorable k = true → k.mayRespill spills = true → ∃ t m, exec (.contextRestore ⟨team, asid, spills⟩) s = .next t
              ∧ find t.teams team = some m ∧ m.saved = true ∧ m.moving = 2 ∧ moving t ∧ s.sameMemory t
              ∧ m.savedScribes.map (fun c => (c.at_, c.ctl)) = k.savedScribes.map (fun c => (c.at_, c.ctl))
              ∧ ∀ c ∈ k.savedScribes, ∃ d ∈ m.savedScribes, d.at_ = c.at_ ∧ d.getC 14 = (match find spills c.at_.id.toNat with
                  | some b => ⟨true, b⟩
                  | none => c.getC 14)))
      ∧ (∀ asid spills, k.moving = 0 → k.saved = true → asid ≠ k.asid.toNat → ∃ t, exec (.contextRestore ⟨team, asid, spills⟩) s = .next t
          ∧ find t.teams team = none ∧ ∀ l, find s.launches k.launch = some l → find t.launches k.launch = some { l with completed := l.completed + 1, status := 4 })
      ∧ (k.moving = 2 → (∀ c ∈ s.allScribes, c.wet.tags = []) → (∀ c ∈ k.savedScribes, c.wet.tags = []) → k.savedBars = [] → (∀ b ∈ s.bars, b.2.owed = []) →
          ∀ asid spills,
          ∃ t m, exec (.contextRestore ⟨team, asid, spills⟩) s = .next t ∧ find t.teams team = some m ∧ m.saved = false ∧ m.savedScribes = []
            ∧ (∀ c, k.savedScribes.filter (fun d => d.at_.id.toNat = c.at_.id.toNat) = [c] → ∃ d, find t.others c.at_.id.toNat = some d ∧ d.r = c.r ∧ d.at_ = c.at_
                ∧ d.ctl.pc = c.ctl.pc ∧ (c.run.life = .saved → d.run.life = .running))
            ∧ ∀ n v h, k.savedLines.filter (fun x => x.1 = n) = [(n, v, h)] → readBits t.plane (512 * n) 512 = v.toNat ∧ t.line n = h))
  ∧ (∀ (s : State) (asid : Nat), let run := (s.teams.filter fun t => t.2.asid = BitVec.ofNat 14 asid && !t.2.saved && !t.2.held).map (·.2)
      let due := look 0 s.lastProgress (BitVec.ofNat 14 asid).toNat + s.wdogNs asid
      (s.wdogNs asid = 0 ∨ s.time < due ∨ run = [] → exec (.watchdog asid) s = .refused .notEnabled)
      ∧ (s.wdogNs asid ≠ 0 → due ≤ s.time → run ≠ [] → ∃ t, exec (.watchdog asid) s = .next t
          ∧ ∀ k m, find s.teams k = some m → m.id.toNat = k → m.asid = BitVec.ofNat 14 asid →
              (∃ m', find t.teams k = some m' ∧ m'.held = true ∧ ((s.together m).all s.savable = true → m'.saved = true))
              ∧ ∀ l, m.held = false → find s.launches m.launch = some l → l.reported = false →
                (∃ l', find t.launches m.launch = some l' ∧ l'.status = 5 ∧ l'.reported = true)
                ∧ ∀ q, find s.queues l.queue = some q → ∃ q', find t.queues l.queue = some q' ∧ q'.state = 3))
  ∧ ∀ (s : State) (team : Nat) (k : Team), find s.teams team = some k → k.id.toNat = team →
      (k.failing = false → exec (.rollback team) s = .refused .notEnabled)
      ∧ (k.failing = true → k.doomed = true → ∃ t, exec (.rollback team) s = .next t ∧ find t.teams team = none
          ∧ ∀ l, find s.launches k.launch = some l → find t.launches k.launch = some { l with completed := l.completed + 1, status := 4 })
      ∧ (k.failing = true → k.doomed = false → s.contextsFree (k.image.map (·.at_)) k.id = true → s.barRoom k.imageBars = true →
          (∀ c ∈ s.copies, c.2.team ≠ k.id) →
          ∃ t m, exec (.rollback team) s = .next t ∧ find t.teams team = some m ∧ m.rollbacks = k.rollbacks + 1 ∧ m.failing = false ∧ m.undo = []
            ∧ (∀ c, k.image.filter (fun d => d.at_.id.toNat = c.at_.id.toNat) = [c] →
                ∃ d, find t.others c.at_.id.toNat = some d ∧ d.r = c.r ∧ d.ctl = c.ctl ∧ d.wet = c.wet ∧ d.at_ = c.at_)
            ∧ ∀ n v h, k.undo.filter (fun x => x.1 = n) = [(n, v, h)] → readBits t.plane (512 * n) 512 = v.toNat ∧ t.line n = h)

/-! ## Queues and packets -/

/-- R313 to R324, R369 to R371, R375, R376, R379, R380, R411: the packet at HEAD of a queue. One whose header, SEQ or fields are bad fails: its entry
is written and its queue stops. A LAUNCH that derives its capabilities is listed with its fields and handed out next, or ends with NOFIT;
a COPY starts a copy; a WAIT completes once its condition holds and waits otherwise; SIGNAL, MARKER and TRACE take effect and
complete. A finished launch and the queue's registers behave as Table 24-1 says; folios drain. WAIT mode 1 by DONESEQ and what CTRL leaves
(log 80), that SPILL derives with no permission asked and ARG with load, the block read before the tag map (log 77), a drain that its
capability does not allow (log 78) and BADPKT for a CODE cursor that is no multiple of 32 (log 144) are the model's. -/
def Obligations.Packets : Prop :=
  (∀ (s : State) (q : Nat) (k : Queue) (p : BitVec 1024), s.headPacket q = some (k, p) →
    let f := pktField p
    let a := k.asid
    let ends := fun (i : Instr) (good : State → Prop) =>
      ∃ t k', exec i s = .next t ∧ find t.queues q = some k' ∧ k'.head = k.head + 1 ∧ k'.nextSeq = pSeq p + 1 ∧ k'.cpos = k.cpos + 1
        ∧ k'.incomplete = (k.incomplete ++ [pSeq p]).erase (pSeq p) ∧ k'.handing = none ∧ good t
    let fails := fun (i : Instr) => ∃ t k', exec i s = .next t ∧ find t.queues q = some k' ∧ k'.head = k.head + 1 ∧ k'.state = 2 ∧ k'.cpos = k.cpos + 1
        ∧ k'.nextSeq = k.nextSeq ∧ k'.handing = none
    let ptr := mkCap 0 (2 ^ 60) pLoad 0
    let u := s.packetSeen k
    let who := headWho a q
    -- the queue stands in line at no layer
    let alone := u.stepAside who = none
    (headerBad k p = true → ((pType p = 1 ∨ pType p = 0 ∨ 7 ≤ pType p) → fails (.launch q)) ∧ (pType p = 2 → fails (.copy q))
      ∧ (pType p = 3 → fails (.wait q)) ∧ (pType p = 4 → fails (.signal q)) ∧ (pType p = 5 → fails (.marker q))
      ∧ (pType p = 6 → (f 96 2 = 0 → fails (.traceOpen q)) ∧ (f 96 2 = 1 → fails (.traceClose q)) ∧ (f 96 2 = 2 → fails (.traceFlush q))))
    ∧ (headerBad k p = false →
        (∀ code arg spill s1 s2 block map tags, pType p = 1 → launchBad p = false → bits (f 640 64) 0 5 = 0 → u.derive a (BitVec.ofNat 128 (f 640 128)) (pExec + pLoad) = some code →
          u.derive a (BitVec.ofNat 128 (f 768 128)) pLoad = some arg → u.derive a (BitVec.ofNat 128 (f 896 128)) 0 = some spill →
          u.argGet who arg arg.cursor (8 * f 192 16) = .got s1 block →
          s1.argGet who arg (arg.cursor + 8 * f 192 16) (((f 192 16 + 15) / 16 + 7) / 8 * 8) = .got s2 map →
          s2.tagUnits a block map (List.range ((f 192 16 + 15) / 16)) = some tags →
          ∃ t k', exec (.launch q) s = .next t ∧ find t.queues q = some k' ∧ k'.head = k.head + 1 ∧ k'.nextSeq = pSeq p + 1
            ∧ look 0 t.accepted a.toNat = (look 0 s2.accepted a.toNat + 1) % 2 ^ 64
            ∧ ((k'.handing = some s2.nextLaunch ∧ k'.cpos = k.cpos ∧ ∃ l, find t.launches s2.nextLaunch = some l ∧ l.packet = p ∧ l.queue = q ∧ l.asid = a
                  ∧ l.number = look 0 s2.accepted a.toNat ∧ l.code = code ∧ l.spill = spill ∧ l.handed = 0 ∧ l.completed = 0 ∧ (∀ i, look false l.argTags i = (find tags i).isSome)
                  ∧ ∀ i c, find tags i = some c → 16 * (i + 1) ≤ f 192 16 → readBits l.argMem (128 * i) 128 = c.bits.toNat)
               ∨ (k'.handing = none ∧ k'.cpos = k.cpos + 1)))
        ∧ (∀ s1 v c, pType p = 2 → f 160 864 = 0 → u.argGet who ptr (f 96 64) 1024 = .got s1 v →
            s1.deriveCopy a (mkCopy noScribe noScribe a (some (q, pSeq p, pCorr p)) (BitVec.ofNat 512 v) (BitVec.ofNat 512 (v / 2 ^ 512)) 0) = some c →
            c.formFault false = none → c.bar = noBar → c.crec = false → c.plane = false → c.readLines s1 0 = [] → c.capFault 0 = none →
            ∃ t c', exec (.copy q) s = .next t ∧ find t.copies s1.nextCopy = some c' ∧ c'.queue = some (q, pSeq p, pCorr p) ∧ c'.d0 = c.d0 ∧ c'.d1 = c.d1
              ∧ c'.src = c.src ∧ c'.dst = c.dst ∧ c'.pos = 0 ∧ c'.ended = false ∧ ∃ k', find t.queues q = some k' ∧ k'.head = k.head + 1 ∧ pSeq p ∈ k'.incomplete)
        ∧ (pType p = 3 → f 98 6 = 0 → f 112 16 = 0 → f 288 736 = 0 →
            (f 96 2 = 0 → k.incomplete = [] → ends (.wait q) fun _ => True) ∧ (f 96 2 = 0 → k.incomplete ≠ [] → alone → exec (.wait q) s = .refused .notEnabled)
            ∧ (f 96 2 = 1 → u.seqDone (f 104 8) (f 128 32) = true → ends (.wait q) fun _ => True)
            ∧ (f 96 2 = 1 → u.seqDone (f 104 8) (f 128 32) = false → alone → exec (.wait q) s = .refused .notEnabled)
            ∧ ∀ s1 v, f 96 2 = 2 → u.argGet who ptr (f 160 64) 64 = .got s1 v →
                (f 224 64 ≤ v → ends (.wait q) fun _ => True) ∧ (v < f 224 64 → s1.stepAside who = none → exec (.wait q) s = .refused .notEnabled))
        ∧ (pType p = 4 → f 96 64 % 64 = 0 → f 96 64 < 2 ^ 60 → f 224 64 = 0 → f 289 735 = 0 →
            (k.incomplete ≠ [] → alone → exec (.signal q) s = .refused .notEnabled)
            ∧ ∀ ps, k.incomplete = [] → u.reachesAs who who.line a .store (f 96 64) 64 ps →
                ends (.signal q) fun t => look 0 t.mgmt.msix (1 + q) = look 0 s.mgmt.msix (1 + q) + f 288 1)
        ∧ (pType p = 5 → f 96 928 = 0 → ends (.marker q) fun _ => True)
        ∧ (pType p = 6 → traceBad k p = false →
            (∀ d, f 96 2 = 0 → find s.sessions a.toNat = none → u.derive a (BitVec.ofNat 128 (f 256 128)) pStore = some d →
              ends (.traceOpen q) fun t => find t.sessions a.toNat
                = some { drain := d, logN := 12 + f 100 4, types := BitVec.ofNat 32 (f 160 32), clusters := word (f 192 64), brkcap := f 98 1 = 1, corr := pCorr p, written := 0 })
            ∧ ∀ ss, find s.sessions a.toNat = some ss → u.drainLayer a (u.flushSize a) = none →
              (f 96 2 = 1 → ends (.traceClose q) fun t => find t.sessions a.toNat = none)
              ∧ (f 96 2 = 2 → ends (.traceFlush q) fun t => ∃ ss', find t.sessions a.toNat = some ss' ∧ ss'.drain = ss.drain ∧ ss'.types = ss.types ∧ ss.written ≤ ss'.written))))
  ∧ (∀ (s : State) (n : Nat) (l : Launch) (k : Queue), find s.launches n = some l → find s.queues l.queue = some k →
      (s.launchOver n l = false → exec (.launchCompletion n) s = .refused .notEnabled)
      ∧ (s.launchOver n l = true → l.reported = true ∨ s.entryLayer { asid := l.asid, place := placeOf .launch n } l.queue = none → ∃ t k', exec (.launchCompletion n) s = .next t ∧ find t.launches n = none ∧ find t.queues l.queue = some k'
          ∧ k'.incomplete = k.incomplete.erase (pSeq l.packet) ∧ k'.cpos = k.cpos + if l.reported then 0 else 1))
  ∧ (∀ (s : State) (q : Nat) (k : Queue) (v : BitVec 32), find s.queues q = some k →
      (∃ t k', exec (.tail q v) s = .next t ∧ find t.queues q = some k' ∧ k'.tail = v ∧ k'.head = k.head ∧ k'.incomplete = k.incomplete ∧ { t with queues := s.queues } = s
        ∧ (k.state < 2 → k'.state = if k.head = v ∧ k.incomplete = [] then 0 else 1))
      ∧ (k.state < 2 → exec (.ctrlRestart q) s = .refused .notEnabled)
      ∧ (2 ≤ k.state → ∃ t k', exec (.ctrlRestart q) s = .next t ∧ find t.queues q = some k' ∧ k'.head = k.head
          ∧ k'.state = if k.head = k.tail ∧ k.incomplete = [] then 0 else 1)
      ∧ ∃ t k', exec (.ctrlReset q) s = .next t ∧ find t.queues q = some k' ∧ k'.head = k.tail ∧ k'.state = 0 ∧ k'.handing = none ∧ k'.parked = 0)
  ∧ ∀ (s : State) (c : Nat),
      let mine := fun (t : State) (a : Nat) => (look {} t.clusters c : Cluster).folio.filter fun r => r.1 = BitVec.ofNat 14 a
      (s.sessions = [] → exec (.folioDrain c) s = .refused .notEnabled)
      ∧ (64 ≤ c → ∀ b, exec (.powerGate c b) s = .refused .notEnabled)
      ∧ ∀ a ss, s.sessions = [(a, ss)] → a < 2 ^ 14 → ss.drain.space = 2 → look 0 (look {} s.clusters c : Cluster).dropped a = 0 →
        (mine s a = [] → exec (.folioDrain c) s = .refused .notEnabled)
        ∧ (mine s a ≠ [] → ∃ t ss', exec (.folioDrain c) s = .next t ∧ mine t a = [] ∧ find t.sessions a = some ss' ∧ ss'.written = ss.written + (mine s a).length)
        ∧ (c < 64 → ∀ b, ∃ t ss', exec (.powerGate c b) s = .next t ∧ mine t a = [] ∧ find t.sessions a = some ss'
            ∧ ss'.written = ss.written + if mine s a = [] then 0 else if b then (if ss.records 15 then 1 else 0) else (mine s a).length)

/-! ## Power -/

/-- R343, R345, R352, R353, R356 to R363, R371: the steps of the power controllers. A layer that turns hot, cools, trips or serves again has that
state and no other of its die changes; each is refused in the state it leads to. A decision comes every 10,000 ns, refills the Reservoirs
by 531 or 265 up to 53,100, samples the coolant's outlet, and begins an interval on every island; a raised clock comes into force later. A cycle, when 5·k·ns have come
to 64, refills the permits by sixteenths up to their capacity and counts one cycle of work of an unparked scribe with an open step. An
island in retention wakes for a cause, a microsecond later. Readings as operands and samples, and refills by the margins of the moment
(log 89), and when an island is idle and what wakes it (log 87) are the model's choices. -/
def Obligations.Power : Prop :=
  (∀ (s : State) (n y : Nat) (w : BitVec 16), n < 4 → y < 2 →
    let r : LayerReading := ⟨y, w⟩
    let sets := fun (i : Instr) (ok : Prop) (hot : Bool) (v : Bool) =>
      let st := fun (t : State) m z => (t.die m).isHot z
      let tr := fun (t : State) m z => (t.die m).isTripped z
      (¬ ok ∨ (if hot then st s n y else tr s n y) = v → exec i s = .refused .notEnabled)
      ∧ (ok → (if hot then st s n y else tr s n y) = !v → ∃ t, exec i s = .next t
          ∧ (∀ m z, m < 4 → z < 2 → st t m z = (if hot ∧ m = n ∧ z = y then v else st s m z) ∧ tr t m z = (if ¬ hot ∧ m = n ∧ z = y then v else tr s m z)))
    sets (.refreshDoubled n r) (w.toInt ≤ 0) true true ∧ sets (.refreshNormal n r) (30 < w.toInt) true false ∧ sets (.layerTripped n r) (w.toInt ≤ -100) false true
    ∧ ((s.die n).isTripped y = false ∨ w.toInt ≤ -50 → exec (.layerServesAgain n r) s = .refused .notEnabled)
    ∧ ((s.die n).isTripped y = true → -50 < w.toInt → s.colls = [] → (∀ d ∈ s.allScribes, d.wet.tags = []) →
        ∃ t, exec (.layerServesAgain n r) s = .next t ∧ (t.die n).isTripped y = false ∧ (t.die n).isTripped (1 - y) = (s.die n).isTripped (1 - y)
          ∧ s.sameMemory t ∧ t.lines = s.lines ∧ t.me.r = s.me.r ∧ t.me.ctl = s.me.ctl))
  ∧ (∀ s : State, (s.time < s.lastDecision + 10000 → exec .ductusDecision s = .refused .notEnabled)
      ∧ (s.lastDecision + 10000 ≤ s.time → ∃ t, exec .ductusDecision s = .next t ∧ t.lastDecision = s.lastDecision + 10000
          ∧ t.mgmt.outlet = (Config.coldPlate 1 s.time).toNat
          ∧ (∀ c, c < 64 → (look {} t.clusters c : Cluster).level = min 53100 ((look {} s.clusters c : Cluster).level
              + if (Config.layerMargin (c / 16) 0 s.time).toInt ≤ 0 ∨ (Config.layerMargin (c / 16) 1 s.time).toInt ≤ 0 then 265 else 531))
          ∧ (∀ k, k < 1024 → (t.isl k).used = 0 ∧ (t.isl k).cycles = 0 ∧ (t.isl k).stalled = 0 ∧ (t.isl k).clock ≤ (s.isl k).clock
              ∧ ((s.isl k).resident = true ∨ (s.isl k).retention = true → (t.isl k).matrix = (s.isl k).matrix ∧ (t.isl k).vector = (s.isl k).vector))))
  ∧ (∀ (s : State) (k : Nat),
      ((s.isl k).raising = none → exec (.clockRaise k) s = .refused .notEnabled)
      ∧ (∀ n, (s.isl k).raising = some n → ∃ t, exec (.clockRaise k) s = .next t ∧ (t.isl k).clock = n ∧ (t.isl k).raising = none
          ∧ (∀ j, j ≠ k → t.isl j = s.isl j) ∧ { t with islands := s.islands } = s)
      ∧ (1024 ≤ k ∨ (s.isl k).retention = true ∨ (s.isl k).due s.time < 64 → exec (.islandCycle k) s = .refused .notEnabled)
      ∧ (k < 1024 → (s.isl k).retention = false → 64 ≤ (s.isl k).due s.time → ∃ t, exec (.islandCycle k) s = .next t
          ∧ (let i := s.isl k
             let j := t.isl k
             16 * j.matrix + j.fracM = min 1024 (16 * i.matrix + i.fracM + i.refillM) ∧ 16 * j.vector + j.fracV = min 1024 (16 * i.vector + i.fracV + i.refillV)
               ∧ 16 * j.special + j.fracS = min 256 (16 * i.special + i.fracS + i.refillS) ∧ j.memory = min 64 (i.memory + 1) ∧ j.clock = i.clock ∧ j.used = i.used)
          ∧ (∀ j, j ≠ k → t.isl j = s.isl j) ∧ s.sameMemory t ∧ t.me.r = s.me.r
          ∧ t.me.ctl.done = s.me.ctl.done + if islandOf s.me.at_.id = k ∧ s.me.ctl.stepOpen = true ∧ s.me.run.life = .running
              ∧ s.me.at_.shadow = false ∧ s.me.run.park ∈ [none, some .tile, some .loopLine, some .line, some .operand] then 1 else 0)
      ∧ ((s.isl k).retention = true ∨ (s.isl k).resident = true ∨ (s.isl k).idle = false ∨ s.islanders k ≠ [] ∨ s.islandHeld k = true → exec (.retentionEntry k) s = .refused .notEnabled)
      ∧ (k < 1024 → (s.isl k).retention = false → (s.isl k).idle = true → (s.isl k).resident = false → s.islanders k = [] → s.islandHeld k = false →
          ∃ t, exec (.retentionEntry k) s = .next t ∧ (t.isl k).retention = true ∧ { t with islands := s.islands } = s)
      ∧ ((s.isl k).retention = false → exec (.retentionWake k) s = .refused .notEnabled)
      ∧ ((s.isl k).retention = true → (s.isl k).waking = none → (s.wakeCause k = false → exec (.retentionWake k) s = .refused .notEnabled)
        ∧ (s.wakeCause k = true → exec (.retentionWake k) s = .next (s.setIsl k { s.isl k with waking := some (s.time + 1000) })))
      ∧ (∀ due, (s.isl k).waking = some due → s.time < due → exec (.retentionWake k) s = .refused .notEnabled)
      ∧ (∀ due, (s.isl k).retention = true → (s.isl k).waking = some due → due ≤ s.time → ∃ t, exec (.retentionWake k) s = .next t ∧ (t.isl k).retention = false ∧ (t.isl k).bad = []
          ∧ (∀ l ∈ (s.isl k).bad, (t.line l).poison = true) ∧ ∀ l, ¬ l ∈ (s.isl k).bad → t.line l = s.line l))
  ∧ ∀ s : State, (s.mgmt.coolantHot = true ∨ s.mgmt.outlet < 600 → exec .coolantHot s = .refused .notEnabled)
      ∧ (s.mgmt.coolantHot = false ∨ 550 ≤ s.mgmt.outlet → exec .coolantNormal s = .refused .notEnabled)
      ∧ (s.mgmt.coolantHot = true → s.mgmt.outlet < 550 → ∃ t, exec .coolantNormal s = .next t ∧ t.mgmt.coolantHot = false ∧ t.capW = 850)
      ∧ (s.mgmt.coolantHot = false → 600 ≤ s.mgmt.outlet → ∃ t, exec .coolantHot s = .next t ∧ t.mgmt.coolantHot = true ∧ t.capW = 600)

/-! ## Management, the host, links and errors -/

/-- R236, R239, R327, R339 to R345, R351, R368 to R374, R378, R382 to R385: what the controller, the host and the links do. The ROM starts the
firmware from a slot that verifies, the first to try first, else stays in recovery, and a new reset leaves the flash; a mailbox command is
refused in reset and turned away where it may not be taken, and has its effect otherwise; the host's window reads and writes the memory of
a context it has opened; flits are sent, acknowledged and resent, and links go down and come up; an error marks its word, and the mark is
all it changes but for logs. That a command turned away counts as refused (log 91), the slots FLASHWRITE may write (log 92), what the window
and the peers may do (log 93), the ports (log 94), what a reset clears (log 127), which launches a new hole is one for (log 95), the log of a
line's error (log 88), mark 3 of a register word (log 128) and the records and rings that the mailbox turns away (logs 145 and 148) are the
model's. -/
def Obligations.Management : Prop :=
  (∀ s : State,
    (∃ t, exec .boot s = .next t ∧ t.mgmt.boots = s.mgmt.boots + 1 ∧ t.mgmt.pkg = (Config.strapPackage s.mgmt.straps).toNat ∧ t.holes = s.mgmt.disabled
        ∧ t.mgmt.slot0 = s.mgmt.slot0 ∧ t.mgmt.slot1 = s.mgmt.slot1 ∧ t.channels = s.channels
        ∧ (s.mgmt.boot = .inReset → { t with mgmt := s.mgmt, holes := s.holes } = s)
        ∧ (s.mgmt.boot ≠ .inReset → t.queues = [] ∧ t.ctxs = [] ∧ t.teams = [] ∧ t.dram = [] ∧ t.me = {})
        ∧ (let good := fun n => s.mgmt.verifies (s.mgmt.slot n)
           let first := if good s.mgmt.first then s.mgmt.first else 1 - s.mgmt.first
           match Config.pufSeed s.mgmt.boots s.mgmt.helper, good first with
           | some seed, true => t.mgmt.boot = .running ∧ t.mgmt.active = first ∧ t.mgmt.seed = seed
               ∧ t.mgmt.recorded = max s.mgmt.recorded (Config.securityVersion (s.mgmt.slot first))
           | _, _ => t.mgmt.boot = .recovery))
    ∧ ∀ tr, (s.mgmt.boot ≠ .running → exec (.challengeAuth tr) s = .refused .notEnabled ∧ exec (.measurements tr) s = .refused .notEnabled)
      ∧ (s.mgmt.boot = .running → exec (.challengeAuth tr) s = .next (s.answers (s.mgmt.signatures tr))
          ∧ let slot := s.mgmt.slot s.mgmt.active
            exec (.measurements tr) s = .next (s.answers ([Config.romDigest.toNat, (Config.digest (Config.manifest slot)).toNat, (Config.digest s.healthBytes).toNat,
              s.mgmt.straps.toNat, Config.securityVersion slot] ++ s.mgmt.signatures tr))))
  ∧ (∀ (s : State) (slot q asid prio n m lo hi sid core lg cl : Nat) (mr : MailRead) (data : List (BitVec 8)) (ring cring v : BitVec 64) (x : BitVec 128) (whole : Bool) (r : RegName) (rec : CtxRec),
      let turned := fun (i : Instr) => ∃ t, exec i s = .next t ∧ t.mgmt.refusals = s.mgmt.refusals + 1 ∧ { t with mgmt := s.mgmt } = s
      let onlyMgmt := fun (t : State) => { t with mgmt := s.mgmt } = s ∧ t.mgmt.refusals = s.mgmt.refusals
      let all := [Instr.status, .flashwrite slot data, .qcreate q asid prio ring n cring m, .notify ring n, .halt whole sid, .read sid r, .write sid r x, .step sid, .resume sid,
        .contextRecordWrite rec, .quotaWrite core asid v, .windowBind asid lo hi, .logRead mr, .ageingRead cl, .hostWindowAccess asid lo hi .openContext]
      let hit := (s.allScribes.filter fun c => !c.at_.shadow).filter fun c => if whole then c.at_.asid = BitVec.ofNat 14 sid else c.at_.id = BitVec.ofNat 14 sid
      (s.mgmt.boot = .inReset → ∀ i ∈ all, exec i s = .refused .notEnabled)
      ∧ (s.mgmt.boot = .recovery → ∀ i ∈ all.drop 2, turned i)
      ∧ (s.mgmt.boot ≠ .inReset → ∃ t, exec .status s = .next t ∧ onlyMgmt t)
      ∧ (s.mgmt.boot ≠ .inReset → slot < 2 → (s.mgmt.boot = .recovery ∨ slot ≠ s.mgmt.active) →
          ∃ t, exec (.flashwrite slot data) s = .next t ∧ onlyMgmt t ∧ t.mgmt.slot slot = data ∧ t.mgmt.slot (1 - slot) = s.mgmt.slot (1 - slot) ∧ t.mgmt.first = slot)
      ∧ (s.mgmt.boot = .running →
        turned (.flashwrite s.mgmt.active data)
        ∧ (q < 256 → find s.queues q = none → (find s.ctxs asid).isSome = true → prio < 4 → 4 ≤ n → n ≤ 16 → 4 ≤ m → m ≤ 16 →
            ring.toNat + 1024 * 2 ^ n ≤ 2 ^ 60 → cring.toNat + 128 * 2 ^ m ≤ 2 ^ 60 →
            ∃ t, exec (.qcreate q asid prio ring n cring m) s = .next t ∧ { t with queues := s.queues } = s
              ∧ find t.queues q = some { asid := BitVec.ofNat 14 asid, prio := prio, ring := ring.toNat, ringLog := n, cring := cring.toNat, cringLog := m })
        ∧ (2 ^ 60 < ring.toNat + 1024 * 2 ^ n ∨ 2 ^ 60 < cring.toNat + 128 * 2 ^ m → turned (.qcreate q asid prio ring n cring m))
        ∧ (ring.toNat % 8 ≠ 0 ∨ 2 ^ 64 < ring.toNat + 128 * n → turned (.notify ring n))
        ∧ (n ≠ 0 → ring.toNat % 8 = 0 → ring.toNat + 128 * n ≤ 2 ^ 64 → ∃ t, exec (.notify ring n) s = .next t ∧ onlyMgmt t ∧ t.mgmt.notice = some (ring, n) ∧ t.mgmt.notices = 0)
        ∧ (hit = [] → turned (.halt whole sid))
        ∧ (hit = [s.me] → s.me.run.life = .running → s.me.ctl.xim = none → s.me.run.ckWait = none → (∀ j ∈ s.me.run.jobs, j.halt = 0) →
            ∃ t, exec (.halt whole sid) s = .next t ∧ t.me.run.life = .debugHeld ∧ t.me.run.stopCause = 0x23 ∧ t.me.r = s.me.r ∧ t.me.ctl.pc = s.me.ctl.pc ∧ s.sameMemory t)
        ∧ (s.heldScribe sid = none → turned (.read sid r) ∧ turned (.write sid r x) ∧ turned (.step sid) ∧ turned (.resume sid))
        ∧ (∀ c, s.heldScribe sid = some c → c.at_.id = BitVec.ofNat 14 sid →
            (∀ k, s.regValue c r = some k → exec (.read sid r) s = .next (s.answers [k])) ∧ (s.regValue c r = none → turned (.read sid r))
            ∧ (∀ d, c.writeReg (s.liveLanes c.at_) r x.toNat = some d → exec (.write sid r x) s = .next (s.setScribe d)) ∧ (c.writeReg (s.liveLanes c.at_) r x.toNat = none → turned (.write sid r x))
            ∧ (∀ g, g < 8 → ∃ t d, exec (.write sid (.g g) x) s = .next t ∧ t.scribe (BitVec.ofNat 14 sid) = some d ∧ look 0 d.r.x g = x.setWidth 64)
            ∧ (∃ t d, exec (.step sid) s = .next t ∧ t.scribe (BitVec.ofNat 14 sid) = some d ∧ d.run.life = .running ∧ d.run.stepOne = true ∧ d.r = c.r ∧ d.ctl = c.ctl)
            ∧ ∃ t d, exec (.resume sid) s = .next t ∧ t.scribe (BitVec.ofNat 14 sid) = some d ∧ d.run.life = .running ∧ d.run.stepOne = c.run.stepOne ∧ d.r = c.r ∧ d.ctl = c.ctl)
        ∧ (recordOk rec = false → turned (.contextRecordWrite rec))
        ∧ (recordOk rec = true → s.colls = [] → (∀ d ∈ s.allScribes, d.wet.tags = []) → s.me.run.waitEntry < noEntry →
            ∃ t, exec (.contextRecordWrite rec) s = .next t ∧ find t.ctxs rec.asid.toNat = some rec ∧ t.me = s.me ∧ s.sameMemory t)
        ∧ (core < 256 → asid < 2 ^ 14 → quotaOk v.toNat = true →
            ∃ t, exec (.quotaWrite core asid v) s = .next t ∧ t.quota core (BitVec.ofNat 14 asid) = v.toNat ∧ { t with quotas := s.quotas } = s)
        ∧ (quotaOk v.toNat = false → turned (.quotaWrite core asid v))
        ∧ ((find s.ctxs asid).isSome = true → lo ≤ hi → hi ≤ 2 ^ 60 → ∃ t, exec (.windowBind asid lo hi) s = .next t ∧ onlyMgmt t ∧ t.mgmt.window = some (asid, lo, hi))
        ∧ exec (.logRead .health) s = .next (s.answers (s.healthBytes.map (·.toNat)))
        ∧ exec (.logRead .coldPlate) s = .next (s.answers ((List.range 3).map fun k => (Config.coldPlate k s.time).toNat))
        ∧ ((find s.ctxs asid).isSome = true → ∃ t, exec (.hostWindowAccess asid lo hi .openContext) s = .next t ∧ onlyMgmt t ∧ asid ∈ t.mgmt.opened)
        ∧ (lg < 18 → ∃ t, exec (.logRead (.errorLog lg)) s = .next t ∧ onlyMgmt t ∧ t.mgmt.reply.length = 1 + min (look {} s.logs lg : Log).count 1024 ∧ t.mgmt.reply.head? = some (look {} s.logs lg : Log).lost)
        ∧ (cl < 64 → ∃ t, exec (.ageingRead cl) s = .next t ∧ t.mgmt.reply.length = 1 ∧ t.me = s.me ∧ s.sameMemory t)))
  ∧ (∀ (s : State) (src asid a w x : Nat) (ps : List Piece) (hx : HostAccess), a % 8 = 0 → w % 8 = 0 → 0 < w → w ≤ 4096 → a + w ≤ 2 ^ 60 →
      let id := BitVec.ofNat 14 asid
      let who := dispatcher id
      let out := a % 2 ^ 48 + s.mgmt.pkg * 2 ^ 48
      let m := readPieces s.dram ps
      let reads := fun (i : Instr) => s.reachesAs who none id .load a w ps → s.fetchPieces who a ps = (s, []) → exec i s = .next (s.answers [m])
      let writes := fun (i : Instr) => s.reachesAs who none id .store a w ps → exec i s = .next ((s.storePieces who (x % 2 ^ w) ps).answers [])
      (asid ∈ s.mgmt.opened → reads (.hostWindowAccess asid a w .read) ∧ writes (.hostWindowAccess asid a w (.write x)))
      ∧ (¬ asid ∈ s.mgmt.opened → hx = .read ∨ hx = .write x → exec (.hostWindowAccess asid a w hx) s = .refused .notEnabled)
      ∧ (∀ k, find s.queues asid = some k → a = 8 * (0x10000 + 64 * asid) → exec (.hostWindowAccess asid a w .controlIgnored) s = .next s
          ∧ exec (.hostWindowAccess asid a w .queueRegs) s = .next (s.answers [k.image.toNat]) ∧ bits k.image.toNat 416 32 = k.tail.toNat
          ∧ bits k.image.toNat 384 32 = k.head.toNat ∧ bits k.image.toNat 352 32 = k.nextSeq.toNat ∧ bits k.image.toNat 320 32 = k.doneSeq.toNat
          ∧ bits k.image.toNat 288 32 = k.cpos.toNat ∧ bits k.image.toNat 256 32 = k.state % 4)
      ∧ (src = s.mgmt.pkg → exec (.peerRequest src (.load out w)) s = .refused .notEnabled)
      ∧ (s.ownWindow out w = none → exec (.peerRequest src (.load out w)) s = .refused .notEnabled)
      ∧ (src ≠ s.mgmt.pkg → s.ownWindow out w = some (id, a) → reads (.peerRequest src (.load out w)) ∧ writes (.peerRequest src (.store out w x false false))
          ∧ (s.reachesAs who none id .atomic a w ps → s.fetchPieces who a ps = (s, []) →
              exec (.peerRequest src (.atomic 0 out w x 0)) s = .next ((s.storePieces who ((m + x) % 2 ^ w) ps).answers [m])
              ∧ exec (.peerRequest src (.atomic 6 out w x 0)) s = .next ((s.storePieces who (x % 2 ^ w) ps).answers [m]))
          ∧ (w ≤ 64 → s.reachesAs who none id .reduce a w ps → s.fetchPieces who a ps = (s, []) →
              exec (.peerRequest src (.reduce 12 out w x)) s = .next ((s.storePieces who ((m ^^^ (x % 2 ^ w)) % 2 ^ w) ps).answers []))))
  ∧ (∀ (s : State) (p pkg k : Nat) (sid : Option Nat),
      ((s.port p).up = false → exec (.portDown p) s = .refused .notEnabled ∧ exec (.flitRetry (.sent p)) s = .refused .notEnabled
        ∧ exec (.flitRetry (.acked p)) s = .refused .notEnabled ∧ exec (.flitRetry (.failed p k)) s = .refused .notEnabled)
      ∧ ((s.port p).up = true → (s.colls = [] → ∃ t, exec (.portDown p) s = .next t ∧ (t.port p).up = false ∧ t.me = s.me)
          ∧ (∃ t, exec (.flitRetry (.sent p)) s = .next t ∧ (t.port p).unacked = (s.port p).unacked ++ [0] ∧ { t with ports := s.ports, mgmt := s.mgmt } = s)
          ∧ ((s.port p).unacked ≠ [] → ∃ t, exec (.flitRetry (.acked p)) s = .next t ∧ (t.port p).unacked = (s.port p).unacked.drop 1 ∧ { t with ports := s.ports } = s)
          ∧ (k < (s.port p).unacked.length →
              ((s.port p).unacked.getD k 0 < 16 → ∃ t, exec (.flitRetry (.failed p k)) s = .next t
                ∧ (t.port p).unacked = (s.port p).unacked.set k ((s.port p).unacked.getD k 0 + 1) ∧ { t with ports := s.ports } = s)
              ∧ (16 ≤ (s.port p).unacked.getD k 0 → s.colls = [] → ∃ t, exec (.flitRetry (.failed p k)) s = .next t ∧ (t.port p).up = false ∧ t.me = s.me))
          ∧ ((s.port p).unacked.length ≤ k → exec (.flitRetry (.failed p k)) s = .refused .notEnabled))
      ∧ (p < 36 → pkg < 4096 → (s.port p).up = false →
          ∃ t, exec (.portUp p pkg) s = .next t ∧ (t.port p).up = true ∧ (t.port p).pkg = pkg ∧ ¬ pkg ∈ t.unreachable ∧ s.sameMemory t)
      ∧ (pkg = s.mgmt.pkg ∨ pkg ∈ s.unreachable → exec (.peerUnreachable pkg sid) s = .refused .notEnabled)
      ∧ (pkg < 4096 → pkg ≠ s.mgmt.pkg → ¬ pkg ∈ s.unreachable → s.colls = [] →
          (∃ t, exec (.peerUnreachable pkg none) s = .next t ∧ t.unreachable = pkg :: s.unreachable ∧ t.me = s.me)
          ∧ ∀ n c, s.scribe (BitVec.ofNat 14 n) = some c → c.at_.id = BitVec.ofNat 14 n → c.run.life = .running → c.ctl.tvec ≠ 0 →
              ∃ t d, exec (.peerUnreachable pkg (some n)) s = .next t ∧ t.unreachable = pkg :: s.unreachable ∧ t.scribe (BitVec.ofNat 14 n) = some d
                ∧ (find d.run.pending 0x24).isSome = true ∧ d.r = c.r ∧ d.ctl = c.ctl))
  ∧ ∀ (s : State) (w k n x y : Nat),
      let pe := 256 * y + x
      (inTier (32 * w) = true → k < 36 →
        (∃ t, exec (.storageError (.arrayUncorrectable w k)) s = .next t ∧ look 0 t.eccHard w = k + 1 ∧ look 0 t.eccSoft w = 0 ∧ { t with eccHard := s.eccHard, eccSoft := s.eccSoft } = s)
        ∧ (look 0 s.eccHard w = 0 → look 0 s.eccSoft w = 0 → ∃ t, exec (.storageError (.arrayCorrectable w k)) s = .next t ∧ look 0 t.eccSoft w = k + 1 ∧ t.eccHard = s.eccHard ∧ { t with eccSoft := s.eccSoft } = s)
        ∧ (∀ j, look 0 s.eccHard w = 0 → look 0 s.eccSoft w = j + 1 → j ≠ k → ∃ t, exec (.storageError (.arrayCorrectable w k)) s = .next t ∧ look 0 t.eccHard w ≠ 0 ∧ s.sameMemory t))
      ∧ (n < 256 * 65536 → ¬ peOfLine n ∈ s.holes → (s.line n).st ≠ .free → (s.isl (islandOfLine n)).retention = false →
          ∃ t, exec (.storageError (.cellLine n)) s = .next t ∧ t.line n = { s.line n with poison := true } ∧ (∀ l, l ≠ n → t.line l = s.line l) ∧ t.me = s.me)
      ∧ (∀ isl, (s.isl isl).retention = true → w < 2 ^ 37 → ∃ t, exec (.storageError (.keptRegister isl w)) s = .next t ∧ (t.isl isl).badRegs = (s.isl isl).badRegs ++ [w]
          ∧ { t with islands := s.islands } = s)
      ∧ (∀ c, s.scribe (BitVec.ofNat 14 n) = some c → c.at_.id = BitVec.ofNat 14 n →
          (x < 72 → y < 64 → look 0 c.r.pv (vKey x y) = 0 → ∃ t d, exec (.storageError (.vWord n x y)) s = .next t ∧ t.scribe (BitVec.ofNat 14 n) = some d
            ∧ look 0 d.r.pv (vKey x y) = 3 ∧ { d.r with pv := c.r.pv } = c.r ∧ s.sameMemory t)
          ∧ (c.holdsKey k = true → ∃ t d, exec (.storageError (.scalarWord n k)) s = .next t ∧ t.scribe (BitVec.ofNat 14 n) = some d
            ∧ look false d.r.ps k = true ∧ { d.r with ps := c.r.ps } = c.r ∧ s.sameMemory t))
      ∧ (x < 256 → y < 256 → ¬ pe ∈ s.holes → find s.pendingHoles pe = none →
          (s.teams = [] → ∃ t, exec (.holeAdded x y) s = .next t ∧ pe ∈ t.holes ∧ { t with holes := s.holes } = s)
          ∧ (s.teams ≠ [] → ∃ t, exec (.holeAdded x y) s = .next t ∧ t.holes = s.holes ∧ (find t.pendingHoles pe).isSome = true ∧ { t with pendingHoles := s.pendingHoles } = s))
      ∧ (256 ≤ x ∨ 256 ≤ y ∨ pe ∈ s.holes → exec (.holeAdded x y) s = .refused .notEnabled)
end

