-- ==== Sys2Proof/Laws/Exec.lean ====
section
/-! SUPPORT. The dispatch, one equation per instruction. -/

namespace Sys2Proof.Machine

open Sys2Proof

@[simp] theorem exec_add (d : _) (a : _) (b : _) (s : State) : exec (.add d a b) s = execAdd d a b s := rfl
@[simp] theorem exec_sub (d : _) (a : _) (b : _) (s : State) : exec (.sub d a b) s = execSub d a b s := rfl
@[simp] theorem exec_and (d : _) (a : _) (b : _) (s : State) : exec (.and d a b) s = execAnd d a b s := rfl
@[simp] theorem exec_or (d : _) (a : _) (b : _) (s : State) : exec (.or d a b) s = execOr d a b s := rfl
@[simp] theorem exec_xor (d : _) (a : _) (b : _) (s : State) : exec (.xor d a b) s = execXor d a b s := rfl
@[simp] theorem exec_andn (d : _) (a : _) (b : _) (s : State) : exec (.andn d a b) s = execAndn d a b s := rfl
@[simp] theorem exec_shl (d : _) (a : _) (b : _) (s : State) : exec (.shl d a b) s = execShl d a b s := rfl
@[simp] theorem exec_shr (d : _) (a : _) (b : _) (s : State) : exec (.shr d a b) s = execShr d a b s := rfl
@[simp] theorem exec_sar (d : _) (a : _) (b : _) (s : State) : exec (.sar d a b) s = execSar d a b s := rfl
@[simp] theorem exec_minI (d : _) (a : _) (b : _) (s : State) : exec (.minI d a b) s = execMinI d a b s := rfl
@[simp] theorem exec_maxI (d : _) (a : _) (b : _) (s : State) : exec (.maxI d a b) s = execMaxI d a b s := rfl
@[simp] theorem exec_minB (d : _) (a : _) (b : _) (s : State) : exec (.minB d a b) s = execMinB d a b s := rfl
@[simp] theorem exec_maxB (d : _) (a : _) (b : _) (s : State) : exec (.maxB d a b) s = execMaxB d a b s := rfl
@[simp] theorem exec_slt (d : _) (a : _) (b : _) (s : State) : exec (.slt d a b) s = execSlt d a b s := rfl
@[simp] theorem exec_sltb (d : _) (a : _) (b : _) (s : State) : exec (.sltb d a b) s = execSltb d a b s := rfl
@[simp] theorem exec_seq (d : _) (a : _) (b : _) (s : State) : exec (.seq d a b) s = execSeq d a b s := rfl
@[simp] theorem exec_sne (d : _) (a : _) (b : _) (s : State) : exec (.sne d a b) s = execSne d a b s := rfl
@[simp] theorem exec_sel (d : _) (a : _) (b : _) (s : State) : exec (.sel d a b) s = execSel d a b s := rfl
@[simp] theorem exec_clz (d : _) (a : _) (s : State) : exec (.clz d a) s = execClz d a s := rfl
@[simp] theorem exec_ctz (d : _) (a : _) (s : State) : exec (.ctz d a) s = execCtz d a s := rfl
@[simp] theorem exec_popc (d : _) (a : _) (s : State) : exec (.popc d a) s = execPopc d a s := rfl
@[simp] theorem exec_addi (d : _) (a : _) (im : _) (s : State) : exec (.addi d a im) s = execAddi d a im s := rfl
@[simp] theorem exec_slti (d : _) (a : _) (im : _) (s : State) : exec (.slti d a im) s = execSlti d a im s := rfl
@[simp] theorem exec_li (d : _) (im : _) (s : State) : exec (.li d im) s = execLi d im s := rfl
@[simp] theorem exec_lih (d : _) (a : _) (im : _) (s : State) : exec (.lih d a im) s = execLih d a im s := rfl
@[simp] theorem exec_andi (d : _) (a : _) (im : _) (s : State) : exec (.andi d a im) s = execAndi d a im s := rfl
@[simp] theorem exec_ori (d : _) (a : _) (im : _) (s : State) : exec (.ori d a im) s = execOri d a im s := rfl
@[simp] theorem exec_xori (d : _) (a : _) (im : _) (s : State) : exec (.xori d a im) s = execXori d a im s := rfl
@[simp] theorem exec_shli (d : _) (a : _) (n : _) (s : State) : exec (.shli d a n) s = execShli d a n s := rfl
@[simp] theorem exec_shri (d : _) (a : _) (n : _) (s : State) : exec (.shri d a n) s = execShri d a n s := rfl
@[simp] theorem exec_sari (d : _) (a : _) (n : _) (s : State) : exec (.sari d a n) s = execSari d a n s := rfl
@[simp] theorem exec_bfx (d : _) (a : _) (l : _) (p : _) (s : State) : exec (.bfx d a l p) s = execBfx d a l p s := rfl
@[simp] theorem exec_bfxI (d : _) (a : _) (l : _) (p : _) (s : State) : exec (.bfxI d a l p) s = execBfxI d a l p s := rfl
@[simp] theorem exec_bfi (d : _) (a : _) (l : _) (p : _) (s : State) : exec (.bfi d a l p) s = execBfi d a l p s := rfl
@[simp] theorem exec_sext (d : _) (a : _) (n : _) (s : State) : exec (.sext d a n) s = execSext d a n s := rfl
@[simp] theorem exec_zext (d : _) (a : _) (n : _) (s : State) : exec (.zext d a n) s = execZext d a n s := rfl
@[simp] theorem exec_mul (d : _) (a : _) (b : _) (s : State) : exec (.mul d a b) s = execMul d a b s := rfl
@[simp] theorem exec_mulhI (d : _) (a : _) (b : _) (s : State) : exec (.mulhI d a b) s = execMulhI d a b s := rfl
@[simp] theorem exec_mulhB (d : _) (a : _) (b : _) (s : State) : exec (.mulhB d a b) s = execMulhB d a b s := rfl
@[simp] theorem exec_divI (d : _) (a : _) (b : _) (s : State) : exec (.divI d a b) s = execDivI d a b s := rfl
@[simp] theorem exec_divB (d : _) (a : _) (b : _) (s : State) : exec (.divB d a b) s = execDivB d a b s := rfl
@[simp] theorem exec_remI (d : _) (a : _) (b : _) (s : State) : exec (.remI d a b) s = execRemI d a b s := rfl
@[simp] theorem exec_remB (d : _) (a : _) (b : _) (s : State) : exec (.remB d a b) s = execRemB d a b s := rfl
@[simp] theorem exec_mov (d : _) (a : _) (s : State) : exec (.mov d a) s = execMov d a s := rfl
@[simp] theorem exec_beq (a : _) (b : _) (o : _) (s : State) : exec (.beq a b o) s = execBeq a b o s := rfl
@[simp] theorem exec_bne (a : _) (b : _) (o : _) (s : State) : exec (.bne a b o) s = execBne a b o s := rfl
@[simp] theorem exec_blt (a : _) (b : _) (o : _) (s : State) : exec (.blt a b o) s = execBlt a b o s := rfl
@[simp] theorem exec_bge (a : _) (b : _) (o : _) (s : State) : exec (.bge a b o) s = execBge a b o s := rfl
@[simp] theorem exec_bltb (a : _) (b : _) (o : _) (s : State) : exec (.bltb a b o) s = execBltb a b o s := rfl
@[simp] theorem exec_bgeb (a : _) (b : _) (o : _) (s : State) : exec (.bgeb a b o) s = execBgeb a b o s := rfl
@[simp] theorem exec_bz (a : _) (o : _) (s : State) : exec (.bz a o) s = execBz a o s := rfl
@[simp] theorem exec_bnz (a : _) (o : _) (s : State) : exec (.bnz a o) s = execBnz a o s := rfl
@[simp] theorem exec_jmp (o : _) (s : State) : exec (.jmp o) s = execJmp o s := rfl
@[simp] theorem exec_bru (q : _) (o : _) (s : State) : exec (.bru q o) s = execBru q o s := rfl
@[simp] theorem exec_bany (q : _) (o : _) (s : State) : exec (.bany q o) s = execBany q o s := rfl
@[simp] theorem exec_ball (q : _) (o : _) (s : State) : exec (.ball q o) s = execBall q o s := rfl
@[simp] theorem exec_bnone (q : _) (o : _) (s : State) : exec (.bnone q o) s = execBnone q o s := rfl
@[simp] theorem exec_call (o : _) (s : State) : exec (.call o) s = execCall o s := rfl
@[simp] theorem exec_callr (a : _) (s : State) : exec (.callr a) s = execCallr a s := rfl
@[simp] theorem exec_jr (a : _) (s : State) : exec (.jr a) s = execJr a s := rfl
@[simp] theorem exec_ret (s : State) : exec (.ret) s = execRet s := rfl
@[simp] theorem exec_ldB (d : _) (c : _) (x : _) (w : _) (o : _) (sreg : _) (s : State) : exec (.ldB d c x w o sreg) s = execLdB d c x w o sreg s := rfl
@[simp] theorem exec_ldI (d : _) (c : _) (x : _) (w : _) (o : _) (sreg : _) (s : State) : exec (.ldI d c x w o sreg) s = execLdI d c x w o sreg s := rfl
@[simp] theorem exec_ldc (d : _) (c : _) (x : _) (o : _) (sreg : _) (s : State) : exec (.ldc d c x o sreg) s = execLdc d c x o sreg s := rfl
@[simp] theorem exec_st (t : _) (c : _) (x : _) (w : _) (o : _) (sreg : _) (s : State) : exec (.st t c x w o sreg) s = execSt t c x w o sreg s := rfl
@[simp] theorem exec_stc (t : _) (c : _) (x : _) (o : _) (sreg : _) (s : State) : exec (.stc t c x o sreg) s = execStc t c x o sreg s := rfl
@[simp] theorem exec_amoAdd (d : _) (c : _) (x : _) (w : _) (o : _) (sreg : _) (s : State) : exec (.amoAdd d c x w o sreg) s = execAmoAdd d c x w o sreg s := rfl
@[simp] theorem exec_amoMin (d : _) (c : _) (x : _) (w : _) (o : _) (sreg : _) (s : State) : exec (.amoMin d c x w o sreg) s = execAmoMin d c x w o sreg s := rfl
@[simp] theorem exec_amoMax (d : _) (c : _) (x : _) (w : _) (o : _) (sreg : _) (s : State) : exec (.amoMax d c x w o sreg) s = execAmoMax d c x w o sreg s := rfl
@[simp] theorem exec_amoAnd (d : _) (c : _) (x : _) (w : _) (o : _) (sreg : _) (s : State) : exec (.amoAnd d c x w o sreg) s = execAmoAnd d c x w o sreg s := rfl
@[simp] theorem exec_amoOr (d : _) (c : _) (x : _) (w : _) (o : _) (sreg : _) (s : State) : exec (.amoOr d c x w o sreg) s = execAmoOr d c x w o sreg s := rfl
@[simp] theorem exec_amoXor (d : _) (c : _) (x : _) (w : _) (o : _) (sreg : _) (s : State) : exec (.amoXor d c x w o sreg) s = execAmoXor d c x w o sreg s := rfl
@[simp] theorem exec_amoSwap (d : _) (c : _) (x : _) (w : _) (o : _) (sreg : _) (s : State) : exec (.amoSwap d c x w o sreg) s = execAmoSwap d c x w o sreg s := rfl
@[simp] theorem exec_amoCas (d : _) (c : _) (x : _) (w : _) (o : _) (sreg : _) (s : State) : exec (.amoCas d c x w o sreg) s = execAmoCas d c x w o sreg s := rfl
@[simp] theorem exec_amoBfadd (d : _) (c : _) (x : _) (w : _) (o : _) (sreg : _) (s : State) : exec (.amoBfadd d c x w o sreg) s = execAmoBfadd d c x w o sreg s := rfl
@[simp] theorem exec_amoBfset (d : _) (c : _) (x : _) (w : _) (o : _) (sreg : _) (s : State) : exec (.amoBfset d c x w o sreg) s = execAmoBfset d c x w o sreg s := rfl
@[simp] theorem exec_cgetb (d : _) (a : _) (s : State) : exec (.cgetb d a) s = execCgetb d a s := rfl
@[simp] theorem exec_cgetl (d : _) (a : _) (s : State) : exec (.cgetl d a) s = execCgetl d a s := rfl
@[simp] theorem exec_cgetp (d : _) (a : _) (s : State) : exec (.cgetp d a) s = execCgetp d a s := rfl
@[simp] theorem exec_cgets (d : _) (a : _) (s : State) : exec (.cgets d a) s = execCgets d a s := rfl
@[simp] theorem exec_cgett (d : _) (a : _) (s : State) : exec (.cgett d a) s = execCgett d a s := rfl
@[simp] theorem exec_csetb (d : _) (a : _) (b : _) (s : State) : exec (.csetb d a b) s = execCsetb d a b s := rfl
@[simp] theorem exec_candp (d : _) (a : _) (b : _) (s : State) : exec (.candp d a b) s = execCandp d a b s := rfl
@[simp] theorem exec_cmov (d : _) (a : _) (s : State) : exec (.cmov d a) s = execCmov d a s := rfl
@[simp] theorem exec_ccur (d : _) (a : _) (b : _) (s : State) : exec (.ccur d a b) s = execCcur d a b s := rfl
@[simp] theorem exec_padd (d : _) (a : _) (b : _) (w : _) (s : State) : exec (.padd d a b w) s = execPadd d a b w s := rfl
@[simp] theorem exec_psub (d : _) (a : _) (b : _) (w : _) (s : State) : exec (.psub d a b w) s = execPsub d a b w s := rfl
@[simp] theorem exec_pdiff (d : _) (a : _) (b : _) (w : _) (s : State) : exec (.pdiff d a b w) s = execPdiff d a b w s := rfl
@[simp] theorem exec_palign (d : _) (a : _) (u : _) (w : _) (s : State) : exec (.palign d a u w) s = execPalign d a u w s := rfl
@[simp] theorem exec_pbyte (d : _) (a : _) (s : State) : exec (.pbyte d a) s = execPbyte d a s := rfl
@[simp] theorem exec_pbit (d : _) (a : _) (b : _) (s : State) : exec (.pbit d a b) s = execPbit d a b s := rfl
@[simp] theorem exec_pinb (d : _) (a : _) (b : _) (w : _) (s : State) : exec (.pinb d a b w) s = execPinb d a b w s := rfl
@[simp] theorem exec_getc (r : _) (d : _) (s : State) : exec (.getc r d) s = execGetc r d s := rfl
@[simp] theorem exec_setc (r : _) (sreg : _) (s : State) : exec (.setc r sreg) s = execSetc r sreg s := rfl
@[simp] theorem exec_setcRngs (sreg : _) (s : State) : exec (.setcRngs sreg) s = execSetcRngs sreg s := rfl
@[simp] theorem exec_trap (n : _) (s : State) : exec (.trap n) s = execTrap n s := rfl
@[simp] theorem exec_tret (s : State) : exec (.tret) s = execTret s := rfl
@[simp] theorem exec_tretReplay (s : State) : exec (.tretReplay) s = execTretReplay s := rfl
@[simp] theorem exec_fence (sreg : _) (o : _) (s : State) : exec (.fence sreg o) s = execFence sreg o s := rfl
@[simp] theorem exec_yield (s : State) : exec (.yield) s = execYield s := rfl
@[simp] theorem exec_exit (s : State) : exec (.exit) s = execExit s := rfl
@[simp] theorem exec_brk (n : _) (s : State) : exec (.brk n) s = execBrk n s := rfl
@[simp] theorem exec_beat (s : State) : exec (.beat) s = execBeat s := rfl
@[simp] theorem exec_nop (s : State) : exec (.nop) s = execNop s := rfl
@[simp] theorem exec_ldk (n : _) (d : _) (im : _) (s : State) : exec (.ldk n d im) s = execLdk n d im s := rfl
@[simp] theorem exec_xim (p : _) (s : State) : exec (.xim p) s = execXim p s := rfl
@[simp] theorem exec_dry (r : _) (k : _) (s : State) : exec (.dry r k) s = execDry r k s := rfl
@[simp] theorem exec_wetq (d : _) (r : _) (k : _) (s : State) : exec (.wetq d r k) s = execWetq d r k s := rfl
@[simp] theorem exec_dryAll (s : State) : exec (.dryAll) s = execDryAll s := rfl
@[simp] theorem exec_vadd (g : _) (d : _) (a : _) (b : _) (s : State) : exec (.vadd g d a b) s = execVadd g d a b s := rfl
@[simp] theorem exec_vsub (g : _) (d : _) (a : _) (b : _) (s : State) : exec (.vsub g d a b) s = execVsub g d a b s := rfl
@[simp] theorem exec_vand (g : _) (d : _) (a : _) (b : _) (s : State) : exec (.vand g d a b) s = execVand g d a b s := rfl
@[simp] theorem exec_vor (g : _) (d : _) (a : _) (b : _) (s : State) : exec (.vor g d a b) s = execVor g d a b s := rfl
@[simp] theorem exec_vxor (g : _) (d : _) (a : _) (b : _) (s : State) : exec (.vxor g d a b) s = execVxor g d a b s := rfl
@[simp] theorem exec_vandn (g : _) (d : _) (a : _) (b : _) (s : State) : exec (.vandn g d a b) s = execVandn g d a b s := rfl
@[simp] theorem exec_vnot (g : _) (d : _) (a : _) (s : State) : exec (.vnot g d a) s = execVnot g d a s := rfl
@[simp] theorem exec_vabs (g : _) (d : _) (a : _) (s : State) : exec (.vabs g d a) s = execVabs g d a s := rfl
@[simp] theorem exec_vneg (g : _) (d : _) (a : _) (s : State) : exec (.vneg g d a) s = execVneg g d a s := rfl
@[simp] theorem exec_vminI (g : _) (d : _) (a : _) (b : _) (s : State) : exec (.vminI g d a b) s = execVminI g d a b s := rfl
@[simp] theorem exec_vminB (g : _) (d : _) (a : _) (b : _) (s : State) : exec (.vminB g d a b) s = execVminB g d a b s := rfl
@[simp] theorem exec_vmaxI (g : _) (d : _) (a : _) (b : _) (s : State) : exec (.vmaxI g d a b) s = execVmaxI g d a b s := rfl
@[simp] theorem exec_vmaxB (g : _) (d : _) (a : _) (b : _) (s : State) : exec (.vmaxB g d a b) s = execVmaxB g d a b s := rfl
@[simp] theorem exec_vaddsatI (g : _) (d : _) (a : _) (b : _) (s : State) : exec (.vaddsatI g d a b) s = execVaddsatI g d a b s := rfl
@[simp] theorem exec_vaddsatB (g : _) (d : _) (a : _) (b : _) (s : State) : exec (.vaddsatB g d a b) s = execVaddsatB g d a b s := rfl
@[simp] theorem exec_vsubsatI (g : _) (d : _) (a : _) (b : _) (s : State) : exec (.vsubsatI g d a b) s = execVsubsatI g d a b s := rfl
@[simp] theorem exec_vsubsatB (g : _) (d : _) (a : _) (b : _) (s : State) : exec (.vsubsatB g d a b) s = execVsubsatB g d a b s := rfl
@[simp] theorem exec_vaddi (g : _) (d : _) (a : _) (im : _) (s : State) : exec (.vaddi g d a im) s = execVaddi g d a im s := rfl
@[simp] theorem exec_vandi (g : _) (d : _) (a : _) (im : _) (s : State) : exec (.vandi g d a im) s = execVandi g d a im s := rfl
@[simp] theorem exec_vori (g : _) (d : _) (a : _) (im : _) (s : State) : exec (.vori g d a im) s = execVori g d a im s := rfl
@[simp] theorem exec_vshli (g : _) (d : _) (a : _) (n : _) (s : State) : exec (.vshli g d a n) s = execVshli g d a n s := rfl
@[simp] theorem exec_vmul (g : _) (d : _) (a : _) (b : _) (s : State) : exec (.vmul g d a b) s = execVmul g d a b s := rfl
@[simp] theorem exec_vmulhI (g : _) (d : _) (a : _) (b : _) (s : State) : exec (.vmulhI g d a b) s = execVmulhI g d a b s := rfl
@[simp] theorem exec_vmulhB (g : _) (d : _) (a : _) (b : _) (s : State) : exec (.vmulhB g d a b) s = execVmulhB g d a b s := rfl
@[simp] theorem exec_vmad (g : _) (d : _) (a : _) (b : _) (s : State) : exec (.vmad g d a b) s = execVmad g d a b s := rfl
@[simp] theorem exec_vshl (g : _) (d : _) (a : _) (b : _) (s : State) : exec (.vshl g d a b) s = execVshl g d a b s := rfl
@[simp] theorem exec_vshr (g : _) (d : _) (a : _) (b : _) (s : State) : exec (.vshr g d a b) s = execVshr g d a b s := rfl
@[simp] theorem exec_vsar (g : _) (d : _) (a : _) (b : _) (s : State) : exec (.vsar g d a b) s = execVsar g d a b s := rfl
@[simp] theorem exec_vclz (g : _) (d : _) (a : _) (s : State) : exec (.vclz g d a) s = execVclz g d a s := rfl
@[simp] theorem exec_vpopc (g : _) (d : _) (a : _) (s : State) : exec (.vpopc g d a) s = execVpopc g d a s := rfl
@[simp] theorem exec_vbfx (g : _) (d : _) (a : _) (b : _) (s : State) : exec (.vbfx g d a b) s = execVbfx g d a b s := rfl
@[simp] theorem exec_vbfxI (g : _) (d : _) (a : _) (b : _) (s : State) : exec (.vbfxI g d a b) s = execVbfxI g d a b s := rfl
@[simp] theorem exec_vbfi (g : _) (d : _) (a : _) (b : _) (s : State) : exec (.vbfi g d a b) s = execVbfi g d a b s := rfl
@[simp] theorem exec_fadd (g : _) (d : _) (a : _) (b : _) (s : State) : exec (.fadd g d a b) s = execFadd g d a b s := rfl
@[simp] theorem exec_fsub (g : _) (d : _) (a : _) (b : _) (s : State) : exec (.fsub g d a b) s = execFsub g d a b s := rfl
@[simp] theorem exec_fmul (g : _) (d : _) (a : _) (b : _) (s : State) : exec (.fmul g d a b) s = execFmul g d a b s := rfl
@[simp] theorem exec_fmin (g : _) (d : _) (a : _) (b : _) (s : State) : exec (.fmin g d a b) s = execFmin g d a b s := rfl
@[simp] theorem exec_fmax (g : _) (d : _) (a : _) (b : _) (s : State) : exec (.fmax g d a b) s = execFmax g d a b s := rfl
@[simp] theorem exec_fabs (g : _) (d : _) (a : _) (s : State) : exec (.fabs g d a) s = execFabs g d a s := rfl
@[simp] theorem exec_fneg (g : _) (d : _) (a : _) (s : State) : exec (.fneg g d a) s = execFneg g d a s := rfl
@[simp] theorem exec_frnd (g : _) (d : _) (a : _) (m : _) (s : State) : exec (.frnd g d a m) s = execFrnd g d a m s := rfl
@[simp] theorem exec_fclass (g : _) (d : _) (a : _) (s : State) : exec (.fclass g d a) s = execFclass g d a s := rfl
@[simp] theorem exec_faddPacked (g : _) (d : _) (a : _) (b : _) (p : _) (s : State) : exec (.faddPacked g d a b p) s = execFaddPacked g d a b p s := rfl
@[simp] theorem exec_fsubPacked (g : _) (d : _) (a : _) (b : _) (p : _) (s : State) : exec (.fsubPacked g d a b p) s = execFsubPacked g d a b p s := rfl
@[simp] theorem exec_fmulPacked (g : _) (d : _) (a : _) (b : _) (p : _) (s : State) : exec (.fmulPacked g d a b p) s = execFmulPacked g d a b p s := rfl
@[simp] theorem exec_fminPacked (g : _) (d : _) (a : _) (b : _) (p : _) (s : State) : exec (.fminPacked g d a b p) s = execFminPacked g d a b p s := rfl
@[simp] theorem exec_fmaxPacked (g : _) (d : _) (a : _) (b : _) (p : _) (s : State) : exec (.fmaxPacked g d a b p) s = execFmaxPacked g d a b p s := rfl
@[simp] theorem exec_fabsPacked (g : _) (d : _) (a : _) (p : _) (s : State) : exec (.fabsPacked g d a p) s = execFabsPacked g d a p s := rfl
@[simp] theorem exec_fnegPacked (g : _) (d : _) (a : _) (p : _) (s : State) : exec (.fnegPacked g d a p) s = execFnegPacked g d a p s := rfl
@[simp] theorem exec_fclassPacked (g : _) (d : _) (a : _) (p : _) (s : State) : exec (.fclassPacked g d a p) s = execFclassPacked g d a p s := rfl
@[simp] theorem exec_frndPacked (g : _) (d : _) (a : _) (m : _) (p : _) (s : State) : exec (.frndPacked g d a m p) s = execFrndPacked g d a m p s := rfl
@[simp] theorem exec_fdot2 (g : _) (d : _) (a : _) (b : _) (p : _) (s : State) : exec (.fdot2 g d a b p) s = execFdot2 g d a b p s := rfl
@[simp] theorem exec_fma (g : _) (d : _) (a : _) (b : _) (f : _) (s : State) : exec (.fma g d a b f) s = execFma g d a b f s := rfl
@[simp] theorem exec_fms (g : _) (d : _) (a : _) (b : _) (f : _) (s : State) : exec (.fms g d a b f) s = execFms g d a b f s := rfl
@[simp] theorem exec_fnma (g : _) (d : _) (a : _) (b : _) (f : _) (s : State) : exec (.fnma g d a b f) s = execFnma g d a b f s := rfl
@[simp] theorem exec_vcmp (g : _) (q : _) (a : _) (b : _) (c : _) (s : State) : exec (.vcmp g q a b c) s = execVcmp g q a b c s := rfl
@[simp] theorem exec_vcmpF (g : _) (q : _) (a : _) (b : _) (c : _) (s : State) : exec (.vcmpF g q a b c) s = execVcmpF g q a b c s := rfl
@[simp] theorem exec_fcmpu (g : _) (q : _) (a : _) (b : _) (s : State) : exec (.fcmpu g q a b) s = execFcmpu g q a b s := rfl
@[simp] theorem exec_vsel (g : _) (d : _) (a : _) (b : _) (s : State) : exec (.vsel g d a b) s = execVsel g d a b s := rfl
@[simp] theorem exec_vmov (g : _) (d : _) (a : _) (s : State) : exec (.vmov g d a) s = execVmov g d a s := rfl
@[simp] theorem exec_vmovi (g : _) (d : _) (im : _) (s : State) : exec (.vmovi g d im) s = execVmovi g d im s := rfl
@[simp] theorem exec_vfromg (g : _) (d : _) (sreg : _) (s : State) : exec (.vfromg g d sreg) s = execVfromg g d sreg s := rfl
@[simp] theorem exec_vlane (g : _) (d : _) (sreg : _) (s : State) : exec (.vlane g d sreg) s = execVlane g d sreg s := rfl
@[simp] theorem exec_pand (g : _) (d : _) (a : _) (b : _) (s : State) : exec (.pand g d a b) s = execPand g d a b s := rfl
@[simp] theorem exec_por (g : _) (d : _) (a : _) (b : _) (s : State) : exec (.por g d a b) s = execPor g d a b s := rfl
@[simp] theorem exec_pxor (g : _) (d : _) (a : _) (b : _) (s : State) : exec (.pxor g d a b) s = execPxor g d a b s := rfl
@[simp] theorem exec_pnot (g : _) (d : _) (a : _) (s : State) : exec (.pnot g d a) s = execPnot g d a s := rfl
@[simp] theorem exec_pmov (g : _) (d : _) (a : _) (s : State) : exec (.pmov g d a) s = execPmov g d a s := rfl
@[simp] theorem exec_cvtF32ToX (g : _) (d : _) (a : _) (x : _) (r : _) (s : State) : exec (.cvtF32ToX g d a x r) s = execCvtF32ToX g d a x r s := rfl
@[simp] theorem exec_cvtI32ToX (g : _) (d : _) (a : _) (x : _) (r : _) (s : State) : exec (.cvtI32ToX g d a x r) s = execCvtI32ToX g d a x r s := rfl
@[simp] theorem exec_cvtXToF32 (g : _) (d : _) (a : _) (x : _) (r : _) (s : State) : exec (.cvtXToF32 g d a x r) s = execCvtXToF32 g d a x r s := rfl
@[simp] theorem exec_cvtXToI32 (g : _) (d : _) (a : _) (x : _) (r : _) (s : State) : exec (.cvtXToI32 g d a x r) s = execCvtXToI32 g d a x r s := rfl
@[simp] theorem exec_vunpack (g : _) (d : _) (a : _) (f : _) (h : _) (s : State) : exec (.vunpack g d a f h) s = execVunpack g d a f h s := rfl
@[simp] theorem exec_vquant (g : _) (d : _) (a : _) (r : _) (t : _) (l : _) (f : _) (s : State) : exec (.vquant g d a r t l f) s = execVquant g d a r t l f s := rfl
@[simp] theorem exec_vdequant (g : _) (d : _) (a : _) (f : _) (s : State) : exec (.vdequant g d a f) s = execVdequant g d a f s := rfl
@[simp] theorem exec_vpackF16 (g : _) (d : _) (a : _) (b : _) (s : State) : exec (.vpackF16 g d a b) s = execVpackF16 g d a b s := rfl
@[simp] theorem exec_vpackBf16 (g : _) (d : _) (a : _) (b : _) (s : State) : exec (.vpackBf16 g d a b) s = execVpackBf16 g d a b s := rfl
@[simp] theorem exec_frcp (g : _) (d : _) (a : _) (s : State) : exec (.frcp g d a) s = execFrcp g d a s := rfl
@[simp] theorem exec_frsqrt (g : _) (d : _) (a : _) (s : State) : exec (.frsqrt g d a) s = execFrsqrt g d a s := rfl
@[simp] theorem exec_fsqrt (g : _) (d : _) (a : _) (s : State) : exec (.fsqrt g d a) s = execFsqrt g d a s := rfl
@[simp] theorem exec_fexp2 (g : _) (d : _) (a : _) (s : State) : exec (.fexp2 g d a) s = execFexp2 g d a s := rfl
@[simp] theorem exec_flog2 (g : _) (d : _) (a : _) (s : State) : exec (.flog2 g d a) s = execFlog2 g d a s := rfl
@[simp] theorem exec_fsin (g : _) (d : _) (a : _) (s : State) : exec (.fsin g d a) s = execFsin g d a s := rfl
@[simp] theorem exec_fcos (g : _) (d : _) (a : _) (s : State) : exec (.fcos g d a) s = execFcos g d a s := rfl
@[simp] theorem exec_ftanh (g : _) (d : _) (a : _) (s : State) : exec (.ftanh g d a) s = execFtanh g d a s := rfl
@[simp] theorem exec_vperm (g : _) (d : _) (a : _) (b : _) (s : State) : exec (.vperm g d a b) s = execVperm g d a b s := rfl
@[simp] theorem exec_vpermM (g : _) (d : _) (a : _) (b : _) (s : State) : exec (.vpermM g d a b) s = execVpermM g d a b s := rfl
@[simp] theorem exec_vshufx (g : _) (d : _) (a : _) (m : _) (k : _) (s : State) : exec (.vshufx g d a m k) s = execVshufx g d a m k s := rfl
@[simp] theorem exec_vshufy (g : _) (d : _) (a : _) (m : _) (k : _) (s : State) : exec (.vshufy g d a m k) s = execVshufy g d a m k s := rfl
@[simp] theorem exec_vbcast (g : _) (d : _) (a : _) (p : _) (s : State) : exec (.vbcast g d a p) s = execVbcast g d a p s := rfl
@[simp] theorem exec_vred (g : _) (d : _) (a : _) (o : _) (s : State) : exec (.vred g d a o) s = execVred g d a o s := rfl
@[simp] theorem exec_vscan (g : _) (d : _) (a : _) (o : _) (s : State) : exec (.vscan g d a o) s = execVscan g d a o s := rfl
@[simp] theorem exec_vmatch (g : _) (d : _) (a : _) (s : State) : exec (.vmatch g d a) s = execVmatch g d a s := rfl
@[simp] theorem exec_vpick (g : _) (d : _) (a : _) (s : State) : exec (.vpick g d a) s = execVpick g d a s := rfl
@[simp] theorem exec_vvote (g : _) (d : _) (q : _) (s : State) : exec (.vvote g d q) s = execVvote g d q s := rfl
@[simp] theorem exec_ldw (g : _) (d : _) (a : _) (x : _) (y : _) (w : _) (s : State) : exec (.ldw g d a x y w) s = execLdw g d a x y w s := rfl
@[simp] theorem exec_stw (g : _) (sreg : _) (a : _) (x : _) (y : _) (w : _) (s : State) : exec (.stw g sreg a x y w) s = execStw g sreg a x y w s := rfl
@[simp] theorem exec_ldeB (g : _) (d : _) (a : _) (w : _) (s : State) : exec (.ldeB g d a w) s = execLdeB g d a w s := rfl
@[simp] theorem exec_ldeI (g : _) (d : _) (a : _) (w : _) (s : State) : exec (.ldeI g d a w) s = execLdeI g d a w s := rfl
@[simp] theorem exec_ste (g : _) (sreg : _) (a : _) (w : _) (s : State) : exec (.ste g sreg a w) s = execSte g sreg a w s := rfl
@[simp] theorem exec_vamoAdd (g : _) (d : _) (a : _) (w : _) (s : State) : exec (.vamoAdd g d a w) s = execVamoAdd g d a w s := rfl
@[simp] theorem exec_vamoMinI (g : _) (d : _) (a : _) (w : _) (s : State) : exec (.vamoMinI g d a w) s = execVamoMinI g d a w s := rfl
@[simp] theorem exec_vamoMaxI (g : _) (d : _) (a : _) (w : _) (s : State) : exec (.vamoMaxI g d a w) s = execVamoMaxI g d a w s := rfl
@[simp] theorem exec_vamoAnd (g : _) (d : _) (a : _) (w : _) (s : State) : exec (.vamoAnd g d a w) s = execVamoAnd g d a w s := rfl
@[simp] theorem exec_vamoOr (g : _) (d : _) (a : _) (w : _) (s : State) : exec (.vamoOr g d a w) s = execVamoOr g d a w s := rfl
@[simp] theorem exec_vamoXor (g : _) (d : _) (a : _) (w : _) (s : State) : exec (.vamoXor g d a w) s = execVamoXor g d a w s := rfl
@[simp] theorem exec_vamoSwap (g : _) (d : _) (a : _) (w : _) (s : State) : exec (.vamoSwap g d a w) s = execVamoSwap g d a w s := rfl
@[simp] theorem exec_vamoCas (g : _) (d : _) (a : _) (w : _) (s : State) : exec (.vamoCas g d a w) s = execVamoCas g d a w s := rfl
@[simp] theorem exec_vamoBfadd (g : _) (d : _) (a : _) (w : _) (s : State) : exec (.vamoBfadd g d a w) s = execVamoBfadd g d a w s := rfl
@[simp] theorem exec_vamoMinB (g : _) (d : _) (a : _) (w : _) (s : State) : exec (.vamoMinB g d a w) s = execVamoMinB g d a w s := rfl
@[simp] theorem exec_vamoMaxB (g : _) (d : _) (a : _) (w : _) (s : State) : exec (.vamoMaxB g d a w) s = execVamoMaxB g d a w s := rfl
@[simp] theorem exec_lcopy (a : _) (c : _) (v : _) (d : _) (n : _) (q : _) (s : State) : exec (.lcopy a c v d n q) s = execLcopy a c v d n q s := rfl
@[simp] theorem exec_own (e : _) (s : State) : exec (.own e) s = execOwn e s := rfl
@[simp] theorem exec_give (sreg : _) (e : _) (s : State) : exec (.give sreg e) s = execGive sreg e s := rfl
@[simp] theorem exec_share (e : _) (s : State) : exec (.share e) s = execShare e s := rfl
@[simp] theorem exec_claim (e : _) (s : State) : exec (.claim e) s = execClaim e s := rfl
@[simp] theorem exec_pass (sreg : _) (e : _) (s : State) : exec (.pass sreg e) s = execPass sreg e s := rfl
@[simp] theorem exec_probe (d : _) (a : _) (s : State) : exec (.probe d a) s = execProbe d a s := rfl
@[simp] theorem exec_rset (sreg : _) (e : _) (s : State) : exec (.rset sreg e) s = execRset sreg e s := rfl
@[simp] theorem exec_rget (d : _) (e : _) (s : State) : exec (.rget d e) s = execRget d e s := rfl
@[simp] theorem exec_rmov (f : _) (e : _) (s : State) : exec (.rmov f e) s = execRmov f e s := rfl
@[simp] theorem exec_radj (a : _) (b : _) (t : _) (e : _) (s : State) : exec (.radj a b t e) s = execRadj a b t e s := rfl
@[simp] theorem exec_scroll (e : _) (x : _) (y : _) (m : _) (s : State) : exec (.scroll e x y m) s = execScroll e x y m s := rfl
@[simp] theorem exec_scrollReg (e : _) (a : _) (b : _) (m : _) (s : State) : exec (.scrollReg e a b m) s = execScrollReg e a b m s := rfl
@[simp] theorem exec_scrollResume (s : State) : exec (.scrollResume) s = execScrollResume s := rfl
@[simp] theorem exec_pfill (e : _) (s : State) : exec (.pfill e) s = execPfill e s := rfl
@[simp] theorem exec_pfillZero (e : _) (s : State) : exec (.pfillZero e) s = execPfillZero e s := rfl
@[simp] theorem exec_pfillScalar (e : _) (sreg : _) (s : State) : exec (.pfillScalar e sreg) s = execPfillScalar e sreg s := rfl
@[simp] theorem exec_mloop (z : _) (a : _) (d : _) (b : _) (f : _) (sreg : _) (k : _) (s : State) : exec (.mloop z a d b f sreg k) s = execMloop z a d b f sreg k s := rfl
@[simp] theorem exec_mcommit (s : State) : exec (.mcommit) s = execMcommit s := rfl
@[simp] theorem exec_mwait (n : _) (s : State) : exec (.mwait n) s = execMwait n s := rfl
@[simp] theorem exec_zclr (z : _) (s : State) : exec (.zclr z) s = execZclr z s := rfl
@[simp] theorem exec_zld (sreg : _) (z : _) (s : State) : exec (.zld sreg z) s = execZld sreg z s := rfl
@[simp] theorem exec_zst (sreg : _) (z : _) (s : State) : exec (.zst sreg z) s = execZst sreg z s := rfl
@[simp] theorem exec_zmov (m : _) (n : _) (s : State) : exec (.zmov m n) s = execZmov m n s := rfl
@[simp] theorem exec_zcvt (sreg : _) (im : _) (r : _) (f : _) (z : _) (s : State) : exec (.zcvt sreg im r f z) s = execZcvt sreg im r f z s := rfl
@[simp] theorem exec_zcvtReg (d : _) (im : _) (r : _) (f : _) (z : _) (s : State) : exec (.zcvtReg d im r f z) s = execZcvtReg d im r f z s := rfl
@[simp] theorem exec_binit (a : _) (b : _) (f : _) (s : State) : exec (.binit a b f) s = execBinit a b f s := rfl
@[simp] theorem exec_barrive (a : _) (b : _) (g : _) (f : _) (s : State) : exec (.barrive a b g f) s = execBarrive a b g f s := rfl
@[simp] theorem exec_bwait (a : _) (b : _) (s : State) : exec (.bwait a b) s = execBwait a b s := rfl
@[simp] theorem exec_btest (a : _) (b : _) (s : State) : exec (.btest a b) s = execBtest a b s := rfl
@[simp] theorem exec_bexpect (a : _) (b : _) (s : State) : exec (.bexpect a b) s = execBexpect a b s := rfl
@[simp] theorem exec_semwait (c : _) (b : _) (n : _) (sreg : _) (s : State) : exec (.semwait c b n sreg) s = execSemwait c b n sreg s := rfl
@[simp] theorem exec_sempost (c : _) (b : _) (n : _) (sreg : _) (s : State) : exec (.sempost c b n sreg) s = execSempost c b n sreg s := rfl
@[simp] theorem exec_park (c : _) (b : _) (sreg : _) (s : State) : exec (.park c b sreg) s = execPark c b sreg s := rfl
@[simp] theorem exec_qkick (l : _) (p : _) (n : _) (s : State) : exec (.qkick l p n) s = execQkick l p n s := rfl
@[simp] theorem exec_qdrain (s : State) : exec (.qdrain) s = execQdrain s := rfl
@[simp] theorem exec_qstat (d : _) (s : State) : exec (.qstat d) s = execQstat d s := rfl
@[simp] theorem exec_qcancel (d : _) (a : _) (s : State) : exec (.qcancel d a) s = execQcancel d a s := rfl
@[simp] theorem exec_ssubNib (b : _) (sreg : _) (s : State) : exec (.ssubNib b sreg) s = execSsubNib b sreg s := rfl
@[simp] theorem exec_ssubCell (a : _) (b : _) (sreg : _) (e : _) (s : State) : exec (.ssubCell a b sreg e) s = execSsubCell a b sreg e s := rfl
@[simp] theorem exec_sunsub (sreg : _) (s : State) : exec (.sunsub sreg) s = execSunsub sreg s := rfl
@[simp] theorem exec_spub (a : _) (sreg : _) (s : State) : exec (.spub a sreg) s = execSpub a sreg s := rfl
@[simp] theorem exec_coll (a : _) (b : _) (s : State) : exec (.coll a b) s = execColl a b s := rfl
@[simp] theorem exec_stepb (a : _) (b : _) (im : _) (s : State) : exec (.stepb a b im) s = execStepb a b im s := rfl
@[simp] theorem exec_stepe (im : _) (s : State) : exec (.stepe im) s = execStepe im s := rfl
@[simp] theorem exec_mark (a : _) (n : _) (s : State) : exec (.mark a n) s = execMark a n s := rfl
@[simp] theorem exec_lcopyLanding (k : _) (s : State) : exec (.lcopyLanding k) s = execLcopyLanding k s := rfl
@[simp] theorem exec_unitStep (sid : _) (s : State) : exec (.unitStep sid) s = execUnitStep sid s := rfl
@[simp] theorem exec_planeFillWrite (sid : _) (s : State) : exec (.planeFillWrite sid) s = execPlaneFillWrite sid s := rfl
@[simp] theorem exec_loopStep (n : _) (lane : _) (s : State) : exec (.loopStep n lane) s = execLoopStep n lane s := rfl
@[simp] theorem exec_loopCompletion (n : _) (s : State) : exec (.loopCompletion n) s = execLoopCompletion n s := rfl
@[simp] theorem exec_semwaitRetry (sid : _) (s : State) : exec (.semwaitRetry sid) s = execSemwaitRetry sid s := rfl
@[simp] theorem exec_watchWake (sid : _) (s : State) : exec (.watchWake sid) s = execWatchWake sid s := rfl
@[simp] theorem exec_lineRequest (k : _) (s : State) : exec (.lineRequest k) s = execLineRequest k s := rfl
@[simp] theorem exec_completionRecord (k : _) (s : State) : exec (.completionRecord k) s = execCompletionRecord k s := rfl
@[simp] theorem exec_chunk (stream : _) (sub : _) (s : State) : exec (.chunk stream sub) s = execChunk stream sub s := rfl
@[simp] theorem exec_cellRingSlotLanding (stream : _) (sub : _) (s : State) : exec (.cellRingSlotLanding stream sub) s = execCellRingSlotLanding stream sub s := rfl
@[simp] theorem exec_contribution (m : _) (s : State) : exec (.contribution m) s = execContribution m s := rfl
@[simp] theorem exec_contributionTimeout (k : _) (s : State) : exec (.contributionTimeout k) s = execContributionTimeout k s := rfl
@[simp] theorem exec_resolution (sid : _) (tag : _) (s : State) : exec (.resolution sid tag) s = execResolution sid tag s := rfl
@[simp] theorem exec_wetAccessFault (sid : _) (tag : _) (cause : _) (s : State) : exec (.wetAccessFault sid tag cause) s = execWetAccessFault sid tag cause s := rfl
@[simp] theorem exec_deliverableEventEntry (s : State) : exec (.deliverableEventEntry) s = execDeliverableEventEntry s := rfl
@[simp] theorem exec_urgent (sid : _) (s : State) : exec (.urgent sid) s = execUrgent sid s := rfl
@[simp] theorem exec_teamPlacement (die : _) (s : State) : exec (.teamPlacement die) s = execTeamPlacement die s := rfl
@[simp] theorem exec_drainToFit (die : _) (s : State) : exec (.drainToFit die) s = execDrainToFit die s := rfl
@[simp] theorem exec_batchDispatch (s : State) : exec (.batchDispatch) s = execBatchDispatch s := rfl
@[simp] theorem exec_launch (q : _) (s : State) : exec (.launch q) s = execLaunch q s := rfl
@[simp] theorem exec_copy (q : _) (s : State) : exec (.copy q) s = execCopy q s := rfl
@[simp] theorem exec_wait (q : _) (s : State) : exec (.wait q) s = execWait q s := rfl
@[simp] theorem exec_signal (q : _) (s : State) : exec (.signal q) s = execSignal q s := rfl
@[simp] theorem exec_marker (q : _) (s : State) : exec (.marker q) s = execMarker q s := rfl
@[simp] theorem exec_traceOpen (q : _) (s : State) : exec (.traceOpen q) s = execTraceOpen q s := rfl
@[simp] theorem exec_traceClose (q : _) (s : State) : exec (.traceClose q) s = execTraceClose q s := rfl
@[simp] theorem exec_traceFlush (q : _) (s : State) : exec (.traceFlush q) s = execTraceFlush q s := rfl
@[simp] theorem exec_launchCompletion (n : _) (s : State) : exec (.launchCompletion n) s = execLaunchCompletion n s := rfl
@[simp] theorem exec_tail (q : _) (v : _) (s : State) : exec (.tail q v) s = execTail q v s := rfl
@[simp] theorem exec_ctrlRestart (q : _) (s : State) : exec (.ctrlRestart q) s = execCtrlRestart q s := rfl
@[simp] theorem exec_ctrlReset (q : _) (s : State) : exec (.ctrlReset q) s = execCtrlReset q s := rfl
@[simp] theorem exec_translationWalk (asid : _) (w : _) (s : State) : exec (.translationWalk asid w) s = execTranslationWalk asid w s := rfl
@[simp] theorem exec_ccntAdvance (asid : _) (v : _) (s : State) : exec (.ccntAdvance asid v) s = execCcntAdvance asid v s := rfl
@[simp] theorem exec_asidInvalidate (asid : _) (lo : _) (hi : _) (s : State) : exec (.asidInvalidate asid lo hi) s = execAsidInvalidate asid lo hi s := rfl
@[simp] theorem exec_preemption (team : _) (s : State) : exec (.preemption team) s = execPreemption team s := rfl
@[simp] theorem exec_contextRestore (r : _) (s : State) : exec (.contextRestore r) s = execContextRestore r s := rfl
@[simp] theorem exec_watchdog (asid : _) (s : State) : exec (.watchdog asid) s = execWatchdog asid s := rfl
@[simp] theorem exec_rollback (team : _) (s : State) : exec (.rollback team) s = execRollback team s := rfl
@[simp] theorem exec_refreshDoubled (die : _) (r : _) (s : State) : exec (.refreshDoubled die r) s = execRefreshDoubled die r s := rfl
@[simp] theorem exec_refreshNormal (die : _) (r : _) (s : State) : exec (.refreshNormal die r) s = execRefreshNormal die r s := rfl
@[simp] theorem exec_layerTripped (die : _) (r : _) (s : State) : exec (.layerTripped die r) s = execLayerTripped die r s := rfl
@[simp] theorem exec_layerServesAgain (die : _) (r : _) (s : State) : exec (.layerServesAgain die r) s = execLayerServesAgain die r s := rfl
@[simp] theorem exec_ductusDecision (s : State) : exec (.ductusDecision) s = execDuctusDecision s := rfl
@[simp] theorem exec_clockRaise (isl : _) (s : State) : exec (.clockRaise isl) s = execClockRaise isl s := rfl
@[simp] theorem exec_retentionEntry (isl : _) (s : State) : exec (.retentionEntry isl) s = execRetentionEntry isl s := rfl
@[simp] theorem exec_retentionWake (isl : _) (s : State) : exec (.retentionWake isl) s = execRetentionWake isl s := rfl
@[simp] theorem exec_coolantHot (s : State) : exec (.coolantHot) s = execCoolantHot s := rfl
@[simp] theorem exec_coolantNormal (s : State) : exec (.coolantNormal) s = execCoolantNormal s := rfl
@[simp] theorem exec_boot (s : State) : exec (.boot) s = execBoot s := rfl
@[simp] theorem exec_challengeAuth (transcript : _) (s : State) : exec (.challengeAuth transcript) s = execChallengeAuth transcript s := rfl
@[simp] theorem exec_measurements (transcript : _) (s : State) : exec (.measurements transcript) s = execMeasurements transcript s := rfl
@[simp] theorem exec_status (s : State) : exec (.status) s = execStatus s := rfl
@[simp] theorem exec_flashwrite (slot : _) (data : _) (s : State) : exec (.flashwrite slot data) s = execFlashwrite slot data s := rfl
@[simp] theorem exec_qcreate (q : _) (asid : _) (prio : _) (ring : _) (n : _) (cring : _) (m : _) (s : State) : exec (.qcreate q asid prio ring n cring m) s = execQcreate q asid prio ring n cring m s := rfl
@[simp] theorem exec_notify (base : _) (n : _) (s : State) : exec (.notify base n) s = execNotify base n s := rfl
@[simp] theorem exec_halt (whole : _) (id : _) (s : State) : exec (.halt whole id) s = execHalt whole id s := rfl
@[simp] theorem exec_read (sid : _) (r : _) (s : State) : exec (.read sid r) s = execRead sid r s := rfl
@[simp] theorem exec_write (sid : _) (r : _) (v : _) (s : State) : exec (.write sid r v) s = execWrite sid r v s := rfl
@[simp] theorem exec_step (sid : _) (s : State) : exec (.step sid) s = execStep sid s := rfl
@[simp] theorem exec_resume (sid : _) (s : State) : exec (.resume sid) s = execResume sid s := rfl
@[simp] theorem exec_contextRecordWrite (r : _) (s : State) : exec (.contextRecordWrite r) s = execContextRecordWrite r s := rfl
@[simp] theorem exec_quotaWrite (core : _) (asid : _) (v : _) (s : State) : exec (.quotaWrite core asid v) s = execQuotaWrite core asid v s := rfl
@[simp] theorem exec_windowBind (asid : _) (lo : _) (hi : _) (s : State) : exec (.windowBind asid lo hi) s = execWindowBind asid lo hi s := rfl
@[simp] theorem exec_logRead (r : _) (s : State) : exec (.logRead r) s = execLogRead r s := rfl
@[simp] theorem exec_ageingRead (cluster : _) (s : State) : exec (.ageingRead cluster) s = execAgeingRead cluster s := rfl
@[simp] theorem exec_hostWindowAccess (n : _) (addr : _) (width : _) (a : _) (s : State) : exec (.hostWindowAccess n addr width a) s = execHostWindowAccess n addr width a s := rfl
@[simp] theorem exec_folioDrain (cluster : _) (s : State) : exec (.folioDrain cluster) s = execFolioDrain cluster s := rfl
@[simp] theorem exec_powerGate (cluster : _) (forced : _) (s : State) : exec (.powerGate cluster forced) s = execPowerGate cluster forced s := rfl
@[simp] theorem exec_flitRetry (e : _) (s : State) : exec (.flitRetry e) s = execFlitRetry e s := rfl
@[simp] theorem exec_portDown (port : _) (s : State) : exec (.portDown port) s = execPortDown port s := rfl
@[simp] theorem exec_peerUnreachable (pkg : _) (sid : _) (s : State) : exec (.peerUnreachable pkg sid) s = execPeerUnreachable pkg sid s := rfl
@[simp] theorem exec_peerRequest (src : _) (r : _) (s : State) : exec (.peerRequest src r) s = execPeerRequest src r s := rfl
@[simp] theorem exec_islandCycle (isl : _) (s : State) : exec (.islandCycle isl) s = execIslandCycle isl s := rfl
@[simp] theorem exec_illegalWord (w : _) (s : State) : exec (.illegalWord w) s = execIllegalWord w s := rfl
@[simp] theorem exec_clauseHeaderFetch (w : _) (s : State) : exec (.clauseHeaderFetch w) s = execClauseHeaderFetch w s := rfl
@[simp] theorem exec_storageError (e : _) (s : State) : exec (.storageError e) s = execStorageError e s := rfl
@[simp] theorem exec_holeAdded (x : _) (y : _) (s : State) : exec (.holeAdded x y) s = execHoleAdded x y s := rfl
@[simp] theorem exec_portUp (port : _) (pkg : _) (s : State) : exec (.portUp port pkg) s = execPortUp port pkg s := rfl

end Sys2Proof.Machine
end

