-- ==== Sys2Proof/Laws/Tables.lean ====
section
/-! SUPPORT. Tables: what reading after a write gives, and that writes keep the canonical form. -/

namespace Sys2Proof.Machine

open Sys2Proof

variable {α : Type}

/-! ## Reading after a write -/

theorem look_del_self (d : α) (t : Tbl α) (i : Nat) : look d (del t i) i = d := by
  induction t with
  | nil => rfl
  | cons p t ih =>
    obtain ⟨k, v⟩ := p
    by_cases h : k = i <;> simp [del, look, h, ih]

theorem look_del_ne (d : α) (t : Tbl α) {i j : Nat} (h : j ≠ i) : look d (del t i) j = look d t j := by
  induction t with
  | nil => rfl
  | cons p t ih =>
    obtain ⟨k, v⟩ := p
    by_cases hk : k = i
    · have : k ≠ j := fun e => h (e ▸ hk)
      simp [del, look, hk, ih, h.symm]
    · simp [del, look, hk, ih]

theorem find_del_self (t : Tbl α) (i : Nat) : find (del t i) i = none := by
  induction t with
  | nil => rfl
  | cons p t ih =>
    obtain ⟨k, v⟩ := p
    by_cases h : k = i <;> simp [del, find, h, ih]

theorem find_del_ne (t : Tbl α) {i j : Nat} (h : j ≠ i) : find (del t i) j = find t j := by
  induction t with
  | nil => rfl
  | cons p t ih =>
    obtain ⟨k, v⟩ := p
    by_cases hk : k = i
    · simp [del, find, hk, ih, h.symm]
    · simp [del, find, hk, ih]

theorem look_ins_ne (d : α) (t : Tbl α) {i j : Nat} (v : α) (h : j ≠ i) : look d (ins t i v) j = look d t j := by
  induction t with
  | nil => simp [ins, look, h.symm]
  | cons p t ih =>
    obtain ⟨k, w⟩ := p
    by_cases hk : i < k
    · simp [ins, look, hk, h.symm]
    · simp [ins, look, hk, ih]

theorem look_ins_self (d : α) (t : Tbl α) (i : Nat) (v : α) : look d (ins (del t i) i v) i = v := by
  induction t with
  | nil => simp [del, ins, look]
  | cons p t ih =>
    obtain ⟨k, w⟩ := p
    by_cases hk : k = i
    · simp [del, hk, ih]
    · by_cases hlt : i < k <;> simp [del, hk, ins, look, hlt, ih]

theorem find_ins_ne (t : Tbl α) {i j : Nat} (v : α) (h : j ≠ i) : find (ins t i v) j = find t j := by
  induction t with
  | nil => simp [ins, find, h.symm]
  | cons p t ih =>
    obtain ⟨k, w⟩ := p
    by_cases hk : i < k
    · simp [ins, find, hk, h.symm]
    · simp [ins, find, hk, ih]

theorem find_ins_self (t : Tbl α) (i : Nat) (v : α) : find (ins (del t i) i v) i = some v := by
  induction t with
  | nil => simp [del, ins, find]
  | cons p t ih =>
    obtain ⟨k, w⟩ := p
    by_cases hk : k = i
    · simp [del, hk, ih]
    · by_cases hlt : i < k <;> simp [del, hk, ins, find, hlt, ih]

/-- A value written reads back. -/
@[simp] theorem look_put_self [DecidableEq α] (d : α) (t : Tbl α) (i : Nat) (v : α) : look d (put d t i v) i = v := by
  unfold put
  split
  · rename_i h; rw [look_del_self, h]
  · exact look_ins_self d t i v

/-- A write leaves every other key alone. -/
theorem look_put_ne [DecidableEq α] (d : α) (t : Tbl α) {i j : Nat} (v : α) (h : j ≠ i) : look d (put d t i v) j = look d t j := by
  unfold put
  split
  · exact look_del_ne d t h
  · rw [look_ins_ne d _ v h, look_del_ne d t h]

theorem look_put [DecidableEq α] (d : α) (t : Tbl α) (i j : Nat) (v : α) : look d (put d t i v) j = if j = i then v else look d t j := by
  split
  · rename_i h; rw [h, look_put_self]
  · rename_i h; exact look_put_ne d t v h

@[simp] theorem find_set_self (t : Tbl α) (i : Nat) (v : α) : find (set t i v) i = some v := find_ins_self t i v

theorem find_set_ne (t : Tbl α) {i j : Nat} (v : α) (h : j ≠ i) : find (set t i v) j = find t j := by
  unfold set
  rw [find_ins_ne _ v h, find_del_ne t h]

@[simp] theorem look_set_self (d : α) (t : Tbl α) (i : Nat) (v : α) : look d (set t i v) i = v := look_ins_self d t i v

theorem look_set_ne (d : α) (t : Tbl α) {i j : Nat} (v : α) (h : j ≠ i) : look d (set t i v) j = look d t j := by
  unfold set
  rw [look_ins_ne d _ v h, look_del_ne d t h]

/-! ## The canonical form -/

/-- Keys strictly rising, all above a bound. -/
theorem rising_cons {k : Nat} {v : α} {t : Tbl α} : rising ((k, v) :: t) = true ↔ (∀ p ∈ t, k < p.1) ∧ rising t = true := by
  induction t generalizing k v with
  | nil => simp [rising]
  | cons p t ih =>
    obtain ⟨k', v'⟩ := p
    simp only [rising, Bool.and_eq_true, decide_eq_true_eq]
    constructor
    · rintro ⟨h, hr⟩
      refine ⟨?_, hr⟩
      intro q hq
      rcases List.mem_cons.1 hq with rfl | hq
      · exact h
      · exact Nat.lt_trans h ((ih.1 hr).1 q hq)
    · rintro ⟨h, hr⟩
      exact ⟨h (k', v') (by simp), hr⟩

theorem mem_del {t : Tbl α} {i : Nat} {p : Nat × α} : p ∈ del t i ↔ p ∈ t ∧ p.1 ≠ i := by
  induction t with
  | nil => simp [del]
  | cons q t ih =>
    obtain ⟨k, v⟩ := q
    by_cases h : k = i
    · subst h
      simp only [del, if_pos, ih, List.mem_cons]
      constructor
      · rintro ⟨h1, h2⟩; exact ⟨.inr h1, h2⟩
      · rintro ⟨h1 | h1, h2⟩
        · subst h1; exact absurd rfl h2
        · exact ⟨h1, h2⟩
    · simp only [del, if_neg h, List.mem_cons, ih]
      constructor
      · rintro (h1 | ⟨h1, h2⟩)
        · subst h1; exact ⟨.inl rfl, h⟩
        · exact ⟨.inr h1, h2⟩
      · rintro ⟨h1 | h1, h2⟩
        · exact .inl h1
        · exact .inr ⟨h1, h2⟩

theorem mem_ins {t : Tbl α} {i : Nat} {v : α} {p : Nat × α} : p ∈ ins t i v ↔ p = (i, v) ∨ p ∈ t := by
  induction t with
  | nil => simp [ins]
  | cons q t ih =>
    obtain ⟨k, w⟩ := q
    by_cases h : i < k
    · simp [ins, h]
    · simp only [ins, if_neg h, List.mem_cons, ih]
      constructor
      · rintro (h | h | h)
        · exact .inr (.inl h)
        · exact .inl h
        · exact .inr (.inr h)
      · rintro (h | h | h)
        · exact .inr (.inl h)
        · exact .inl h
        · exact .inr (.inr h)

theorem rising_del {t : Tbl α} {i : Nat} (h : rising t = true) : rising (del t i) = true := by
  induction t with
  | nil => rfl
  | cons q t ih =>
    obtain ⟨k, v⟩ := q
    have h' := rising_cons.1 h
    by_cases hk : k = i
    · simp [del, hk, ih h'.2]
    · simp only [del, if_neg hk]
      exact rising_cons.2 ⟨fun p hp => h'.1 p (mem_del.1 hp).1, ih h'.2⟩

theorem rising_ins {t : Tbl α} {i : Nat} {v : α} (h : rising t = true) (hi : ∀ p ∈ t, p.1 ≠ i) : rising (ins t i v) = true := by
  induction t with
  | nil => rfl
  | cons q t ih =>
    obtain ⟨k, w⟩ := q
    have h' := rising_cons.1 h
    by_cases hk : i < k
    · simp only [ins, if_pos hk]
      refine rising_cons.2 ⟨?_, h⟩
      intro p hp
      rcases List.mem_cons.1 hp with rfl | hp
      · exact hk
      · exact Nat.lt_trans hk (h'.1 p hp)
    · simp only [ins, if_neg hk]
      have hne : k ≠ i := hi (k, w) (by simp)
      refine rising_cons.2 ⟨?_, ih h'.2 fun p hp => hi p (by simp [hp])⟩
      intro p hp
      rcases mem_ins.1 hp with rfl | hp
      · exact Nat.lt_of_le_of_ne (Nat.le_of_not_lt hk) hne
      · exact h'.1 p hp

theorem canonical_iff [DecidableEq α] {d : α} {t : Tbl α} : canonical d t = true ↔ rising t = true ∧ ∀ p ∈ t, p.2 ≠ d := by
  simp [canonical, List.all_eq_true]

/-- Every write keeps the canonical form. -/
theorem canonical_put [DecidableEq α] {d : α} {t : Tbl α} (i : Nat) (v : α) (h : canonical d t = true) : canonical d (put d t i v) = true := by
  have h' := canonical_iff.1 h
  unfold put
  split
  · exact canonical_iff.2 ⟨rising_del h'.1, fun p hp => h'.2 p (mem_del.1 hp).1⟩
  · rename_i hv
    refine canonical_iff.2 ⟨rising_ins (rising_del h'.1) fun p hp => (mem_del.1 hp).2, ?_⟩
    intro p hp
    rcases mem_ins.1 hp with rfl | hp
    · exact hv
    · exact h'.2 p (mem_del.1 hp).1

end Sys2Proof.Machine
end

