-- ==== Sys2Proof/Laws/Memory.lean ====
section
/-! SUPPORT. Memories: what bytes and bits read after a write, and that every memory operation keeps the canonical form. -/

namespace Sys2Proof.Machine

open Sys2Proof

/-! ## The canonical form -/

theorem wf_nil : Memory.wf [] = true := rfl

theorem wf_writeByte {m : List Host.Cell} (a : Nat) (b : Byte) (h : Memory.wf m = true) : Memory.wf (writeByte m a b) = true :=
  canonical_put a b h

theorem wf_writeBytes (v : Nat) : ∀ (n : Nat) (m : List Host.Cell) (a : Nat), Memory.wf m = true → Memory.wf (writeBytes m a v n) = true
  | 0, _, _, h => h
  | n + 1, m, a, h => by
    unfold writeBytes
    exact wf_writeBytes (v / 256) n _ _ (wf_writeByte a _ h)

theorem wf_writeBits {m : List Host.Cell} (a w v : Nat) (h : Memory.wf m = true) : Memory.wf (writeBits m a w v) = true :=
  wf_writeBytes _ _ _ _ h

/-! ## Bytes -/

theorem readByte_writeByte (m : List Host.Cell) (a c : Nat) (b : Byte) :
    readByte (writeByte m a b) c = if c = a then b else readByte m c :=
  look_put unwritten m a c b

/-- A byte outside those written reads as before. -/
theorem readByte_writeBytes_out {c : Nat} : ∀ (n v : Nat) (m : List Host.Cell) (a : Nat),
    c < a ∨ a + n ≤ c → readByte (writeBytes m a v n) c = readByte m c
  | 0, _, _, _, _ => rfl
  | n + 1, v, m, a, h => by
    unfold writeBytes
    rw [readByte_writeBytes_out n (v / 256) _ (a + 1) (by omega), readByte_writeByte, if_neg (by omega)]

/-- Byte i of those written is byte i of the value. -/
theorem readByte_writeBytes_in : ∀ (n v : Nat) (m : List Host.Cell) (a i : Nat), i < n →
    readByte (writeBytes m a v n) (a + i) = BitVec.ofNat 8 (v / 256 ^ i)
  | n + 1, v, m, a, 0, _ => by
    unfold writeBytes
    rw [readByte_writeBytes_out n (v / 256) _ (a + 1) (by omega), readByte_writeByte, if_pos (by omega)]
    simp
  | n + 1, v, m, a, i + 1, h => by
    unfold writeBytes
    have e : a + (i + 1) = a + 1 + i := by omega
    rw [e, readByte_writeBytes_in n (v / 256) _ (a + 1) i (by omega), Nat.div_div_eq_div_mul, Nat.pow_succ']

theorem readBytes_lt (m : List Host.Cell) : ∀ (n a : Nat), readBytes m a n < 256 ^ n
  | 0, _ => by simp [readBytes]
  | n + 1, a => by
    have h1 := (readByte m a).isLt
    have h2 := readBytes_lt m n (a + 1)
    unfold readBytes
    rw [Nat.pow_succ']
    omega

/-- What is written reads back. -/
theorem readBytes_writeBytes : ∀ (n v : Nat) (m : List Host.Cell) (a : Nat), readBytes (writeBytes m a v n) a n = v % 256 ^ n
  | 0, v, _, _ => by simp [readBytes, Nat.mod_one]
  | n + 1, v, m, a => by
    unfold writeBytes readBytes
    rw [readBytes_writeBytes n (v / 256) _ (a + 1), readByte_writeBytes_out n (v / 256) _ (a + 1) (by omega), readByte_writeByte, if_pos rfl,
      Nat.pow_succ']
    simp only [BitVec.toNat_ofNat]
    rw [Nat.mod_mul]

/-- Bytes that a write does not touch read as before. -/
theorem readBytes_writeBytes_out {v n : Nat} {m : List Host.Cell} {a : Nat} : ∀ (k c : Nat), c + k ≤ a ∨ a + n ≤ c →
    readBytes (writeBytes m a v n) c k = readBytes m c k
  | 0, _, _ => rfl
  | k + 1, c, h => by
    unfold readBytes
    rw [readByte_writeBytes_out n v m a (by omega), readBytes_writeBytes_out k (c + 1) (by omega)]

/-! ## Bits -/

/-- A byte outside those that hold the bits written reads as before. -/
theorem readByte_writeBits_out (m : List Host.Cell) (a w v c : Nat) (h : c < a / 8 ∨ a / 8 + coverBytes a w ≤ c) :
    readByte (writeBits m a w v) c = readByte m c :=
  readByte_writeBytes_out _ _ _ _ h

theorem cover_le (a w : Nat) : a % 8 + w ≤ 8 * coverBytes a w := by unfold coverBytes; omega

/-- The bits written read back, modulo the width. -/
theorem readBits_writeBits (m : List Host.Cell) (a w v : Nat) : readBits (writeBits m a w v) a w = v % 2 ^ w := by
  have hc := cover_le a w
  simp only [readBits, writeBits, readBytes_writeBytes]
  generalize hn : coverBytes a w = n at *
  have hold := readBytes_lt m n (a / 8)
  generalize readBytes m (a / 8) n = old at *
  have e256 : (256 : Nat) ^ n = 2 ^ (8 * n) := by rw [show (256 : Nat) = 2 ^ 8 from rfl, ← Nat.pow_mul]
  have hlo : old % 2 ^ (a % 8) < 2 ^ (a % 8) := Nat.mod_lt _ (Nat.two_pow_pos _)
  have hv : v % 2 ^ w < 2 ^ w := Nat.mod_lt _ (Nat.two_pow_pos _)
  generalize old % 2 ^ (a % 8) = lo at *
  generalize v % 2 ^ w = x at *
  generalize a % 8 = k at *
  have hsplit : 2 ^ (8 * n) = 2 ^ (k + w) * 2 ^ (8 * n - (k + w)) := by rw [← Nat.pow_add]; congr 1; omega
  have hhi : old / 2 ^ (k + w) < 2 ^ (8 * n - (k + w)) := by
    rw [Nat.div_lt_iff_lt_mul (Nat.two_pow_pos _), Nat.mul_comm, ← hsplit, ← e256]; exact hold
  generalize old / 2 ^ (k + w) = hi at *
  have hkw : 2 ^ (k + w) = 2 ^ k * 2 ^ w := Nat.pow_add ..
  have hx : 2 ^ k * x + lo < 2 ^ (k + w) := by
    rw [hkw]
    calc 2 ^ k * x + lo < 2 ^ k * x + 2 ^ k := by omega
      _ = 2 ^ k * (x + 1) := by rw [Nat.mul_add, Nat.mul_one]
      _ ≤ 2 ^ k * 2 ^ w := Nat.mul_le_mul_left _ hv
  rw [e256]
  have htot : lo + 2 ^ k * x + 2 ^ (k + w) * hi < 2 ^ (8 * n) := by
    rw [hsplit]
    calc lo + 2 ^ k * x + 2 ^ (k + w) * hi < 2 ^ (k + w) + 2 ^ (k + w) * hi := by omega
      _ = 2 ^ (k + w) * (hi + 1) := by rw [Nat.mul_add, Nat.mul_one, Nat.add_comm]
      _ ≤ _ := Nat.mul_le_mul_left _ hhi
  rw [Nat.mod_eq_of_lt htot, hkw]
  have e : lo + 2 ^ k * x + 2 ^ k * 2 ^ w * hi = lo + 2 ^ k * (x + 2 ^ w * hi) := by
    rw [Nat.mul_add, Nat.mul_assoc, Nat.add_assoc]
  rw [e, Nat.add_mul_div_left _ _ (Nat.two_pow_pos _), Nat.div_eq_of_lt hlo, Nat.zero_add, Nat.add_mul_mod_self_left, Nat.mod_eq_of_lt hv]

end Sys2Proof.Machine
end

