-- ==== Sys2Proof/Laws/PerInstr.lean ====
section
/-! SUPPORT. The family EncodeFits of statements for each instruction: the number that the encoder lays
out fits a word of 32 bits, so that `encode` loses no bit of it. -/

namespace Sys2Proof

set_option Elab.async false

/-- The encoding of the instruction, taken as a number, is below 2^32 (Table 04-3: a word has 32 bits). -/
def Laws.EncodeFits.Statement (i : Instr) : Prop := encodeNat i < 2 ^ 32

theorem Laws.EncodeFits.add (d : BitVec 5) (a : BitVec 5) (b : BitVec 5) : Laws.EncodeFits.Statement (.add d a b) := by
  have := d.isLt; have := a.isLt; have := b.isLt; show 0x04000000 + d.toNat * 0x200000 + a.toNat * 0x10000 + b.toNat * 0x800 < 2 ^ 32; omega
theorem Laws.EncodeFits.sub (d : BitVec 5) (a : BitVec 5) (b : BitVec 5) : Laws.EncodeFits.Statement (.sub d a b) := by
  have := d.isLt; have := a.isLt; have := b.isLt; show 0x04000001 + d.toNat * 0x200000 + a.toNat * 0x10000 + b.toNat * 0x800 < 2 ^ 32; omega
theorem Laws.EncodeFits.and (d : BitVec 5) (a : BitVec 5) (b : BitVec 5) : Laws.EncodeFits.Statement (.and d a b) := by
  have := d.isLt; have := a.isLt; have := b.isLt; show 0x04000002 + d.toNat * 0x200000 + a.toNat * 0x10000 + b.toNat * 0x800 < 2 ^ 32; omega
theorem Laws.EncodeFits.or (d : BitVec 5) (a : BitVec 5) (b : BitVec 5) : Laws.EncodeFits.Statement (.or d a b) := by
  have := d.isLt; have := a.isLt; have := b.isLt; show 0x04000003 + d.toNat * 0x200000 + a.toNat * 0x10000 + b.toNat * 0x800 < 2 ^ 32; omega
theorem Laws.EncodeFits.xor (d : BitVec 5) (a : BitVec 5) (b : BitVec 5) : Laws.EncodeFits.Statement (.xor d a b) := by
  have := d.isLt; have := a.isLt; have := b.isLt; show 0x04000004 + d.toNat * 0x200000 + a.toNat * 0x10000 + b.toNat * 0x800 < 2 ^ 32; omega
theorem Laws.EncodeFits.andn (d : BitVec 5) (a : BitVec 5) (b : BitVec 5) : Laws.EncodeFits.Statement (.andn d a b) := by
  have := d.isLt; have := a.isLt; have := b.isLt; show 0x04000005 + d.toNat * 0x200000 + a.toNat * 0x10000 + b.toNat * 0x800 < 2 ^ 32; omega
theorem Laws.EncodeFits.shl (d : BitVec 5) (a : BitVec 5) (b : BitVec 5) : Laws.EncodeFits.Statement (.shl d a b) := by
  have := d.isLt; have := a.isLt; have := b.isLt; show 0x04000006 + d.toNat * 0x200000 + a.toNat * 0x10000 + b.toNat * 0x800 < 2 ^ 32; omega
theorem Laws.EncodeFits.shr (d : BitVec 5) (a : BitVec 5) (b : BitVec 5) : Laws.EncodeFits.Statement (.shr d a b) := by
  have := d.isLt; have := a.isLt; have := b.isLt; show 0x04000007 + d.toNat * 0x200000 + a.toNat * 0x10000 + b.toNat * 0x800 < 2 ^ 32; omega
theorem Laws.EncodeFits.sar (d : BitVec 5) (a : BitVec 5) (b : BitVec 5) : Laws.EncodeFits.Statement (.sar d a b) := by
  have := d.isLt; have := a.isLt; have := b.isLt; show 0x04000008 + d.toNat * 0x200000 + a.toNat * 0x10000 + b.toNat * 0x800 < 2 ^ 32; omega
theorem Laws.EncodeFits.minI (d : BitVec 5) (a : BitVec 5) (b : BitVec 5) : Laws.EncodeFits.Statement (.minI d a b) := by
  have := d.isLt; have := a.isLt; have := b.isLt; show 0x04000009 + d.toNat * 0x200000 + a.toNat * 0x10000 + b.toNat * 0x800 < 2 ^ 32; omega
theorem Laws.EncodeFits.maxI (d : BitVec 5) (a : BitVec 5) (b : BitVec 5) : Laws.EncodeFits.Statement (.maxI d a b) := by
  have := d.isLt; have := a.isLt; have := b.isLt; show 0x0400000A + d.toNat * 0x200000 + a.toNat * 0x10000 + b.toNat * 0x800 < 2 ^ 32; omega
theorem Laws.EncodeFits.minB (d : BitVec 5) (a : BitVec 5) (b : BitVec 5) : Laws.EncodeFits.Statement (.minB d a b) := by
  have := d.isLt; have := a.isLt; have := b.isLt; show 0x0400000B + d.toNat * 0x200000 + a.toNat * 0x10000 + b.toNat * 0x800 < 2 ^ 32; omega
theorem Laws.EncodeFits.maxB (d : BitVec 5) (a : BitVec 5) (b : BitVec 5) : Laws.EncodeFits.Statement (.maxB d a b) := by
  have := d.isLt; have := a.isLt; have := b.isLt; show 0x0400000C + d.toNat * 0x200000 + a.toNat * 0x10000 + b.toNat * 0x800 < 2 ^ 32; omega
theorem Laws.EncodeFits.slt (d : BitVec 5) (a : BitVec 5) (b : BitVec 5) : Laws.EncodeFits.Statement (.slt d a b) := by
  have := d.isLt; have := a.isLt; have := b.isLt; show 0x0400000D + d.toNat * 0x200000 + a.toNat * 0x10000 + b.toNat * 0x800 < 2 ^ 32; omega
theorem Laws.EncodeFits.sltb (d : BitVec 5) (a : BitVec 5) (b : BitVec 5) : Laws.EncodeFits.Statement (.sltb d a b) := by
  have := d.isLt; have := a.isLt; have := b.isLt; show 0x0400000E + d.toNat * 0x200000 + a.toNat * 0x10000 + b.toNat * 0x800 < 2 ^ 32; omega
theorem Laws.EncodeFits.seq (d : BitVec 5) (a : BitVec 5) (b : BitVec 5) : Laws.EncodeFits.Statement (.seq d a b) := by
  have := d.isLt; have := a.isLt; have := b.isLt; show 0x0400000F + d.toNat * 0x200000 + a.toNat * 0x10000 + b.toNat * 0x800 < 2 ^ 32; omega
theorem Laws.EncodeFits.sne (d : BitVec 5) (a : BitVec 5) (b : BitVec 5) : Laws.EncodeFits.Statement (.sne d a b) := by
  have := d.isLt; have := a.isLt; have := b.isLt; show 0x04000010 + d.toNat * 0x200000 + a.toNat * 0x10000 + b.toNat * 0x800 < 2 ^ 32; omega
theorem Laws.EncodeFits.sel (d : BitVec 5) (a : BitVec 5) (b : BitVec 5) : Laws.EncodeFits.Statement (.sel d a b) := by
  have := d.isLt; have := a.isLt; have := b.isLt; show 0x04000011 + d.toNat * 0x200000 + a.toNat * 0x10000 + b.toNat * 0x800 < 2 ^ 32; omega
theorem Laws.EncodeFits.clz (d : BitVec 5) (a : BitVec 5) : Laws.EncodeFits.Statement (.clz d a) := by
  have := d.isLt; have := a.isLt; show 0x04000012 + d.toNat * 0x200000 + a.toNat * 0x10000 < 2 ^ 32; omega
theorem Laws.EncodeFits.ctz (d : BitVec 5) (a : BitVec 5) : Laws.EncodeFits.Statement (.ctz d a) := by
  have := d.isLt; have := a.isLt; show 0x04000013 + d.toNat * 0x200000 + a.toNat * 0x10000 < 2 ^ 32; omega
theorem Laws.EncodeFits.popc (d : BitVec 5) (a : BitVec 5) : Laws.EncodeFits.Statement (.popc d a) := by
  have := d.isLt; have := a.isLt; show 0x04000014 + d.toNat * 0x200000 + a.toNat * 0x10000 < 2 ^ 32; omega
theorem Laws.EncodeFits.addi (d : BitVec 5) (a : BitVec 5) (i : BitVec 14) : Laws.EncodeFits.Statement (.addi d a i) := by
  have := d.isLt; have := a.isLt; have := i.isLt; show 0x08000000 + d.toNat * 0x200000 + a.toNat * 0x10000 + i.toNat * 0x1 < 2 ^ 32; omega
theorem Laws.EncodeFits.slti (d : BitVec 5) (a : BitVec 5) (i : BitVec 14) : Laws.EncodeFits.Statement (.slti d a i) := by
  have := d.isLt; have := a.isLt; have := i.isLt; show 0x08004000 + d.toNat * 0x200000 + a.toNat * 0x10000 + i.toNat * 0x1 < 2 ^ 32; omega
theorem Laws.EncodeFits.li (d : BitVec 5) (i : BitVec 14) : Laws.EncodeFits.Statement (.li d i) := by
  have := d.isLt; have := i.isLt; show 0x08008000 + d.toNat * 0x200000 + i.toNat * 0x1 < 2 ^ 32; omega
theorem Laws.EncodeFits.lih (d : BitVec 5) (a : BitVec 5) (i : BitVec 14) : Laws.EncodeFits.Statement (.lih d a i) := by
  have := d.isLt; have := a.isLt; have := i.isLt; show 0x0800C000 + d.toNat * 0x200000 + a.toNat * 0x10000 + i.toNat * 0x1 < 2 ^ 32; omega
theorem Laws.EncodeFits.andi (d : BitVec 5) (a : BitVec 5) (i : BitVec 14) : Laws.EncodeFits.Statement (.andi d a i) := by
  have := d.isLt; have := a.isLt; have := i.isLt; show 0x0C000000 + d.toNat * 0x200000 + a.toNat * 0x10000 + i.toNat * 0x1 < 2 ^ 32; omega
theorem Laws.EncodeFits.ori (d : BitVec 5) (a : BitVec 5) (i : BitVec 14) : Laws.EncodeFits.Statement (.ori d a i) := by
  have := d.isLt; have := a.isLt; have := i.isLt; show 0x0C004000 + d.toNat * 0x200000 + a.toNat * 0x10000 + i.toNat * 0x1 < 2 ^ 32; omega
theorem Laws.EncodeFits.xori (d : BitVec 5) (a : BitVec 5) (i : BitVec 14) : Laws.EncodeFits.Statement (.xori d a i) := by
  have := d.isLt; have := a.isLt; have := i.isLt; show 0x0C008000 + d.toNat * 0x200000 + a.toNat * 0x10000 + i.toNat * 0x1 < 2 ^ 32; omega
theorem Laws.EncodeFits.shli (d : BitVec 5) (a : BitVec 5) (n : BitVec 6) : Laws.EncodeFits.Statement (.shli d a n) := by
  have := d.isLt; have := a.isLt; have := n.isLt; show 0x10000000 + d.toNat * 0x200000 + a.toNat * 0x10000 + n.toNat * 0x1 < 2 ^ 32; omega
theorem Laws.EncodeFits.shri (d : BitVec 5) (a : BitVec 5) (n : BitVec 6) : Laws.EncodeFits.Statement (.shri d a n) := by
  have := d.isLt; have := a.isLt; have := n.isLt; show 0x10002000 + d.toNat * 0x200000 + a.toNat * 0x10000 + n.toNat * 0x1 < 2 ^ 32; omega
theorem Laws.EncodeFits.sari (d : BitVec 5) (a : BitVec 5) (n : BitVec 6) : Laws.EncodeFits.Statement (.sari d a n) := by
  have := d.isLt; have := a.isLt; have := n.isLt; show 0x10004000 + d.toNat * 0x200000 + a.toNat * 0x10000 + n.toNat * 0x1 < 2 ^ 32; omega
theorem Laws.EncodeFits.bfx (d : BitVec 5) (a : BitVec 5) (l : BitVec 6) (p : BitVec 6) : Laws.EncodeFits.Statement (.bfx d a l p) := by
  have := d.isLt; have := a.isLt; have := l.isLt; have := p.isLt; show 0x10006000 + d.toNat * 0x200000 + a.toNat * 0x10000 + l.toNat * 0x40 + p.toNat * 0x1 < 2 ^ 32; omega
theorem Laws.EncodeFits.bfxI (d : BitVec 5) (a : BitVec 5) (l : BitVec 6) (p : BitVec 6) : Laws.EncodeFits.Statement (.bfxI d a l p) := by
  have := d.isLt; have := a.isLt; have := l.isLt; have := p.isLt; show 0x10007000 + d.toNat * 0x200000 + a.toNat * 0x10000 + l.toNat * 0x40 + p.toNat * 0x1 < 2 ^ 32; omega
theorem Laws.EncodeFits.bfi (d : BitVec 5) (a : BitVec 5) (l : BitVec 6) (p : BitVec 6) : Laws.EncodeFits.Statement (.bfi d a l p) := by
  have := d.isLt; have := a.isLt; have := l.isLt; have := p.isLt; show 0x10008000 + d.toNat * 0x200000 + a.toNat * 0x10000 + l.toNat * 0x40 + p.toNat * 0x1 < 2 ^ 32; omega
theorem Laws.EncodeFits.sext (d : BitVec 5) (a : BitVec 5) (n : BitVec 6) : Laws.EncodeFits.Statement (.sext d a n) := by
  have := d.isLt; have := a.isLt; have := n.isLt; show 0x1000A000 + d.toNat * 0x200000 + a.toNat * 0x10000 + n.toNat * 0x1 < 2 ^ 32; omega
theorem Laws.EncodeFits.zext (d : BitVec 5) (a : BitVec 5) (n : BitVec 6) : Laws.EncodeFits.Statement (.zext d a n) := by
  have := d.isLt; have := a.isLt; have := n.isLt; show 0x1000C000 + d.toNat * 0x200000 + a.toNat * 0x10000 + n.toNat * 0x1 < 2 ^ 32; omega
theorem Laws.EncodeFits.mul (d : BitVec 5) (a : BitVec 5) (b : BitVec 5) : Laws.EncodeFits.Statement (.mul d a b) := by
  have := d.isLt; have := a.isLt; have := b.isLt; show 0x14000000 + d.toNat * 0x200000 + a.toNat * 0x10000 + b.toNat * 0x800 < 2 ^ 32; omega
theorem Laws.EncodeFits.mulhI (d : BitVec 5) (a : BitVec 5) (b : BitVec 5) : Laws.EncodeFits.Statement (.mulhI d a b) := by
  have := d.isLt; have := a.isLt; have := b.isLt; show 0x14000001 + d.toNat * 0x200000 + a.toNat * 0x10000 + b.toNat * 0x800 < 2 ^ 32; omega
theorem Laws.EncodeFits.mulhB (d : BitVec 5) (a : BitVec 5) (b : BitVec 5) : Laws.EncodeFits.Statement (.mulhB d a b) := by
  have := d.isLt; have := a.isLt; have := b.isLt; show 0x14000002 + d.toNat * 0x200000 + a.toNat * 0x10000 + b.toNat * 0x800 < 2 ^ 32; omega
theorem Laws.EncodeFits.divI (d : BitVec 5) (a : BitVec 5) (b : BitVec 5) : Laws.EncodeFits.Statement (.divI d a b) := by
  have := d.isLt; have := a.isLt; have := b.isLt; show 0x14000003 + d.toNat * 0x200000 + a.toNat * 0x10000 + b.toNat * 0x800 < 2 ^ 32; omega
theorem Laws.EncodeFits.divB (d : BitVec 5) (a : BitVec 5) (b : BitVec 5) : Laws.EncodeFits.Statement (.divB d a b) := by
  have := d.isLt; have := a.isLt; have := b.isLt; show 0x14000004 + d.toNat * 0x200000 + a.toNat * 0x10000 + b.toNat * 0x800 < 2 ^ 32; omega
theorem Laws.EncodeFits.remI (d : BitVec 5) (a : BitVec 5) (b : BitVec 5) : Laws.EncodeFits.Statement (.remI d a b) := by
  have := d.isLt; have := a.isLt; have := b.isLt; show 0x14000005 + d.toNat * 0x200000 + a.toNat * 0x10000 + b.toNat * 0x800 < 2 ^ 32; omega
theorem Laws.EncodeFits.remB (d : BitVec 5) (a : BitVec 5) (b : BitVec 5) : Laws.EncodeFits.Statement (.remB d a b) := by
  have := d.isLt; have := a.isLt; have := b.isLt; show 0x14000006 + d.toNat * 0x200000 + a.toNat * 0x10000 + b.toNat * 0x800 < 2 ^ 32; omega
theorem Laws.EncodeFits.mov (d : BitVec 5) (a : BitVec 5) : Laws.EncodeFits.Statement (.mov d a) := by
  have := d.isLt; have := a.isLt; show 0x18000000 + d.toNat * 0x200000 + a.toNat * 0x10000 < 2 ^ 32; omega
theorem Laws.EncodeFits.beq (a : BitVec 5) (b : BitVec 5) (o : BitVec 12) : Laws.EncodeFits.Statement (.beq a b o) := by
  have := a.isLt; have := b.isLt; have := o.isLt; show 0x20000000 + a.toNat * 0x20000 + b.toNat * 0x1000 + o.toNat * 0x1 < 2 ^ 32; omega
theorem Laws.EncodeFits.bne (a : BitVec 5) (b : BitVec 5) (o : BitVec 12) : Laws.EncodeFits.Statement (.bne a b o) := by
  have := a.isLt; have := b.isLt; have := o.isLt; show 0x20400000 + a.toNat * 0x20000 + b.toNat * 0x1000 + o.toNat * 0x1 < 2 ^ 32; omega
theorem Laws.EncodeFits.blt (a : BitVec 5) (b : BitVec 5) (o : BitVec 12) : Laws.EncodeFits.Statement (.blt a b o) := by
  have := a.isLt; have := b.isLt; have := o.isLt; show 0x20800000 + a.toNat * 0x20000 + b.toNat * 0x1000 + o.toNat * 0x1 < 2 ^ 32; omega
theorem Laws.EncodeFits.bge (a : BitVec 5) (b : BitVec 5) (o : BitVec 12) : Laws.EncodeFits.Statement (.bge a b o) := by
  have := a.isLt; have := b.isLt; have := o.isLt; show 0x20C00000 + a.toNat * 0x20000 + b.toNat * 0x1000 + o.toNat * 0x1 < 2 ^ 32; omega
theorem Laws.EncodeFits.bltb (a : BitVec 5) (b : BitVec 5) (o : BitVec 12) : Laws.EncodeFits.Statement (.bltb a b o) := by
  have := a.isLt; have := b.isLt; have := o.isLt; show 0x21000000 + a.toNat * 0x20000 + b.toNat * 0x1000 + o.toNat * 0x1 < 2 ^ 32; omega
theorem Laws.EncodeFits.bgeb (a : BitVec 5) (b : BitVec 5) (o : BitVec 12) : Laws.EncodeFits.Statement (.bgeb a b o) := by
  have := a.isLt; have := b.isLt; have := o.isLt; show 0x21400000 + a.toNat * 0x20000 + b.toNat * 0x1000 + o.toNat * 0x1 < 2 ^ 32; omega
theorem Laws.EncodeFits.bz (a : BitVec 5) (o : BitVec 12) : Laws.EncodeFits.Statement (.bz a o) := by
  have := a.isLt; have := o.isLt; show 0x21800000 + a.toNat * 0x20000 + o.toNat * 0x1 < 2 ^ 32; omega
theorem Laws.EncodeFits.bnz (a : BitVec 5) (o : BitVec 12) : Laws.EncodeFits.Statement (.bnz a o) := by
  have := a.isLt; have := o.isLt; show 0x21C00000 + a.toNat * 0x20000 + o.toNat * 0x1 < 2 ^ 32; omega
theorem Laws.EncodeFits.jmp (o : BitVec 12) : Laws.EncodeFits.Statement (.jmp o) := by
  have := o.isLt; show 0x22000000 + o.toNat * 0x1 < 2 ^ 32; omega
theorem Laws.EncodeFits.bru (q : BitVec 3) (o : BitVec 12) : Laws.EncodeFits.Statement (.bru q o) := by
  have := q.isLt; have := o.isLt; show 0x24000000 + q.toNat * 0x20000 + o.toNat * 0x1 < 2 ^ 32; omega
theorem Laws.EncodeFits.bany (q : BitVec 3) (o : BitVec 12) : Laws.EncodeFits.Statement (.bany q o) := by
  have := q.isLt; have := o.isLt; show 0x24400000 + q.toNat * 0x20000 + o.toNat * 0x1 < 2 ^ 32; omega
theorem Laws.EncodeFits.ball (q : BitVec 3) (o : BitVec 12) : Laws.EncodeFits.Statement (.ball q o) := by
  have := q.isLt; have := o.isLt; show 0x24800000 + q.toNat * 0x20000 + o.toNat * 0x1 < 2 ^ 32; omega
theorem Laws.EncodeFits.bnone (q : BitVec 3) (o : BitVec 12) : Laws.EncodeFits.Statement (.bnone q o) := by
  have := q.isLt; have := o.isLt; show 0x24C00000 + q.toNat * 0x20000 + o.toNat * 0x1 < 2 ^ 32; omega
theorem Laws.EncodeFits.call (o : BitVec 12) : Laws.EncodeFits.Statement (.call o) := by
  have := o.isLt; show 0x28000000 + o.toNat * 0x1 < 2 ^ 32; omega
theorem Laws.EncodeFits.callr (a : BitVec 5) : Laws.EncodeFits.Statement (.callr a) := by
  have := a.isLt; show 0x28400000 + a.toNat * 0x20000 < 2 ^ 32; omega
theorem Laws.EncodeFits.jr (a : BitVec 5) : Laws.EncodeFits.Statement (.jr a) := by
  have := a.isLt; show 0x28800000 + a.toNat * 0x20000 < 2 ^ 32; omega
theorem Laws.EncodeFits.ret : Laws.EncodeFits.Statement (.ret) := by
  show 0x28C00000 < 2 ^ 32; omega
theorem Laws.EncodeFits.ldB (d : BitVec 5) (c : BitVec 4) (x : BitVec 5) (w : BitVec 4) (o : BitVec 2) (s : BitVec 3) : Laws.EncodeFits.Statement (.ldB d c x w o s) := by
  have := d.isLt; have := c.isLt; have := x.isLt; have := w.isLt; have := o.isLt; have := s.isLt; show 0x2C000000 + d.toNat * 0x200000 + c.toNat * 0x20000 + x.toNat * 0x1000 + w.toNat * 0x100 + o.toNat * 0x40 + s.toNat * 0x8 < 2 ^ 32; omega
theorem Laws.EncodeFits.ldI (d : BitVec 5) (c : BitVec 4) (x : BitVec 5) (w : BitVec 4) (o : BitVec 2) (s : BitVec 3) : Laws.EncodeFits.Statement (.ldI d c x w o s) := by
  have := d.isLt; have := c.isLt; have := x.isLt; have := w.isLt; have := o.isLt; have := s.isLt; show 0x2C000001 + d.toNat * 0x200000 + c.toNat * 0x20000 + x.toNat * 0x1000 + w.toNat * 0x100 + o.toNat * 0x40 + s.toNat * 0x8 < 2 ^ 32; omega
theorem Laws.EncodeFits.ldc (d : BitVec 4) (c : BitVec 4) (x : BitVec 5) (o : BitVec 2) (s : BitVec 3) : Laws.EncodeFits.Statement (.ldc d c x o s) := by
  have := d.isLt; have := c.isLt; have := x.isLt; have := o.isLt; have := s.isLt; show 0x2C000902 + d.toNat * 0x200000 + c.toNat * 0x20000 + x.toNat * 0x1000 + o.toNat * 0x40 + s.toNat * 0x8 < 2 ^ 32; omega
theorem Laws.EncodeFits.st (t : BitVec 5) (c : BitVec 4) (x : BitVec 5) (w : BitVec 4) (o : BitVec 2) (s : BitVec 3) : Laws.EncodeFits.Statement (.st t c x w o s) := by
  have := t.isLt; have := c.isLt; have := x.isLt; have := w.isLt; have := o.isLt; have := s.isLt; show 0x30000000 + t.toNat * 0x200000 + c.toNat * 0x20000 + x.toNat * 0x1000 + w.toNat * 0x100 + o.toNat * 0x40 + s.toNat * 0x8 < 2 ^ 32; omega
theorem Laws.EncodeFits.stc (t : BitVec 4) (c : BitVec 4) (x : BitVec 5) (o : BitVec 2) (s : BitVec 3) : Laws.EncodeFits.Statement (.stc t c x o s) := by
  have := t.isLt; have := c.isLt; have := x.isLt; have := o.isLt; have := s.isLt; show 0x30000901 + t.toNat * 0x200000 + c.toNat * 0x20000 + x.toNat * 0x1000 + o.toNat * 0x40 + s.toNat * 0x8 < 2 ^ 32; omega
theorem Laws.EncodeFits.amoAdd (d : BitVec 5) (c : BitVec 4) (x : BitVec 5) (w : BitVec 4) (o : BitVec 2) (s : BitVec 3) : Laws.EncodeFits.Statement (.amoAdd d c x w o s) := by
  have := d.isLt; have := c.isLt; have := x.isLt; have := w.isLt; have := o.isLt; have := s.isLt; show 0x34000000 + d.toNat * 0x200000 + c.toNat * 0x20000 + x.toNat * 0x1000 + w.toNat * 0x100 + o.toNat * 0x40 + s.toNat * 0x8 < 2 ^ 32; omega
theorem Laws.EncodeFits.amoMin (d : BitVec 5) (c : BitVec 4) (x : BitVec 5) (w : BitVec 4) (o : BitVec 2) (s : BitVec 3) : Laws.EncodeFits.Statement (.amoMin d c x w o s) := by
  have := d.isLt; have := c.isLt; have := x.isLt; have := w.isLt; have := o.isLt; have := s.isLt; show 0x34000001 + d.toNat * 0x200000 + c.toNat * 0x20000 + x.toNat * 0x1000 + w.toNat * 0x100 + o.toNat * 0x40 + s.toNat * 0x8 < 2 ^ 32; omega
theorem Laws.EncodeFits.amoMax (d : BitVec 5) (c : BitVec 4) (x : BitVec 5) (w : BitVec 4) (o : BitVec 2) (s : BitVec 3) : Laws.EncodeFits.Statement (.amoMax d c x w o s) := by
  have := d.isLt; have := c.isLt; have := x.isLt; have := w.isLt; have := o.isLt; have := s.isLt; show 0x34000002 + d.toNat * 0x200000 + c.toNat * 0x20000 + x.toNat * 0x1000 + w.toNat * 0x100 + o.toNat * 0x40 + s.toNat * 0x8 < 2 ^ 32; omega
theorem Laws.EncodeFits.amoAnd (d : BitVec 5) (c : BitVec 4) (x : BitVec 5) (w : BitVec 4) (o : BitVec 2) (s : BitVec 3) : Laws.EncodeFits.Statement (.amoAnd d c x w o s) := by
  have := d.isLt; have := c.isLt; have := x.isLt; have := w.isLt; have := o.isLt; have := s.isLt; show 0x34000003 + d.toNat * 0x200000 + c.toNat * 0x20000 + x.toNat * 0x1000 + w.toNat * 0x100 + o.toNat * 0x40 + s.toNat * 0x8 < 2 ^ 32; omega
theorem Laws.EncodeFits.amoOr (d : BitVec 5) (c : BitVec 4) (x : BitVec 5) (w : BitVec 4) (o : BitVec 2) (s : BitVec 3) : Laws.EncodeFits.Statement (.amoOr d c x w o s) := by
  have := d.isLt; have := c.isLt; have := x.isLt; have := w.isLt; have := o.isLt; have := s.isLt; show 0x34000004 + d.toNat * 0x200000 + c.toNat * 0x20000 + x.toNat * 0x1000 + w.toNat * 0x100 + o.toNat * 0x40 + s.toNat * 0x8 < 2 ^ 32; omega
theorem Laws.EncodeFits.amoXor (d : BitVec 5) (c : BitVec 4) (x : BitVec 5) (w : BitVec 4) (o : BitVec 2) (s : BitVec 3) : Laws.EncodeFits.Statement (.amoXor d c x w o s) := by
  have := d.isLt; have := c.isLt; have := x.isLt; have := w.isLt; have := o.isLt; have := s.isLt; show 0x34000005 + d.toNat * 0x200000 + c.toNat * 0x20000 + x.toNat * 0x1000 + w.toNat * 0x100 + o.toNat * 0x40 + s.toNat * 0x8 < 2 ^ 32; omega
theorem Laws.EncodeFits.amoSwap (d : BitVec 5) (c : BitVec 4) (x : BitVec 5) (w : BitVec 4) (o : BitVec 2) (s : BitVec 3) : Laws.EncodeFits.Statement (.amoSwap d c x w o s) := by
  have := d.isLt; have := c.isLt; have := x.isLt; have := w.isLt; have := o.isLt; have := s.isLt; show 0x34000006 + d.toNat * 0x200000 + c.toNat * 0x20000 + x.toNat * 0x1000 + w.toNat * 0x100 + o.toNat * 0x40 + s.toNat * 0x8 < 2 ^ 32; omega
theorem Laws.EncodeFits.amoCas (d : BitVec 5) (c : BitVec 4) (x : BitVec 5) (w : BitVec 4) (o : BitVec 2) (s : BitVec 3) : Laws.EncodeFits.Statement (.amoCas d c x w o s) := by
  have := d.isLt; have := c.isLt; have := x.isLt; have := w.isLt; have := o.isLt; have := s.isLt; show 0x34000007 + d.toNat * 0x200000 + c.toNat * 0x20000 + x.toNat * 0x1000 + w.toNat * 0x100 + o.toNat * 0x40 + s.toNat * 0x8 < 2 ^ 32; omega
theorem Laws.EncodeFits.amoBfadd (d : BitVec 5) (c : BitVec 4) (x : BitVec 5) (w : BitVec 4) (o : BitVec 2) (s : BitVec 3) : Laws.EncodeFits.Statement (.amoBfadd d c x w o s) := by
  have := d.isLt; have := c.isLt; have := x.isLt; have := w.isLt; have := o.isLt; have := s.isLt; show 0x34000000 + d.toNat * 0x200000 + c.toNat * 0x20000 + x.toNat * 0x1000 + w.toNat * 0x100 + o.toNat * 0x40 + s.toNat * 0x8 < 2 ^ 32; omega
theorem Laws.EncodeFits.amoBfset (d : BitVec 5) (c : BitVec 4) (x : BitVec 5) (w : BitVec 4) (o : BitVec 2) (s : BitVec 3) : Laws.EncodeFits.Statement (.amoBfset d c x w o s) := by
  have := d.isLt; have := c.isLt; have := x.isLt; have := w.isLt; have := o.isLt; have := s.isLt; show 0x34000006 + d.toNat * 0x200000 + c.toNat * 0x20000 + x.toNat * 0x1000 + w.toNat * 0x100 + o.toNat * 0x40 + s.toNat * 0x8 < 2 ^ 32; omega
theorem Laws.EncodeFits.cgetb (d : BitVec 5) (a : BitVec 4) : Laws.EncodeFits.Statement (.cgetb d a) := by
  have := d.isLt; have := a.isLt; show 0x38000000 + d.toNat * 0x200000 + a.toNat * 0x10000 < 2 ^ 32; omega
theorem Laws.EncodeFits.cgetl (d : BitVec 5) (a : BitVec 4) : Laws.EncodeFits.Statement (.cgetl d a) := by
  have := d.isLt; have := a.isLt; show 0x38000001 + d.toNat * 0x200000 + a.toNat * 0x10000 < 2 ^ 32; omega
theorem Laws.EncodeFits.cgetp (d : BitVec 5) (a : BitVec 4) : Laws.EncodeFits.Statement (.cgetp d a) := by
  have := d.isLt; have := a.isLt; show 0x38000002 + d.toNat * 0x200000 + a.toNat * 0x10000 < 2 ^ 32; omega
theorem Laws.EncodeFits.cgets (d : BitVec 5) (a : BitVec 4) : Laws.EncodeFits.Statement (.cgets d a) := by
  have := d.isLt; have := a.isLt; show 0x38000003 + d.toNat * 0x200000 + a.toNat * 0x10000 < 2 ^ 32; omega
theorem Laws.EncodeFits.cgett (d : BitVec 5) (a : BitVec 4) : Laws.EncodeFits.Statement (.cgett d a) := by
  have := d.isLt; have := a.isLt; show 0x38000004 + d.toNat * 0x200000 + a.toNat * 0x10000 < 2 ^ 32; omega
theorem Laws.EncodeFits.csetb (d : BitVec 4) (a : BitVec 4) (b : BitVec 5) : Laws.EncodeFits.Statement (.csetb d a b) := by
  have := d.isLt; have := a.isLt; have := b.isLt; show 0x38000005 + d.toNat * 0x200000 + a.toNat * 0x10000 + b.toNat * 0x800 < 2 ^ 32; omega
theorem Laws.EncodeFits.candp (d : BitVec 4) (a : BitVec 4) (b : BitVec 5) : Laws.EncodeFits.Statement (.candp d a b) := by
  have := d.isLt; have := a.isLt; have := b.isLt; show 0x38000006 + d.toNat * 0x200000 + a.toNat * 0x10000 + b.toNat * 0x800 < 2 ^ 32; omega
theorem Laws.EncodeFits.cmov (d : BitVec 4) (a : BitVec 4) : Laws.EncodeFits.Statement (.cmov d a) := by
  have := d.isLt; have := a.isLt; show 0x38000007 + d.toNat * 0x200000 + a.toNat * 0x10000 < 2 ^ 32; omega
theorem Laws.EncodeFits.ccur (d : BitVec 4) (a : BitVec 4) (b : BitVec 5) : Laws.EncodeFits.Statement (.ccur d a b) := by
  have := d.isLt; have := a.isLt; have := b.isLt; show 0x38000008 + d.toNat * 0x200000 + a.toNat * 0x10000 + b.toNat * 0x800 < 2 ^ 32; omega
theorem Laws.EncodeFits.padd (d : BitVec 4) (a : BitVec 4) (b : BitVec 5) (w : BitVec 4) : Laws.EncodeFits.Statement (.padd d a b w) := by
  have := d.isLt; have := a.isLt; have := b.isLt; have := w.isLt; show 0x3C000000 + d.toNat * 0x200000 + a.toNat * 0x10000 + b.toNat * 0x800 + w.toNat * 0x10 < 2 ^ 32; omega
theorem Laws.EncodeFits.psub (d : BitVec 4) (a : BitVec 4) (b : BitVec 5) (w : BitVec 4) : Laws.EncodeFits.Statement (.psub d a b w) := by
  have := d.isLt; have := a.isLt; have := b.isLt; have := w.isLt; show 0x3C000001 + d.toNat * 0x200000 + a.toNat * 0x10000 + b.toNat * 0x800 + w.toNat * 0x10 < 2 ^ 32; omega
theorem Laws.EncodeFits.pdiff (d : BitVec 5) (a : BitVec 4) (b : BitVec 4) (w : BitVec 4) : Laws.EncodeFits.Statement (.pdiff d a b w) := by
  have := d.isLt; have := a.isLt; have := b.isLt; have := w.isLt; show 0x3C000002 + d.toNat * 0x200000 + a.toNat * 0x10000 + b.toNat * 0x800 + w.toNat * 0x10 < 2 ^ 32; omega
theorem Laws.EncodeFits.palign (d : BitVec 4) (a : BitVec 4) (u : BitVec 1) (w : BitVec 4) : Laws.EncodeFits.Statement (.palign d a u w) := by
  have := d.isLt; have := a.isLt; have := u.isLt; have := w.isLt; show 0x3C000003 + d.toNat * 0x200000 + a.toNat * 0x10000 + u.toNat * 0x100 + w.toNat * 0x10 < 2 ^ 32; omega
theorem Laws.EncodeFits.pbyte (d : BitVec 5) (a : BitVec 4) : Laws.EncodeFits.Statement (.pbyte d a) := by
  have := d.isLt; have := a.isLt; show 0x3C000004 + d.toNat * 0x200000 + a.toNat * 0x10000 < 2 ^ 32; omega
theorem Laws.EncodeFits.pbit (d : BitVec 4) (a : BitVec 4) (b : BitVec 5) : Laws.EncodeFits.Statement (.pbit d a b) := by
  have := d.isLt; have := a.isLt; have := b.isLt; show 0x3C000005 + d.toNat * 0x200000 + a.toNat * 0x10000 + b.toNat * 0x800 < 2 ^ 32; omega
theorem Laws.EncodeFits.pinb (d : BitVec 5) (a : BitVec 4) (b : BitVec 5) (w : BitVec 4) : Laws.EncodeFits.Statement (.pinb d a b w) := by
  have := d.isLt; have := a.isLt; have := b.isLt; have := w.isLt; show 0x3C000006 + d.toNat * 0x200000 + a.toNat * 0x10000 + b.toNat * 0x800 + w.toNat * 0x10 < 2 ^ 32; omega
theorem Laws.EncodeFits.getc (r : BitVec 10) (d : BitVec 5) : Laws.EncodeFits.Statement (.getc r d) := by
  have := r.isLt; have := d.isLt; show 0x40000000 + r.toNat * 0x10000 + d.toNat * 0x800 < 2 ^ 32; omega
theorem Laws.EncodeFits.setc (r : BitVec 10) (s : BitVec 5) : Laws.EncodeFits.Statement (.setc r s) := by
  have := r.isLt; have := s.isLt; show 0x40000001 + r.toNat * 0x10000 + s.toNat * 0x800 < 2 ^ 32; omega
theorem Laws.EncodeFits.setcRngs (s : BitVec 5) : Laws.EncodeFits.Statement (.setcRngs s) := by
  have := s.isLt; show 0x40030001 + s.toNat * 0x800 < 2 ^ 32; omega
theorem Laws.EncodeFits.trap (n : BitVec 10) : Laws.EncodeFits.Statement (.trap n) := by
  have := n.isLt; show 0x40000002 + n.toNat * 0x10000 < 2 ^ 32; omega
theorem Laws.EncodeFits.tret : Laws.EncodeFits.Statement (.tret) := by
  show 0x40000003 < 2 ^ 32; omega
theorem Laws.EncodeFits.tretReplay : Laws.EncodeFits.Statement (.tretReplay) := by
  show 0x40000023 < 2 ^ 32; omega
theorem Laws.EncodeFits.fence (s : BitVec 3) (o : BitVec 2) : Laws.EncodeFits.Statement (.fence s o) := by
  have := s.isLt; have := o.isLt; show 0x40000004 + s.toNat * 0x80 + o.toNat * 0x20 < 2 ^ 32; omega
theorem Laws.EncodeFits.yield : Laws.EncodeFits.Statement (.yield) := by
  show 0x40000005 < 2 ^ 32; omega
theorem Laws.EncodeFits.exit : Laws.EncodeFits.Statement (.exit) := by
  show 0x40000006 < 2 ^ 32; omega
theorem Laws.EncodeFits.brk (n : BitVec 10) : Laws.EncodeFits.Statement (.brk n) := by
  have := n.isLt; show 0x40000007 + n.toNat * 0x10000 < 2 ^ 32; omega
theorem Laws.EncodeFits.beat : Laws.EncodeFits.Statement (.beat) := by
  show 0x40000008 < 2 ^ 32; omega
theorem Laws.EncodeFits.nop : Laws.EncodeFits.Statement (.nop) := by
  show 0x40000009 < 2 ^ 32; omega
theorem Laws.EncodeFits.ldk (n : BitVec 6) (d : BitVec 5) (i : BitVec 1) : Laws.EncodeFits.Statement (.ldk n d i) := by
  have := n.isLt; have := d.isLt; have := i.isLt; show 0x4000000A + n.toNat * 0x10000 + d.toNat * 0x800 + i.toNat * 0x20 < 2 ^ 32; omega
theorem Laws.EncodeFits.xim (p : BitVec 26) : Laws.EncodeFits.Statement (.xim p) := by
  have := p.isLt; show 0x44000000 + p.toNat * 0x1 < 2 ^ 32; omega
theorem Laws.EncodeFits.dry (r : BitVec 6) (k : BitVec 1) : Laws.EncodeFits.Statement (.dry r k) := by
  have := r.isLt; have := k.isLt; show 0x48000000 + r.toNat * 0x8 + k.toNat * 0x4 < 2 ^ 32; omega
theorem Laws.EncodeFits.wetq (d : BitVec 5) (r : BitVec 6) (k : BitVec 1) : Laws.EncodeFits.Statement (.wetq d r k) := by
  have := d.isLt; have := r.isLt; have := k.isLt; show 0x48000001 + d.toNat * 0x200000 + r.toNat * 0x8 + k.toNat * 0x4 < 2 ^ 32; omega
theorem Laws.EncodeFits.dryAll : Laws.EncodeFits.Statement (.dryAll) := by
  show 0x48000002 < 2 ^ 32; omega
theorem Laws.EncodeFits.vadd (g : BitVec 4) (d : BitVec 6) (a : BitVec 6) (b : BitVec 6) : Laws.EncodeFits.Statement (.vadd g d a b) := by
  have := g.isLt; have := d.isLt; have := a.isLt; have := b.isLt; show 0x50000000 + g.toNat * 0x400000 + d.toNat * 0x10000 + a.toNat * 0x400 + b.toNat * 0x10 < 2 ^ 32; omega
theorem Laws.EncodeFits.vsub (g : BitVec 4) (d : BitVec 6) (a : BitVec 6) (b : BitVec 6) : Laws.EncodeFits.Statement (.vsub g d a b) := by
  have := g.isLt; have := d.isLt; have := a.isLt; have := b.isLt; show 0x50000001 + g.toNat * 0x400000 + d.toNat * 0x10000 + a.toNat * 0x400 + b.toNat * 0x10 < 2 ^ 32; omega
theorem Laws.EncodeFits.vand (g : BitVec 4) (d : BitVec 6) (a : BitVec 6) (b : BitVec 6) : Laws.EncodeFits.Statement (.vand g d a b) := by
  have := g.isLt; have := d.isLt; have := a.isLt; have := b.isLt; show 0x50000002 + g.toNat * 0x400000 + d.toNat * 0x10000 + a.toNat * 0x400 + b.toNat * 0x10 < 2 ^ 32; omega
theorem Laws.EncodeFits.vor (g : BitVec 4) (d : BitVec 6) (a : BitVec 6) (b : BitVec 6) : Laws.EncodeFits.Statement (.vor g d a b) := by
  have := g.isLt; have := d.isLt; have := a.isLt; have := b.isLt; show 0x50000003 + g.toNat * 0x400000 + d.toNat * 0x10000 + a.toNat * 0x400 + b.toNat * 0x10 < 2 ^ 32; omega
theorem Laws.EncodeFits.vxor (g : BitVec 4) (d : BitVec 6) (a : BitVec 6) (b : BitVec 6) : Laws.EncodeFits.Statement (.vxor g d a b) := by
  have := g.isLt; have := d.isLt; have := a.isLt; have := b.isLt; show 0x50000004 + g.toNat * 0x400000 + d.toNat * 0x10000 + a.toNat * 0x400 + b.toNat * 0x10 < 2 ^ 32; omega
theorem Laws.EncodeFits.vandn (g : BitVec 4) (d : BitVec 6) (a : BitVec 6) (b : BitVec 6) : Laws.EncodeFits.Statement (.vandn g d a b) := by
  have := g.isLt; have := d.isLt; have := a.isLt; have := b.isLt; show 0x50000005 + g.toNat * 0x400000 + d.toNat * 0x10000 + a.toNat * 0x400 + b.toNat * 0x10 < 2 ^ 32; omega
theorem Laws.EncodeFits.vnot (g : BitVec 4) (d : BitVec 6) (a : BitVec 6) : Laws.EncodeFits.Statement (.vnot g d a) := by
  have := g.isLt; have := d.isLt; have := a.isLt; show 0x50000006 + g.toNat * 0x400000 + d.toNat * 0x10000 + a.toNat * 0x400 < 2 ^ 32; omega
theorem Laws.EncodeFits.vabs (g : BitVec 4) (d : BitVec 6) (a : BitVec 6) : Laws.EncodeFits.Statement (.vabs g d a) := by
  have := g.isLt; have := d.isLt; have := a.isLt; show 0x50000016 + g.toNat * 0x400000 + d.toNat * 0x10000 + a.toNat * 0x400 < 2 ^ 32; omega
theorem Laws.EncodeFits.vneg (g : BitVec 4) (d : BitVec 6) (a : BitVec 6) : Laws.EncodeFits.Statement (.vneg g d a) := by
  have := g.isLt; have := d.isLt; have := a.isLt; show 0x50000026 + g.toNat * 0x400000 + d.toNat * 0x10000 + a.toNat * 0x400 < 2 ^ 32; omega
theorem Laws.EncodeFits.vminI (g : BitVec 4) (d : BitVec 6) (a : BitVec 6) (b : BitVec 6) : Laws.EncodeFits.Statement (.vminI g d a b) := by
  have := g.isLt; have := d.isLt; have := a.isLt; have := b.isLt; show 0x50000007 + g.toNat * 0x400000 + d.toNat * 0x10000 + a.toNat * 0x400 + b.toNat * 0x10 < 2 ^ 32; omega
theorem Laws.EncodeFits.vminB (g : BitVec 4) (d : BitVec 6) (a : BitVec 6) (b : BitVec 6) : Laws.EncodeFits.Statement (.vminB g d a b) := by
  have := g.isLt; have := d.isLt; have := a.isLt; have := b.isLt; show 0x50000008 + g.toNat * 0x400000 + d.toNat * 0x10000 + a.toNat * 0x400 + b.toNat * 0x10 < 2 ^ 32; omega
theorem Laws.EncodeFits.vmaxI (g : BitVec 4) (d : BitVec 6) (a : BitVec 6) (b : BitVec 6) : Laws.EncodeFits.Statement (.vmaxI g d a b) := by
  have := g.isLt; have := d.isLt; have := a.isLt; have := b.isLt; show 0x50000009 + g.toNat * 0x400000 + d.toNat * 0x10000 + a.toNat * 0x400 + b.toNat * 0x10 < 2 ^ 32; omega
theorem Laws.EncodeFits.vmaxB (g : BitVec 4) (d : BitVec 6) (a : BitVec 6) (b : BitVec 6) : Laws.EncodeFits.Statement (.vmaxB g d a b) := by
  have := g.isLt; have := d.isLt; have := a.isLt; have := b.isLt; show 0x5000000A + g.toNat * 0x400000 + d.toNat * 0x10000 + a.toNat * 0x400 + b.toNat * 0x10 < 2 ^ 32; omega
theorem Laws.EncodeFits.vaddsatI (g : BitVec 4) (d : BitVec 6) (a : BitVec 6) (b : BitVec 6) : Laws.EncodeFits.Statement (.vaddsatI g d a b) := by
  have := g.isLt; have := d.isLt; have := a.isLt; have := b.isLt; show 0x5000000B + g.toNat * 0x400000 + d.toNat * 0x10000 + a.toNat * 0x400 + b.toNat * 0x10 < 2 ^ 32; omega
theorem Laws.EncodeFits.vaddsatB (g : BitVec 4) (d : BitVec 6) (a : BitVec 6) (b : BitVec 6) : Laws.EncodeFits.Statement (.vaddsatB g d a b) := by
  have := g.isLt; have := d.isLt; have := a.isLt; have := b.isLt; show 0x5000000C + g.toNat * 0x400000 + d.toNat * 0x10000 + a.toNat * 0x400 + b.toNat * 0x10 < 2 ^ 32; omega
theorem Laws.EncodeFits.vsubsatI (g : BitVec 4) (d : BitVec 6) (a : BitVec 6) (b : BitVec 6) : Laws.EncodeFits.Statement (.vsubsatI g d a b) := by
  have := g.isLt; have := d.isLt; have := a.isLt; have := b.isLt; show 0x5000000D + g.toNat * 0x400000 + d.toNat * 0x10000 + a.toNat * 0x400 + b.toNat * 0x10 < 2 ^ 32; omega
theorem Laws.EncodeFits.vsubsatB (g : BitVec 4) (d : BitVec 6) (a : BitVec 6) (b : BitVec 6) : Laws.EncodeFits.Statement (.vsubsatB g d a b) := by
  have := g.isLt; have := d.isLt; have := a.isLt; have := b.isLt; show 0x5000000E + g.toNat * 0x400000 + d.toNat * 0x10000 + a.toNat * 0x400 + b.toNat * 0x10 < 2 ^ 32; omega
theorem Laws.EncodeFits.vaddi (g : BitVec 4) (d : BitVec 6) (a : BitVec 6) (i : BitVec 8) : Laws.EncodeFits.Statement (.vaddi g d a i) := by
  have := g.isLt; have := d.isLt; have := a.isLt; have := i.isLt; show 0x54000000 + g.toNat * 0x400000 + d.toNat * 0x10000 + a.toNat * 0x400 + i.toNat * 0x1 < 2 ^ 32; omega
theorem Laws.EncodeFits.vandi (g : BitVec 4) (d : BitVec 6) (a : BitVec 6) (i : BitVec 8) : Laws.EncodeFits.Statement (.vandi g d a i) := by
  have := g.isLt; have := d.isLt; have := a.isLt; have := i.isLt; show 0x54000100 + g.toNat * 0x400000 + d.toNat * 0x10000 + a.toNat * 0x400 + i.toNat * 0x1 < 2 ^ 32; omega
theorem Laws.EncodeFits.vori (g : BitVec 4) (d : BitVec 6) (a : BitVec 6) (i : BitVec 8) : Laws.EncodeFits.Statement (.vori g d a i) := by
  have := g.isLt; have := d.isLt; have := a.isLt; have := i.isLt; show 0x54000200 + g.toNat * 0x400000 + d.toNat * 0x10000 + a.toNat * 0x400 + i.toNat * 0x1 < 2 ^ 32; omega
theorem Laws.EncodeFits.vshli (g : BitVec 4) (d : BitVec 6) (a : BitVec 6) (n : BitVec 5) : Laws.EncodeFits.Statement (.vshli g d a n) := by
  have := g.isLt; have := d.isLt; have := a.isLt; have := n.isLt; show 0x54000300 + g.toNat * 0x400000 + d.toNat * 0x10000 + a.toNat * 0x400 + n.toNat * 0x1 < 2 ^ 32; omega
theorem Laws.EncodeFits.vmul (g : BitVec 4) (d : BitVec 6) (a : BitVec 6) (b : BitVec 6) : Laws.EncodeFits.Statement (.vmul g d a b) := by
  have := g.isLt; have := d.isLt; have := a.isLt; have := b.isLt; show 0x58000000 + g.toNat * 0x400000 + d.toNat * 0x10000 + a.toNat * 0x400 + b.toNat * 0x10 < 2 ^ 32; omega
theorem Laws.EncodeFits.vmulhI (g : BitVec 4) (d : BitVec 6) (a : BitVec 6) (b : BitVec 6) : Laws.EncodeFits.Statement (.vmulhI g d a b) := by
  have := g.isLt; have := d.isLt; have := a.isLt; have := b.isLt; show 0x58000001 + g.toNat * 0x400000 + d.toNat * 0x10000 + a.toNat * 0x400 + b.toNat * 0x10 < 2 ^ 32; omega
theorem Laws.EncodeFits.vmulhB (g : BitVec 4) (d : BitVec 6) (a : BitVec 6) (b : BitVec 6) : Laws.EncodeFits.Statement (.vmulhB g d a b) := by
  have := g.isLt; have := d.isLt; have := a.isLt; have := b.isLt; show 0x58000002 + g.toNat * 0x400000 + d.toNat * 0x10000 + a.toNat * 0x400 + b.toNat * 0x10 < 2 ^ 32; omega
theorem Laws.EncodeFits.vmad (g : BitVec 4) (d : BitVec 6) (a : BitVec 6) (b : BitVec 6) : Laws.EncodeFits.Statement (.vmad g d a b) := by
  have := g.isLt; have := d.isLt; have := a.isLt; have := b.isLt; show 0x58000003 + g.toNat * 0x400000 + d.toNat * 0x10000 + a.toNat * 0x400 + b.toNat * 0x10 < 2 ^ 32; omega
theorem Laws.EncodeFits.vshl (g : BitVec 4) (d : BitVec 6) (a : BitVec 6) (b : BitVec 6) : Laws.EncodeFits.Statement (.vshl g d a b) := by
  have := g.isLt; have := d.isLt; have := a.isLt; have := b.isLt; show 0x5C000000 + g.toNat * 0x400000 + d.toNat * 0x10000 + a.toNat * 0x400 + b.toNat * 0x10 < 2 ^ 32; omega
theorem Laws.EncodeFits.vshr (g : BitVec 4) (d : BitVec 6) (a : BitVec 6) (b : BitVec 6) : Laws.EncodeFits.Statement (.vshr g d a b) := by
  have := g.isLt; have := d.isLt; have := a.isLt; have := b.isLt; show 0x5C000001 + g.toNat * 0x400000 + d.toNat * 0x10000 + a.toNat * 0x400 + b.toNat * 0x10 < 2 ^ 32; omega
theorem Laws.EncodeFits.vsar (g : BitVec 4) (d : BitVec 6) (a : BitVec 6) (b : BitVec 6) : Laws.EncodeFits.Statement (.vsar g d a b) := by
  have := g.isLt; have := d.isLt; have := a.isLt; have := b.isLt; show 0x5C000002 + g.toNat * 0x400000 + d.toNat * 0x10000 + a.toNat * 0x400 + b.toNat * 0x10 < 2 ^ 32; omega
theorem Laws.EncodeFits.vclz (g : BitVec 4) (d : BitVec 6) (a : BitVec 6) : Laws.EncodeFits.Statement (.vclz g d a) := by
  have := g.isLt; have := d.isLt; have := a.isLt; show 0x5C000003 + g.toNat * 0x400000 + d.toNat * 0x10000 + a.toNat * 0x400 < 2 ^ 32; omega
theorem Laws.EncodeFits.vpopc (g : BitVec 4) (d : BitVec 6) (a : BitVec 6) : Laws.EncodeFits.Statement (.vpopc g d a) := by
  have := g.isLt; have := d.isLt; have := a.isLt; show 0x5C000004 + g.toNat * 0x400000 + d.toNat * 0x10000 + a.toNat * 0x400 < 2 ^ 32; omega
theorem Laws.EncodeFits.vbfx (g : BitVec 4) (d : BitVec 6) (a : BitVec 6) (b : BitVec 6) : Laws.EncodeFits.Statement (.vbfx g d a b) := by
  have := g.isLt; have := d.isLt; have := a.isLt; have := b.isLt; show 0x5C000005 + g.toNat * 0x400000 + d.toNat * 0x10000 + a.toNat * 0x400 + b.toNat * 0x10 < 2 ^ 32; omega
theorem Laws.EncodeFits.vbfxI (g : BitVec 4) (d : BitVec 6) (a : BitVec 6) (b : BitVec 6) : Laws.EncodeFits.Statement (.vbfxI g d a b) := by
  have := g.isLt; have := d.isLt; have := a.isLt; have := b.isLt; show 0x5C000006 + g.toNat * 0x400000 + d.toNat * 0x10000 + a.toNat * 0x400 + b.toNat * 0x10 < 2 ^ 32; omega
theorem Laws.EncodeFits.vbfi (g : BitVec 4) (d : BitVec 6) (a : BitVec 6) (b : BitVec 6) : Laws.EncodeFits.Statement (.vbfi g d a b) := by
  have := g.isLt; have := d.isLt; have := a.isLt; have := b.isLt; show 0x5C000007 + g.toNat * 0x400000 + d.toNat * 0x10000 + a.toNat * 0x400 + b.toNat * 0x10 < 2 ^ 32; omega
theorem Laws.EncodeFits.fadd (g : BitVec 4) (d : BitVec 6) (a : BitVec 6) (b : BitVec 6) : Laws.EncodeFits.Statement (.fadd g d a b) := by
  have := g.isLt; have := d.isLt; have := a.isLt; have := b.isLt; show 0x60000000 + g.toNat * 0x400000 + d.toNat * 0x10000 + a.toNat * 0x400 + b.toNat * 0x10 < 2 ^ 32; omega
theorem Laws.EncodeFits.fsub (g : BitVec 4) (d : BitVec 6) (a : BitVec 6) (b : BitVec 6) : Laws.EncodeFits.Statement (.fsub g d a b) := by
  have := g.isLt; have := d.isLt; have := a.isLt; have := b.isLt; show 0x60000001 + g.toNat * 0x400000 + d.toNat * 0x10000 + a.toNat * 0x400 + b.toNat * 0x10 < 2 ^ 32; omega
theorem Laws.EncodeFits.fmul (g : BitVec 4) (d : BitVec 6) (a : BitVec 6) (b : BitVec 6) : Laws.EncodeFits.Statement (.fmul g d a b) := by
  have := g.isLt; have := d.isLt; have := a.isLt; have := b.isLt; show 0x60000002 + g.toNat * 0x400000 + d.toNat * 0x10000 + a.toNat * 0x400 + b.toNat * 0x10 < 2 ^ 32; omega
theorem Laws.EncodeFits.fmin (g : BitVec 4) (d : BitVec 6) (a : BitVec 6) (b : BitVec 6) : Laws.EncodeFits.Statement (.fmin g d a b) := by
  have := g.isLt; have := d.isLt; have := a.isLt; have := b.isLt; show 0x60000003 + g.toNat * 0x400000 + d.toNat * 0x10000 + a.toNat * 0x400 + b.toNat * 0x10 < 2 ^ 32; omega
theorem Laws.EncodeFits.fmax (g : BitVec 4) (d : BitVec 6) (a : BitVec 6) (b : BitVec 6) : Laws.EncodeFits.Statement (.fmax g d a b) := by
  have := g.isLt; have := d.isLt; have := a.isLt; have := b.isLt; show 0x60000004 + g.toNat * 0x400000 + d.toNat * 0x10000 + a.toNat * 0x400 + b.toNat * 0x10 < 2 ^ 32; omega
theorem Laws.EncodeFits.fabs (g : BitVec 4) (d : BitVec 6) (a : BitVec 6) : Laws.EncodeFits.Statement (.fabs g d a) := by
  have := g.isLt; have := d.isLt; have := a.isLt; show 0x60000005 + g.toNat * 0x400000 + d.toNat * 0x10000 + a.toNat * 0x400 < 2 ^ 32; omega
theorem Laws.EncodeFits.fneg (g : BitVec 4) (d : BitVec 6) (a : BitVec 6) : Laws.EncodeFits.Statement (.fneg g d a) := by
  have := g.isLt; have := d.isLt; have := a.isLt; show 0x60000006 + g.toNat * 0x400000 + d.toNat * 0x10000 + a.toNat * 0x400 < 2 ^ 32; omega
theorem Laws.EncodeFits.frnd (g : BitVec 4) (d : BitVec 6) (a : BitVec 6) (m : BitVec 3) : Laws.EncodeFits.Statement (.frnd g d a m) := by
  have := g.isLt; have := d.isLt; have := a.isLt; have := m.isLt; show 0x60000007 + g.toNat * 0x400000 + d.toNat * 0x10000 + a.toNat * 0x400 + m.toNat * 0x10 < 2 ^ 32; omega
theorem Laws.EncodeFits.fclass (g : BitVec 4) (d : BitVec 6) (a : BitVec 6) : Laws.EncodeFits.Statement (.fclass g d a) := by
  have := g.isLt; have := d.isLt; have := a.isLt; show 0x60000008 + g.toNat * 0x400000 + d.toNat * 0x10000 + a.toNat * 0x400 < 2 ^ 32; omega
theorem Laws.EncodeFits.faddPacked (g : BitVec 4) (d : BitVec 6) (a : BitVec 6) (b : BitVec 6) (p : BitVec 1) : Laws.EncodeFits.Statement (.faddPacked g d a b p) := by
  have := g.isLt; have := d.isLt; have := a.isLt; have := b.isLt; have := p.isLt; show 0x64000000 + g.toNat * 0x400000 + d.toNat * 0x10000 + a.toNat * 0x400 + b.toNat * 0x10 + p.toNat * 0x8 < 2 ^ 32; omega
theorem Laws.EncodeFits.fsubPacked (g : BitVec 4) (d : BitVec 6) (a : BitVec 6) (b : BitVec 6) (p : BitVec 1) : Laws.EncodeFits.Statement (.fsubPacked g d a b p) := by
  have := g.isLt; have := d.isLt; have := a.isLt; have := b.isLt; have := p.isLt; show 0x64000001 + g.toNat * 0x400000 + d.toNat * 0x10000 + a.toNat * 0x400 + b.toNat * 0x10 + p.toNat * 0x8 < 2 ^ 32; omega
theorem Laws.EncodeFits.fmulPacked (g : BitVec 4) (d : BitVec 6) (a : BitVec 6) (b : BitVec 6) (p : BitVec 1) : Laws.EncodeFits.Statement (.fmulPacked g d a b p) := by
  have := g.isLt; have := d.isLt; have := a.isLt; have := b.isLt; have := p.isLt; show 0x64000002 + g.toNat * 0x400000 + d.toNat * 0x10000 + a.toNat * 0x400 + b.toNat * 0x10 + p.toNat * 0x8 < 2 ^ 32; omega
theorem Laws.EncodeFits.fminPacked (g : BitVec 4) (d : BitVec 6) (a : BitVec 6) (b : BitVec 6) (p : BitVec 1) : Laws.EncodeFits.Statement (.fminPacked g d a b p) := by
  have := g.isLt; have := d.isLt; have := a.isLt; have := b.isLt; have := p.isLt; show 0x64000003 + g.toNat * 0x400000 + d.toNat * 0x10000 + a.toNat * 0x400 + b.toNat * 0x10 + p.toNat * 0x8 < 2 ^ 32; omega
theorem Laws.EncodeFits.fmaxPacked (g : BitVec 4) (d : BitVec 6) (a : BitVec 6) (b : BitVec 6) (p : BitVec 1) : Laws.EncodeFits.Statement (.fmaxPacked g d a b p) := by
  have := g.isLt; have := d.isLt; have := a.isLt; have := b.isLt; have := p.isLt; show 0x64000004 + g.toNat * 0x400000 + d.toNat * 0x10000 + a.toNat * 0x400 + b.toNat * 0x10 + p.toNat * 0x8 < 2 ^ 32; omega
theorem Laws.EncodeFits.fabsPacked (g : BitVec 4) (d : BitVec 6) (a : BitVec 6) (p : BitVec 1) : Laws.EncodeFits.Statement (.fabsPacked g d a p) := by
  have := g.isLt; have := d.isLt; have := a.isLt; have := p.isLt; show 0x64000005 + g.toNat * 0x400000 + d.toNat * 0x10000 + a.toNat * 0x400 + p.toNat * 0x8 < 2 ^ 32; omega
theorem Laws.EncodeFits.fnegPacked (g : BitVec 4) (d : BitVec 6) (a : BitVec 6) (p : BitVec 1) : Laws.EncodeFits.Statement (.fnegPacked g d a p) := by
  have := g.isLt; have := d.isLt; have := a.isLt; have := p.isLt; show 0x64000085 + g.toNat * 0x400000 + d.toNat * 0x10000 + a.toNat * 0x400 + p.toNat * 0x8 < 2 ^ 32; omega
theorem Laws.EncodeFits.fclassPacked (g : BitVec 4) (d : BitVec 6) (a : BitVec 6) (p : BitVec 1) : Laws.EncodeFits.Statement (.fclassPacked g d a p) := by
  have := g.isLt; have := d.isLt; have := a.isLt; have := p.isLt; show 0x64000105 + g.toNat * 0x400000 + d.toNat * 0x10000 + a.toNat * 0x400 + p.toNat * 0x8 < 2 ^ 32; omega
theorem Laws.EncodeFits.frndPacked (g : BitVec 4) (d : BitVec 6) (a : BitVec 6) (m : BitVec 3) (p : BitVec 1) : Laws.EncodeFits.Statement (.frndPacked g d a m p) := by
  have := g.isLt; have := d.isLt; have := a.isLt; have := m.isLt; have := p.isLt; show 0x64000185 + g.toNat * 0x400000 + d.toNat * 0x10000 + a.toNat * 0x400 + m.toNat * 0x10 + p.toNat * 0x8 < 2 ^ 32; omega
theorem Laws.EncodeFits.fdot2 (g : BitVec 4) (d : BitVec 6) (a : BitVec 6) (b : BitVec 6) (p : BitVec 1) : Laws.EncodeFits.Statement (.fdot2 g d a b p) := by
  have := g.isLt; have := d.isLt; have := a.isLt; have := b.isLt; have := p.isLt; show 0x64000007 + g.toNat * 0x400000 + d.toNat * 0x10000 + a.toNat * 0x400 + b.toNat * 0x10 + p.toNat * 0x8 < 2 ^ 32; omega
theorem Laws.EncodeFits.fma (g : BitVec 4) (d : BitVec 6) (a : BitVec 6) (b : BitVec 6) (f : BitVec 2) : Laws.EncodeFits.Statement (.fma g d a b f) := by
  have := g.isLt; have := d.isLt; have := a.isLt; have := b.isLt; have := f.isLt; show 0x68000000 + g.toNat * 0x400000 + d.toNat * 0x10000 + a.toNat * 0x400 + b.toNat * 0x10 + f.toNat * 0x4 < 2 ^ 32; omega
theorem Laws.EncodeFits.fms (g : BitVec 4) (d : BitVec 6) (a : BitVec 6) (b : BitVec 6) (f : BitVec 2) : Laws.EncodeFits.Statement (.fms g d a b f) := by
  have := g.isLt; have := d.isLt; have := a.isLt; have := b.isLt; have := f.isLt; show 0x68000001 + g.toNat * 0x400000 + d.toNat * 0x10000 + a.toNat * 0x400 + b.toNat * 0x10 + f.toNat * 0x4 < 2 ^ 32; omega
theorem Laws.EncodeFits.fnma (g : BitVec 4) (d : BitVec 6) (a : BitVec 6) (b : BitVec 6) (f : BitVec 2) : Laws.EncodeFits.Statement (.fnma g d a b f) := by
  have := g.isLt; have := d.isLt; have := a.isLt; have := b.isLt; have := f.isLt; show 0x68000002 + g.toNat * 0x400000 + d.toNat * 0x10000 + a.toNat * 0x400 + b.toNat * 0x10 + f.toNat * 0x4 < 2 ^ 32; omega
theorem Laws.EncodeFits.vcmp (g : BitVec 4) (q : BitVec 3) (a : BitVec 6) (b : BitVec 6) (c : BitVec 4) : Laws.EncodeFits.Statement (.vcmp g q a b c) := by
  have := g.isLt; have := q.isLt; have := a.isLt; have := b.isLt; have := c.isLt; show 0x6C000000 + g.toNat * 0x400000 + q.toNat * 0x10000 + a.toNat * 0x400 + b.toNat * 0x10 + c.toNat * 0x1 < 2 ^ 32; omega
theorem Laws.EncodeFits.vcmpF (g : BitVec 4) (q : BitVec 3) (a : BitVec 6) (b : BitVec 6) (c : BitVec 4) : Laws.EncodeFits.Statement (.vcmpF g q a b c) := by
  have := g.isLt; have := q.isLt; have := a.isLt; have := b.isLt; have := c.isLt; show 0x6C080000 + g.toNat * 0x400000 + q.toNat * 0x10000 + a.toNat * 0x400 + b.toNat * 0x10 + c.toNat * 0x1 < 2 ^ 32; omega
theorem Laws.EncodeFits.fcmpu (g : BitVec 4) (q : BitVec 3) (a : BitVec 6) (b : BitVec 6) : Laws.EncodeFits.Statement (.fcmpu g q a b) := by
  have := g.isLt; have := q.isLt; have := a.isLt; have := b.isLt; show 0x6C080006 + g.toNat * 0x400000 + q.toNat * 0x10000 + a.toNat * 0x400 + b.toNat * 0x10 < 2 ^ 32; omega
theorem Laws.EncodeFits.vsel (g : BitVec 4) (d : BitVec 6) (a : BitVec 6) (b : BitVec 6) : Laws.EncodeFits.Statement (.vsel g d a b) := by
  have := g.isLt; have := d.isLt; have := a.isLt; have := b.isLt; show 0x70000000 + g.toNat * 0x400000 + d.toNat * 0x10000 + a.toNat * 0x400 + b.toNat * 0x10 < 2 ^ 32; omega
theorem Laws.EncodeFits.vmov (g : BitVec 4) (d : BitVec 6) (a : BitVec 6) : Laws.EncodeFits.Statement (.vmov g d a) := by
  have := g.isLt; have := d.isLt; have := a.isLt; show 0x70000001 + g.toNat * 0x400000 + d.toNat * 0x10000 + a.toNat * 0x400 < 2 ^ 32; omega
theorem Laws.EncodeFits.vmovi (g : BitVec 4) (d : BitVec 6) (i : BitVec 12) : Laws.EncodeFits.Statement (.vmovi g d i) := by
  have := g.isLt; have := d.isLt; have := i.isLt; show 0x70000002 + g.toNat * 0x400000 + d.toNat * 0x10000 + i.toNat * 0x10 < 2 ^ 32; omega
theorem Laws.EncodeFits.vfromg (g : BitVec 4) (d : BitVec 6) (s : BitVec 5) : Laws.EncodeFits.Statement (.vfromg g d s) := by
  have := g.isLt; have := d.isLt; have := s.isLt; show 0x70000003 + g.toNat * 0x400000 + d.toNat * 0x10000 + s.toNat * 0x400 < 2 ^ 32; omega
theorem Laws.EncodeFits.vlane (g : BitVec 4) (d : BitVec 6) (s : BitVec 6) : Laws.EncodeFits.Statement (.vlane g d s) := by
  have := g.isLt; have := d.isLt; have := s.isLt; show 0x70000004 + g.toNat * 0x400000 + d.toNat * 0x10000 + s.toNat * 0x10 < 2 ^ 32; omega
theorem Laws.EncodeFits.pand (g : BitVec 4) (d : BitVec 3) (a : BitVec 3) (b : BitVec 3) : Laws.EncodeFits.Statement (.pand g d a b) := by
  have := g.isLt; have := d.isLt; have := a.isLt; have := b.isLt; show 0x70000005 + g.toNat * 0x400000 + d.toNat * 0x10000 + a.toNat * 0x400 + b.toNat * 0x10 < 2 ^ 32; omega
theorem Laws.EncodeFits.por (g : BitVec 4) (d : BitVec 3) (a : BitVec 3) (b : BitVec 3) : Laws.EncodeFits.Statement (.por g d a b) := by
  have := g.isLt; have := d.isLt; have := a.isLt; have := b.isLt; show 0x70000006 + g.toNat * 0x400000 + d.toNat * 0x10000 + a.toNat * 0x400 + b.toNat * 0x10 < 2 ^ 32; omega
theorem Laws.EncodeFits.pxor (g : BitVec 4) (d : BitVec 3) (a : BitVec 3) (b : BitVec 3) : Laws.EncodeFits.Statement (.pxor g d a b) := by
  have := g.isLt; have := d.isLt; have := a.isLt; have := b.isLt; show 0x70000007 + g.toNat * 0x400000 + d.toNat * 0x10000 + a.toNat * 0x400 + b.toNat * 0x10 < 2 ^ 32; omega
theorem Laws.EncodeFits.pnot (g : BitVec 4) (d : BitVec 3) (a : BitVec 3) : Laws.EncodeFits.Statement (.pnot g d a) := by
  have := g.isLt; have := d.isLt; have := a.isLt; show 0x70000008 + g.toNat * 0x400000 + d.toNat * 0x10000 + a.toNat * 0x400 < 2 ^ 32; omega
theorem Laws.EncodeFits.pmov (g : BitVec 4) (d : BitVec 3) (a : BitVec 3) : Laws.EncodeFits.Statement (.pmov g d a) := by
  have := g.isLt; have := d.isLt; have := a.isLt; show 0x70000009 + g.toNat * 0x400000 + d.toNat * 0x10000 + a.toNat * 0x400 < 2 ^ 32; omega
theorem Laws.EncodeFits.cvtF32ToX (g : BitVec 4) (d : BitVec 6) (a : BitVec 6) (x : BitVec 4) (r : BitVec 2) : Laws.EncodeFits.Statement (.cvtF32ToX g d a x r) := by
  have := g.isLt; have := d.isLt; have := a.isLt; have := x.isLt; have := r.isLt; show 0x74000000 + g.toNat * 0x400000 + d.toNat * 0x10000 + a.toNat * 0x400 + x.toNat * 0x40 + r.toNat * 0x10 < 2 ^ 32; omega
theorem Laws.EncodeFits.cvtI32ToX (g : BitVec 4) (d : BitVec 6) (a : BitVec 6) (x : BitVec 4) (r : BitVec 2) : Laws.EncodeFits.Statement (.cvtI32ToX g d a x r) := by
  have := g.isLt; have := d.isLt; have := a.isLt; have := x.isLt; have := r.isLt; show 0x74000002 + g.toNat * 0x400000 + d.toNat * 0x10000 + a.toNat * 0x400 + x.toNat * 0x40 + r.toNat * 0x10 < 2 ^ 32; omega
theorem Laws.EncodeFits.cvtXToF32 (g : BitVec 4) (d : BitVec 6) (a : BitVec 6) (x : BitVec 4) (r : BitVec 2) : Laws.EncodeFits.Statement (.cvtXToF32 g d a x r) := by
  have := g.isLt; have := d.isLt; have := a.isLt; have := x.isLt; have := r.isLt; show 0x74000004 + g.toNat * 0x400000 + d.toNat * 0x10000 + a.toNat * 0x400 + x.toNat * 0x40 + r.toNat * 0x10 < 2 ^ 32; omega
theorem Laws.EncodeFits.cvtXToI32 (g : BitVec 4) (d : BitVec 6) (a : BitVec 6) (x : BitVec 4) (r : BitVec 2) : Laws.EncodeFits.Statement (.cvtXToI32 g d a x r) := by
  have := g.isLt; have := d.isLt; have := a.isLt; have := x.isLt; have := r.isLt; show 0x74000006 + g.toNat * 0x400000 + d.toNat * 0x10000 + a.toNat * 0x400 + x.toNat * 0x40 + r.toNat * 0x10 < 2 ^ 32; omega
theorem Laws.EncodeFits.vunpack (g : BitVec 4) (d : BitVec 6) (a : BitVec 6) (f : BitVec 1) (h : BitVec 1) : Laws.EncodeFits.Statement (.vunpack g d a f h) := by
  have := g.isLt; have := d.isLt; have := a.isLt; have := f.isLt; have := h.isLt; show 0x74000001 + g.toNat * 0x400000 + d.toNat * 0x10000 + a.toNat * 0x400 + f.toNat * 0x20 + h.toNat * 0x10 < 2 ^ 32; omega
theorem Laws.EncodeFits.vquant (g : BitVec 4) (d : BitVec 6) (a : BitVec 6) (r : BitVec 2) (t : BitVec 2) (l : BitVec 2) (f : BitVec 2) : Laws.EncodeFits.Statement (.vquant g d a r t l f) := by
  have := g.isLt; have := d.isLt; have := a.isLt; have := r.isLt; have := t.isLt; have := l.isLt; have := f.isLt; show 0x74000008 + g.toNat * 0x400000 + d.toNat * 0x10000 + a.toNat * 0x400 + r.toNat * 0x100 + t.toNat * 0x40 + l.toNat * 0x10 + f.toNat * 0x1 < 2 ^ 32; omega
theorem Laws.EncodeFits.vdequant (g : BitVec 4) (d : BitVec 6) (a : BitVec 6) (f : BitVec 2) : Laws.EncodeFits.Statement (.vdequant g d a f) := by
  have := g.isLt; have := d.isLt; have := a.isLt; have := f.isLt; show 0x7400000C + g.toNat * 0x400000 + d.toNat * 0x10000 + a.toNat * 0x400 + f.toNat * 0x10 < 2 ^ 32; omega
theorem Laws.EncodeFits.vpackF16 (g : BitVec 4) (d : BitVec 6) (a : BitVec 6) (b : BitVec 6) : Laws.EncodeFits.Statement (.vpackF16 g d a b) := by
  have := g.isLt; have := d.isLt; have := a.isLt; have := b.isLt; show 0x7400000E + g.toNat * 0x400000 + d.toNat * 0x10000 + a.toNat * 0x400 + b.toNat * 0x10 < 2 ^ 32; omega
theorem Laws.EncodeFits.vpackBf16 (g : BitVec 4) (d : BitVec 6) (a : BitVec 6) (b : BitVec 6) : Laws.EncodeFits.Statement (.vpackBf16 g d a b) := by
  have := g.isLt; have := d.isLt; have := a.isLt; have := b.isLt; show 0x7400000F + g.toNat * 0x400000 + d.toNat * 0x10000 + a.toNat * 0x400 + b.toNat * 0x10 < 2 ^ 32; omega
theorem Laws.EncodeFits.frcp (g : BitVec 4) (d : BitVec 6) (a : BitVec 6) : Laws.EncodeFits.Statement (.frcp g d a) := by
  have := g.isLt; have := d.isLt; have := a.isLt; show 0x78000000 + g.toNat * 0x400000 + d.toNat * 0x10000 + a.toNat * 0x400 < 2 ^ 32; omega
theorem Laws.EncodeFits.frsqrt (g : BitVec 4) (d : BitVec 6) (a : BitVec 6) : Laws.EncodeFits.Statement (.frsqrt g d a) := by
  have := g.isLt; have := d.isLt; have := a.isLt; show 0x78000001 + g.toNat * 0x400000 + d.toNat * 0x10000 + a.toNat * 0x400 < 2 ^ 32; omega
theorem Laws.EncodeFits.fsqrt (g : BitVec 4) (d : BitVec 6) (a : BitVec 6) : Laws.EncodeFits.Statement (.fsqrt g d a) := by
  have := g.isLt; have := d.isLt; have := a.isLt; show 0x78000002 + g.toNat * 0x400000 + d.toNat * 0x10000 + a.toNat * 0x400 < 2 ^ 32; omega
theorem Laws.EncodeFits.fexp2 (g : BitVec 4) (d : BitVec 6) (a : BitVec 6) : Laws.EncodeFits.Statement (.fexp2 g d a) := by
  have := g.isLt; have := d.isLt; have := a.isLt; show 0x78000003 + g.toNat * 0x400000 + d.toNat * 0x10000 + a.toNat * 0x400 < 2 ^ 32; omega
theorem Laws.EncodeFits.flog2 (g : BitVec 4) (d : BitVec 6) (a : BitVec 6) : Laws.EncodeFits.Statement (.flog2 g d a) := by
  have := g.isLt; have := d.isLt; have := a.isLt; show 0x78000004 + g.toNat * 0x400000 + d.toNat * 0x10000 + a.toNat * 0x400 < 2 ^ 32; omega
theorem Laws.EncodeFits.fsin (g : BitVec 4) (d : BitVec 6) (a : BitVec 6) : Laws.EncodeFits.Statement (.fsin g d a) := by
  have := g.isLt; have := d.isLt; have := a.isLt; show 0x78000005 + g.toNat * 0x400000 + d.toNat * 0x10000 + a.toNat * 0x400 < 2 ^ 32; omega
theorem Laws.EncodeFits.fcos (g : BitVec 4) (d : BitVec 6) (a : BitVec 6) : Laws.EncodeFits.Statement (.fcos g d a) := by
  have := g.isLt; have := d.isLt; have := a.isLt; show 0x78000006 + g.toNat * 0x400000 + d.toNat * 0x10000 + a.toNat * 0x400 < 2 ^ 32; omega
theorem Laws.EncodeFits.ftanh (g : BitVec 4) (d : BitVec 6) (a : BitVec 6) : Laws.EncodeFits.Statement (.ftanh g d a) := by
  have := g.isLt; have := d.isLt; have := a.isLt; show 0x78000007 + g.toNat * 0x400000 + d.toNat * 0x10000 + a.toNat * 0x400 < 2 ^ 32; omega
theorem Laws.EncodeFits.vperm (g : BitVec 4) (d : BitVec 6) (a : BitVec 6) (b : BitVec 6) : Laws.EncodeFits.Statement (.vperm g d a b) := by
  have := g.isLt; have := d.isLt; have := a.isLt; have := b.isLt; show 0x7C000000 + g.toNat * 0x400000 + d.toNat * 0x10000 + a.toNat * 0x400 + b.toNat * 0x10 < 2 ^ 32; omega
theorem Laws.EncodeFits.vpermM (g : BitVec 4) (d : BitVec 6) (a : BitVec 6) (b : BitVec 6) : Laws.EncodeFits.Statement (.vpermM g d a b) := by
  have := g.isLt; have := d.isLt; have := a.isLt; have := b.isLt; show 0x7C000001 + g.toNat * 0x400000 + d.toNat * 0x10000 + a.toNat * 0x400 + b.toNat * 0x10 < 2 ^ 32; omega
theorem Laws.EncodeFits.vshufx (g : BitVec 4) (d : BitVec 6) (a : BitVec 6) (m : BitVec 2) (k : BitVec 4) : Laws.EncodeFits.Statement (.vshufx g d a m k) := by
  have := g.isLt; have := d.isLt; have := a.isLt; have := m.isLt; have := k.isLt; show 0x7C000002 + g.toNat * 0x400000 + d.toNat * 0x10000 + a.toNat * 0x400 + m.toNat * 0x100 + k.toNat * 0x10 < 2 ^ 32; omega
theorem Laws.EncodeFits.vshufy (g : BitVec 4) (d : BitVec 6) (a : BitVec 6) (m : BitVec 2) (k : BitVec 4) : Laws.EncodeFits.Statement (.vshufy g d a m k) := by
  have := g.isLt; have := d.isLt; have := a.isLt; have := m.isLt; have := k.isLt; show 0x7C000003 + g.toNat * 0x400000 + d.toNat * 0x10000 + a.toNat * 0x400 + m.toNat * 0x100 + k.toNat * 0x10 < 2 ^ 32; omega
theorem Laws.EncodeFits.vbcast (g : BitVec 4) (d : BitVec 6) (a : BitVec 6) (p : BitVec 6) : Laws.EncodeFits.Statement (.vbcast g d a p) := by
  have := g.isLt; have := d.isLt; have := a.isLt; have := p.isLt; show 0x7C000004 + g.toNat * 0x400000 + d.toNat * 0x10000 + a.toNat * 0x400 + p.toNat * 0x10 < 2 ^ 32; omega
theorem Laws.EncodeFits.vred (g : BitVec 4) (d : BitVec 6) (a : BitVec 6) (o : BitVec 4) : Laws.EncodeFits.Statement (.vred g d a o) := by
  have := g.isLt; have := d.isLt; have := a.isLt; have := o.isLt; show 0x7C000005 + g.toNat * 0x400000 + d.toNat * 0x10000 + a.toNat * 0x400 + o.toNat * 0x10 < 2 ^ 32; omega
theorem Laws.EncodeFits.vscan (g : BitVec 4) (d : BitVec 6) (a : BitVec 6) (o : BitVec 4) : Laws.EncodeFits.Statement (.vscan g d a o) := by
  have := g.isLt; have := d.isLt; have := a.isLt; have := o.isLt; show 0x7C000006 + g.toNat * 0x400000 + d.toNat * 0x10000 + a.toNat * 0x400 + o.toNat * 0x10 < 2 ^ 32; omega
theorem Laws.EncodeFits.vmatch (g : BitVec 4) (d : BitVec 6) (a : BitVec 6) : Laws.EncodeFits.Statement (.vmatch g d a) := by
  have := g.isLt; have := d.isLt; have := a.isLt; show 0x7C000007 + g.toNat * 0x400000 + d.toNat * 0x10000 + a.toNat * 0x400 < 2 ^ 32; omega
theorem Laws.EncodeFits.vpick (g : BitVec 4) (d : BitVec 5) (a : BitVec 6) : Laws.EncodeFits.Statement (.vpick g d a) := by
  have := g.isLt; have := d.isLt; have := a.isLt; show 0x7C000008 + g.toNat * 0x400000 + d.toNat * 0x10000 + a.toNat * 0x400 < 2 ^ 32; omega
theorem Laws.EncodeFits.vvote (g : BitVec 4) (d : BitVec 5) (q : BitVec 3) : Laws.EncodeFits.Statement (.vvote g d q) := by
  have := g.isLt; have := d.isLt; have := q.isLt; show 0x7C000009 + g.toNat * 0x400000 + d.toNat * 0x10000 + q.toNat * 0x400 < 2 ^ 32; omega
theorem Laws.EncodeFits.ldw (g : BitVec 4) (d : BitVec 6) (a : BitVec 6) (x : BitVec 3) (y : BitVec 3) (w : BitVec 4) : Laws.EncodeFits.Statement (.ldw g d a x y w) := by
  have := g.isLt; have := d.isLt; have := a.isLt; have := x.isLt; have := y.isLt; have := w.isLt; show 0x80000000 + g.toNat * 0x400000 + d.toNat * 0x10000 + a.toNat * 0x400 + x.toNat * 0x80 + y.toNat * 0x10 + w.toNat * 0x1 < 2 ^ 32; omega
theorem Laws.EncodeFits.stw (g : BitVec 4) (s : BitVec 6) (a : BitVec 6) (x : BitVec 3) (y : BitVec 3) (w : BitVec 4) : Laws.EncodeFits.Statement (.stw g s a x y w) := by
  have := g.isLt; have := s.isLt; have := a.isLt; have := x.isLt; have := y.isLt; have := w.isLt; show 0x84000000 + g.toNat * 0x400000 + s.toNat * 0x10000 + a.toNat * 0x400 + x.toNat * 0x80 + y.toNat * 0x10 + w.toNat * 0x1 < 2 ^ 32; omega
theorem Laws.EncodeFits.ldeB (g : BitVec 4) (d : BitVec 6) (a : BitVec 6) (w : BitVec 4) : Laws.EncodeFits.Statement (.ldeB g d a w) := by
  have := g.isLt; have := d.isLt; have := a.isLt; have := w.isLt; show 0x88000000 + g.toNat * 0x400000 + d.toNat * 0x10000 + a.toNat * 0x400 + w.toNat * 0x1 < 2 ^ 32; omega
theorem Laws.EncodeFits.ldeI (g : BitVec 4) (d : BitVec 6) (a : BitVec 6) (w : BitVec 4) : Laws.EncodeFits.Statement (.ldeI g d a w) := by
  have := g.isLt; have := d.isLt; have := a.isLt; have := w.isLt; show 0x88000010 + g.toNat * 0x400000 + d.toNat * 0x10000 + a.toNat * 0x400 + w.toNat * 0x1 < 2 ^ 32; omega
theorem Laws.EncodeFits.ste (g : BitVec 4) (s : BitVec 6) (a : BitVec 6) (w : BitVec 4) : Laws.EncodeFits.Statement (.ste g s a w) := by
  have := g.isLt; have := s.isLt; have := a.isLt; have := w.isLt; show 0x88000020 + g.toNat * 0x400000 + s.toNat * 0x10000 + a.toNat * 0x400 + w.toNat * 0x1 < 2 ^ 32; omega
theorem Laws.EncodeFits.vamoAdd (g : BitVec 4) (d : BitVec 6) (a : BitVec 6) (w : BitVec 4) : Laws.EncodeFits.Statement (.vamoAdd g d a w) := by
  have := g.isLt; have := d.isLt; have := a.isLt; have := w.isLt; show 0x8C000000 + g.toNat * 0x400000 + d.toNat * 0x10000 + a.toNat * 0x400 + w.toNat * 0x1 < 2 ^ 32; omega
theorem Laws.EncodeFits.vamoMinI (g : BitVec 4) (d : BitVec 6) (a : BitVec 6) (w : BitVec 4) : Laws.EncodeFits.Statement (.vamoMinI g d a w) := by
  have := g.isLt; have := d.isLt; have := a.isLt; have := w.isLt; show 0x8C000010 + g.toNat * 0x400000 + d.toNat * 0x10000 + a.toNat * 0x400 + w.toNat * 0x1 < 2 ^ 32; omega
theorem Laws.EncodeFits.vamoMaxI (g : BitVec 4) (d : BitVec 6) (a : BitVec 6) (w : BitVec 4) : Laws.EncodeFits.Statement (.vamoMaxI g d a w) := by
  have := g.isLt; have := d.isLt; have := a.isLt; have := w.isLt; show 0x8C000020 + g.toNat * 0x400000 + d.toNat * 0x10000 + a.toNat * 0x400 + w.toNat * 0x1 < 2 ^ 32; omega
theorem Laws.EncodeFits.vamoAnd (g : BitVec 4) (d : BitVec 6) (a : BitVec 6) (w : BitVec 4) : Laws.EncodeFits.Statement (.vamoAnd g d a w) := by
  have := g.isLt; have := d.isLt; have := a.isLt; have := w.isLt; show 0x8C000030 + g.toNat * 0x400000 + d.toNat * 0x10000 + a.toNat * 0x400 + w.toNat * 0x1 < 2 ^ 32; omega
theorem Laws.EncodeFits.vamoOr (g : BitVec 4) (d : BitVec 6) (a : BitVec 6) (w : BitVec 4) : Laws.EncodeFits.Statement (.vamoOr g d a w) := by
  have := g.isLt; have := d.isLt; have := a.isLt; have := w.isLt; show 0x8C000040 + g.toNat * 0x400000 + d.toNat * 0x10000 + a.toNat * 0x400 + w.toNat * 0x1 < 2 ^ 32; omega
theorem Laws.EncodeFits.vamoXor (g : BitVec 4) (d : BitVec 6) (a : BitVec 6) (w : BitVec 4) : Laws.EncodeFits.Statement (.vamoXor g d a w) := by
  have := g.isLt; have := d.isLt; have := a.isLt; have := w.isLt; show 0x8C000050 + g.toNat * 0x400000 + d.toNat * 0x10000 + a.toNat * 0x400 + w.toNat * 0x1 < 2 ^ 32; omega
theorem Laws.EncodeFits.vamoSwap (g : BitVec 4) (d : BitVec 6) (a : BitVec 6) (w : BitVec 4) : Laws.EncodeFits.Statement (.vamoSwap g d a w) := by
  have := g.isLt; have := d.isLt; have := a.isLt; have := w.isLt; show 0x8C000060 + g.toNat * 0x400000 + d.toNat * 0x10000 + a.toNat * 0x400 + w.toNat * 0x1 < 2 ^ 32; omega
theorem Laws.EncodeFits.vamoCas (g : BitVec 4) (d : BitVec 6) (a : BitVec 6) (w : BitVec 4) : Laws.EncodeFits.Statement (.vamoCas g d a w) := by
  have := g.isLt; have := d.isLt; have := a.isLt; have := w.isLt; show 0x8C000070 + g.toNat * 0x400000 + d.toNat * 0x10000 + a.toNat * 0x400 + w.toNat * 0x1 < 2 ^ 32; omega
theorem Laws.EncodeFits.vamoBfadd (g : BitVec 4) (d : BitVec 6) (a : BitVec 6) (w : BitVec 4) : Laws.EncodeFits.Statement (.vamoBfadd g d a w) := by
  have := g.isLt; have := d.isLt; have := a.isLt; have := w.isLt; show 0x8C000080 + g.toNat * 0x400000 + d.toNat * 0x10000 + a.toNat * 0x400 + w.toNat * 0x1 < 2 ^ 32; omega
theorem Laws.EncodeFits.vamoMinB (g : BitVec 4) (d : BitVec 6) (a : BitVec 6) (w : BitVec 4) : Laws.EncodeFits.Statement (.vamoMinB g d a w) := by
  have := g.isLt; have := d.isLt; have := a.isLt; have := w.isLt; show 0x8C000090 + g.toNat * 0x400000 + d.toNat * 0x10000 + a.toNat * 0x400 + w.toNat * 0x1 < 2 ^ 32; omega
theorem Laws.EncodeFits.vamoMaxB (g : BitVec 4) (d : BitVec 6) (a : BitVec 6) (w : BitVec 4) : Laws.EncodeFits.Statement (.vamoMaxB g d a w) := by
  have := g.isLt; have := d.isLt; have := a.isLt; have := w.isLt; show 0x8C0000A0 + g.toNat * 0x400000 + d.toNat * 0x10000 + a.toNat * 0x400 + w.toNat * 0x1 < 2 ^ 32; omega
theorem Laws.EncodeFits.lcopy (a : BitVec 5) (c : BitVec 5) (v : BitVec 6) (d : BitVec 6) (n : BitVec 1) (q : BitVec 3) : Laws.EncodeFits.Statement (.lcopy a c v d n q) := by
  have := a.isLt; have := c.isLt; have := v.isLt; have := d.isLt; have := n.isLt; have := q.isLt; show 0x90000000 + a.toNat * 0x200000 + c.toNat * 0x10000 + v.toNat * 0x400 + d.toNat * 0x10 + n.toNat * 0x8 + q.toNat * 0x1 < 2 ^ 32; omega
theorem Laws.EncodeFits.own (e : BitVec 3) : Laws.EncodeFits.Statement (.own e) := by
  have := e.isLt; show 0x94000000 + e.toNat * 0x8 < 2 ^ 32; omega
theorem Laws.EncodeFits.give (s : BitVec 5) (e : BitVec 3) : Laws.EncodeFits.Statement (.give s e) := by
  have := s.isLt; have := e.isLt; show 0x94000001 + s.toNat * 0x200000 + e.toNat * 0x8 < 2 ^ 32; omega
theorem Laws.EncodeFits.share (e : BitVec 3) : Laws.EncodeFits.Statement (.share e) := by
  have := e.isLt; show 0x94000002 + e.toNat * 0x8 < 2 ^ 32; omega
theorem Laws.EncodeFits.claim (e : BitVec 3) : Laws.EncodeFits.Statement (.claim e) := by
  have := e.isLt; show 0x94000003 + e.toNat * 0x8 < 2 ^ 32; omega
theorem Laws.EncodeFits.pass (s : BitVec 5) (e : BitVec 3) : Laws.EncodeFits.Statement (.pass s e) := by
  have := s.isLt; have := e.isLt; show 0x94000004 + s.toNat * 0x200000 + e.toNat * 0x8 < 2 ^ 32; omega
theorem Laws.EncodeFits.probe (d : BitVec 5) (a : BitVec 5) : Laws.EncodeFits.Statement (.probe d a) := by
  have := d.isLt; have := a.isLt; show 0x94000005 + d.toNat * 0x200000 + a.toNat * 0x10000 < 2 ^ 32; omega
theorem Laws.EncodeFits.rset (s : BitVec 5) (e : BitVec 3) : Laws.EncodeFits.Statement (.rset s e) := by
  have := s.isLt; have := e.isLt; show 0x9C000000 + s.toNat * 0x200000 + e.toNat * 0x8 < 2 ^ 32; omega
theorem Laws.EncodeFits.rget (d : BitVec 5) (e : BitVec 3) : Laws.EncodeFits.Statement (.rget d e) := by
  have := d.isLt; have := e.isLt; show 0x9C000001 + d.toNat * 0x200000 + e.toNat * 0x8 < 2 ^ 32; omega
theorem Laws.EncodeFits.rmov (f : BitVec 3) (e : BitVec 3) : Laws.EncodeFits.Statement (.rmov f e) := by
  have := f.isLt; have := e.isLt; show 0x9C000002 + f.toNat * 0x40 + e.toNat * 0x8 < 2 ^ 32; omega
theorem Laws.EncodeFits.radj (a : BitVec 5) (b : BitVec 5) (t : BitVec 3) (e : BitVec 3) : Laws.EncodeFits.Statement (.radj a b t e) := by
  have := a.isLt; have := b.isLt; have := t.isLt; have := e.isLt; show 0x9C000003 + a.toNat * 0x200000 + b.toNat * 0x10000 + t.toNat * 0x200 + e.toNat * 0x8 < 2 ^ 32; omega
theorem Laws.EncodeFits.scroll (e : BitVec 3) (x : BitVec 9) (y : BitVec 9) (m : BitVec 3) : Laws.EncodeFits.Statement (.scroll e x y m) := by
  have := e.isLt; have := x.isLt; have := y.isLt; have := m.isLt; show 0xA0000000 + e.toNat * 0x800000 + x.toNat * 0x4000 + y.toNat * 0x20 + m.toNat * 0x4 < 2 ^ 32; omega
theorem Laws.EncodeFits.scrollReg (e : BitVec 3) (a : BitVec 5) (b : BitVec 5) (m : BitVec 3) : Laws.EncodeFits.Statement (.scrollReg e a b m) := by
  have := e.isLt; have := a.isLt; have := b.isLt; have := m.isLt; show 0xA0000001 + e.toNat * 0x800000 + a.toNat * 0x4000 + b.toNat * 0x20 + m.toNat * 0x4 < 2 ^ 32; omega
theorem Laws.EncodeFits.scrollResume : Laws.EncodeFits.Statement (.scrollResume) := by
  show 0xA0000002 < 2 ^ 32; omega
theorem Laws.EncodeFits.pfill (e : BitVec 3) : Laws.EncodeFits.Statement (.pfill e) := by
  have := e.isLt; show 0xA4000000 + e.toNat * 0x800000 < 2 ^ 32; omega
theorem Laws.EncodeFits.pfillZero (e : BitVec 3) : Laws.EncodeFits.Statement (.pfillZero e) := by
  have := e.isLt; show 0xA4000004 + e.toNat * 0x800000 < 2 ^ 32; omega
theorem Laws.EncodeFits.pfillScalar (e : BitVec 3) (s : BitVec 5) : Laws.EncodeFits.Statement (.pfillScalar e s) := by
  have := e.isLt; have := s.isLt; show 0xA4000001 + e.toNat * 0x800000 + s.toNat * 0x4000 < 2 ^ 32; omega
theorem Laws.EncodeFits.mloop (z : BitVec 2) (a : BitVec 6) (d : BitVec 5) (b : BitVec 5) (f : BitVec 5) (s : BitVec 2) (k : BitVec 1) : Laws.EncodeFits.Statement (.mloop z a d b f s k) := by
  have := z.isLt; have := a.isLt; have := d.isLt; have := b.isLt; have := f.isLt; have := s.isLt; have := k.isLt; show 0xA8000000 + z.toNat * 0x1000000 + a.toNat * 0x40000 + d.toNat * 0x2000 + b.toNat * 0x100 + f.toNat * 0x8 + s.toNat * 0x2 + k.toNat * 0x1 < 2 ^ 32; omega
theorem Laws.EncodeFits.mcommit : Laws.EncodeFits.Statement (.mcommit) := by
  show 0xAC000000 < 2 ^ 32; omega
theorem Laws.EncodeFits.mwait (n : BitVec 3) : Laws.EncodeFits.Statement (.mwait n) := by
  have := n.isLt; show 0xAC000001 + n.toNat * 0x10 < 2 ^ 32; omega
theorem Laws.EncodeFits.zclr (z : BitVec 2) : Laws.EncodeFits.Statement (.zclr z) := by
  have := z.isLt; show 0xAC000002 + z.toNat * 0x10 < 2 ^ 32; omega
theorem Laws.EncodeFits.zld (s : BitVec 5) (z : BitVec 2) : Laws.EncodeFits.Statement (.zld s z) := by
  have := s.isLt; have := z.isLt; show 0xAC000003 + s.toNat * 0x200000 + z.toNat * 0x10 < 2 ^ 32; omega
theorem Laws.EncodeFits.zst (s : BitVec 5) (z : BitVec 2) : Laws.EncodeFits.Statement (.zst s z) := by
  have := s.isLt; have := z.isLt; show 0xAC000004 + s.toNat * 0x200000 + z.toNat * 0x10 < 2 ^ 32; omega
theorem Laws.EncodeFits.zmov (m : BitVec 2) (n : BitVec 2) : Laws.EncodeFits.Statement (.zmov m n) := by
  have := m.isLt; have := n.isLt; show 0xAC000005 + m.toNat * 0x40 + n.toNat * 0x10 < 2 ^ 32; omega
theorem Laws.EncodeFits.zcvt (s : BitVec 5) (i : BitVec 1) (r : BitVec 2) (f : BitVec 2) (z : BitVec 2) : Laws.EncodeFits.Statement (.zcvt s i r f z) := by
  have := s.isLt; have := i.isLt; have := r.isLt; have := f.isLt; have := z.isLt; show 0xAC000006 + s.toNat * 0x200000 + i.toNat * 0x2000 + r.toNat * 0x400 + f.toNat * 0x100 + z.toNat * 0x10 < 2 ^ 32; omega
theorem Laws.EncodeFits.zcvtReg (d : BitVec 6) (i : BitVec 1) (r : BitVec 2) (f : BitVec 2) (z : BitVec 2) : Laws.EncodeFits.Statement (.zcvtReg d i r f z) := by
  have := d.isLt; have := i.isLt; have := r.isLt; have := f.isLt; have := z.isLt; show 0xAC001006 + d.toNat * 0x10000 + i.toNat * 0x2000 + r.toNat * 0x400 + f.toNat * 0x100 + z.toNat * 0x10 < 2 ^ 32; omega
theorem Laws.EncodeFits.binit (a : BitVec 5) (b : BitVec 5) (f : BitVec 1) : Laws.EncodeFits.Statement (.binit a b f) := by
  have := a.isLt; have := b.isLt; have := f.isLt; show 0xB4000000 + a.toNat * 0x200000 + b.toNat * 0x10000 + f.toNat * 0x8 < 2 ^ 32; omega
theorem Laws.EncodeFits.barrive (a : BitVec 5) (b : BitVec 5) (g : BitVec 4) (f : BitVec 1) : Laws.EncodeFits.Statement (.barrive a b g f) := by
  have := a.isLt; have := b.isLt; have := g.isLt; have := f.isLt; show 0xB4000001 + a.toNat * 0x200000 + b.toNat * 0x10000 + g.toNat * 0x1000 + f.toNat * 0x8 < 2 ^ 32; omega
theorem Laws.EncodeFits.bwait (a : BitVec 5) (b : BitVec 5) : Laws.EncodeFits.Statement (.bwait a b) := by
  have := a.isLt; have := b.isLt; show 0xB4000002 + a.toNat * 0x200000 + b.toNat * 0x10000 < 2 ^ 32; omega
theorem Laws.EncodeFits.btest (a : BitVec 5) (b : BitVec 5) : Laws.EncodeFits.Statement (.btest a b) := by
  have := a.isLt; have := b.isLt; show 0xB4000003 + a.toNat * 0x200000 + b.toNat * 0x10000 < 2 ^ 32; omega
theorem Laws.EncodeFits.bexpect (a : BitVec 5) (b : BitVec 5) : Laws.EncodeFits.Statement (.bexpect a b) := by
  have := a.isLt; have := b.isLt; show 0xB4000004 + a.toNat * 0x200000 + b.toNat * 0x10000 < 2 ^ 32; omega
theorem Laws.EncodeFits.semwait (c : BitVec 4) (b : BitVec 5) (n : BitVec 10) (s : BitVec 3) : Laws.EncodeFits.Statement (.semwait c b n s) := by
  have := c.isLt; have := b.isLt; have := n.isLt; have := s.isLt; show 0xB8000000 + c.toNat * 0x200000 + b.toNat * 0x10000 + n.toNat * 0x40 + s.toNat * 0x8 < 2 ^ 32; omega
theorem Laws.EncodeFits.sempost (c : BitVec 4) (b : BitVec 5) (n : BitVec 10) (s : BitVec 3) : Laws.EncodeFits.Statement (.sempost c b n s) := by
  have := c.isLt; have := b.isLt; have := n.isLt; have := s.isLt; show 0xB8000001 + c.toNat * 0x200000 + b.toNat * 0x10000 + n.toNat * 0x40 + s.toNat * 0x8 < 2 ^ 32; omega
theorem Laws.EncodeFits.park (c : BitVec 4) (b : BitVec 5) (s : BitVec 3) : Laws.EncodeFits.Statement (.park c b s) := by
  have := c.isLt; have := b.isLt; have := s.isLt; show 0xB8000002 + c.toNat * 0x200000 + b.toNat * 0x10000 + s.toNat * 0x8 < 2 ^ 32; omega
theorem Laws.EncodeFits.qkick (l : BitVec 5) (p : BitVec 5) (n : BitVec 5) : Laws.EncodeFits.Statement (.qkick l p n) := by
  have := l.isLt; have := p.isLt; have := n.isLt; show 0xBC000000 + l.toNat * 0x200000 + p.toNat * 0x10000 + n.toNat * 0x800 < 2 ^ 32; omega
theorem Laws.EncodeFits.qdrain : Laws.EncodeFits.Statement (.qdrain) := by
  show 0xBC000001 < 2 ^ 32; omega
theorem Laws.EncodeFits.qstat (d : BitVec 5) : Laws.EncodeFits.Statement (.qstat d) := by
  have := d.isLt; show 0xBC000002 + d.toNat * 0x200000 < 2 ^ 32; omega
theorem Laws.EncodeFits.qcancel (d : BitVec 5) (a : BitVec 5) : Laws.EncodeFits.Statement (.qcancel d a) := by
  have := d.isLt; have := a.isLt; show 0xBC000003 + d.toNat * 0x200000 + a.toNat * 0x10000 < 2 ^ 32; omega
theorem Laws.EncodeFits.ssubNib (b : BitVec 5) (s : BitVec 6) : Laws.EncodeFits.Statement (.ssubNib b s) := by
  have := b.isLt; have := s.isLt; show 0xC0000000 + b.toNat * 0x10000 + s.toNat * 0x400 < 2 ^ 32; omega
theorem Laws.EncodeFits.ssubCell (a : BitVec 5) (b : BitVec 5) (s : BitVec 6) (e : BitVec 3) : Laws.EncodeFits.Statement (.ssubCell a b s e) := by
  have := a.isLt; have := b.isLt; have := s.isLt; have := e.isLt; show 0xC0000001 + a.toNat * 0x200000 + b.toNat * 0x10000 + s.toNat * 0x400 + e.toNat * 0x40 < 2 ^ 32; omega
theorem Laws.EncodeFits.sunsub (s : BitVec 6) : Laws.EncodeFits.Statement (.sunsub s) := by
  have := s.isLt; show 0xC0000002 + s.toNat * 0x400 < 2 ^ 32; omega
theorem Laws.EncodeFits.spub (a : BitVec 5) (s : BitVec 6) : Laws.EncodeFits.Statement (.spub a s) := by
  have := a.isLt; have := s.isLt; show 0xC0000003 + a.toNat * 0x200000 + s.toNat * 0x400 < 2 ^ 32; omega
theorem Laws.EncodeFits.coll (a : BitVec 5) (b : BitVec 5) : Laws.EncodeFits.Statement (.coll a b) := by
  have := a.isLt; have := b.isLt; show 0xC4000000 + a.toNat * 0x200000 + b.toNat * 0x10000 < 2 ^ 32; omega
theorem Laws.EncodeFits.stepb (a : BitVec 5) (b : BitVec 5) (i : BitVec 12) : Laws.EncodeFits.Statement (.stepb a b i) := by
  have := a.isLt; have := b.isLt; have := i.isLt; show 0xC8000000 + a.toNat * 0x200000 + b.toNat * 0x10000 + i.toNat * 0x4 < 2 ^ 32; omega
theorem Laws.EncodeFits.stepe (i : BitVec 12) : Laws.EncodeFits.Statement (.stepe i) := by
  have := i.isLt; show 0xC8000001 + i.toNat * 0x4 < 2 ^ 32; omega
theorem Laws.EncodeFits.mark (a : BitVec 5) (n : BitVec 12) : Laws.EncodeFits.Statement (.mark a n) := by
  have := a.isLt; have := n.isLt; show 0xCC000000 + a.toNat * 0x200000 + n.toNat * 0x10 < 2 ^ 32; omega
theorem Laws.EncodeFits.lcopyLanding (k : Nat) : Laws.EncodeFits.Statement (.lcopyLanding k) := by
  show 0 < 2 ^ 32; omega
theorem Laws.EncodeFits.unitStep (sid : Nat) : Laws.EncodeFits.Statement (.unitStep sid) := by
  show 0 < 2 ^ 32; omega
theorem Laws.EncodeFits.planeFillWrite (sid : Nat) : Laws.EncodeFits.Statement (.planeFillWrite sid) := by
  show 0 < 2 ^ 32; omega
theorem Laws.EncodeFits.loopStep (n lane : Nat) : Laws.EncodeFits.Statement (.loopStep n lane) := by
  show 0 < 2 ^ 32; omega
theorem Laws.EncodeFits.loopCompletion (n : Nat) : Laws.EncodeFits.Statement (.loopCompletion n) := by
  show 0 < 2 ^ 32; omega
theorem Laws.EncodeFits.semwaitRetry (sid : Nat) : Laws.EncodeFits.Statement (.semwaitRetry sid) := by
  show 0 < 2 ^ 32; omega
theorem Laws.EncodeFits.watchWake (sid : Nat) : Laws.EncodeFits.Statement (.watchWake sid) := by
  show 0 < 2 ^ 32; omega
theorem Laws.EncodeFits.lineRequest (k : Nat) : Laws.EncodeFits.Statement (.lineRequest k) := by
  show 0 < 2 ^ 32; omega
theorem Laws.EncodeFits.completionRecord (k : Nat) : Laws.EncodeFits.Statement (.completionRecord k) := by
  show 0 < 2 ^ 32; omega
theorem Laws.EncodeFits.chunk (stream sub : Nat) : Laws.EncodeFits.Statement (.chunk stream sub) := by
  show 0 < 2 ^ 32; omega
theorem Laws.EncodeFits.cellRingSlotLanding (stream sub : Nat) : Laws.EncodeFits.Statement (.cellRingSlotLanding stream sub) := by
  show 0 < 2 ^ 32; omega
theorem Laws.EncodeFits.contribution (m : Contrib) : Laws.EncodeFits.Statement (.contribution m) := by
  show 0 < 2 ^ 32; omega
theorem Laws.EncodeFits.contributionTimeout (k : Nat) : Laws.EncodeFits.Statement (.contributionTimeout k) := by
  show 0 < 2 ^ 32; omega
theorem Laws.EncodeFits.resolution (sid tag : Nat) : Laws.EncodeFits.Statement (.resolution sid tag) := by
  show 0 < 2 ^ 32; omega
theorem Laws.EncodeFits.wetAccessFault (sid tag cause : Nat) : Laws.EncodeFits.Statement (.wetAccessFault sid tag cause) := by
  show 0 < 2 ^ 32; omega
theorem Laws.EncodeFits.deliverableEventEntry : Laws.EncodeFits.Statement (.deliverableEventEntry) := by
  show 0 < 2 ^ 32; omega
theorem Laws.EncodeFits.urgent (sid : Nat) : Laws.EncodeFits.Statement (.urgent sid) := by
  show 0 < 2 ^ 32; omega
theorem Laws.EncodeFits.teamPlacement (die : Nat) : Laws.EncodeFits.Statement (.teamPlacement die) := by
  show 0 < 2 ^ 32; omega
theorem Laws.EncodeFits.drainToFit (die : Nat) : Laws.EncodeFits.Statement (.drainToFit die) := by
  show 0 < 2 ^ 32; omega
theorem Laws.EncodeFits.batchDispatch : Laws.EncodeFits.Statement (.batchDispatch) := by
  show 0 < 2 ^ 32; omega
theorem Laws.EncodeFits.launch (q : Nat) : Laws.EncodeFits.Statement (.launch q) := by
  show 0 < 2 ^ 32; omega
theorem Laws.EncodeFits.copy (q : Nat) : Laws.EncodeFits.Statement (.copy q) := by
  show 0 < 2 ^ 32; omega
theorem Laws.EncodeFits.wait (q : Nat) : Laws.EncodeFits.Statement (.wait q) := by
  show 0 < 2 ^ 32; omega
theorem Laws.EncodeFits.signal (q : Nat) : Laws.EncodeFits.Statement (.signal q) := by
  show 0 < 2 ^ 32; omega
theorem Laws.EncodeFits.marker (q : Nat) : Laws.EncodeFits.Statement (.marker q) := by
  show 0 < 2 ^ 32; omega
theorem Laws.EncodeFits.traceOpen (q : Nat) : Laws.EncodeFits.Statement (.traceOpen q) := by
  show 0 < 2 ^ 32; omega
theorem Laws.EncodeFits.traceClose (q : Nat) : Laws.EncodeFits.Statement (.traceClose q) := by
  show 0 < 2 ^ 32; omega
theorem Laws.EncodeFits.traceFlush (q : Nat) : Laws.EncodeFits.Statement (.traceFlush q) := by
  show 0 < 2 ^ 32; omega
theorem Laws.EncodeFits.launchCompletion (n : Nat) : Laws.EncodeFits.Statement (.launchCompletion n) := by
  show 0 < 2 ^ 32; omega
theorem Laws.EncodeFits.tail (q : Nat) (v : BitVec 32) : Laws.EncodeFits.Statement (.tail q v) := by
  have := v.isLt; show 0 < 2 ^ 32; omega
theorem Laws.EncodeFits.ctrlRestart (q : Nat) : Laws.EncodeFits.Statement (.ctrlRestart q) := by
  show 0 < 2 ^ 32; omega
theorem Laws.EncodeFits.ctrlReset (q : Nat) : Laws.EncodeFits.Statement (.ctrlReset q) := by
  show 0 < 2 ^ 32; omega
theorem Laws.EncodeFits.translationWalk (asid : Nat) (w : WalkReq) : Laws.EncodeFits.Statement (.translationWalk asid w) := by
  show 0 < 2 ^ 32; omega
theorem Laws.EncodeFits.ccntAdvance (asid : Nat) (v : BitVec 64) : Laws.EncodeFits.Statement (.ccntAdvance asid v) := by
  have := v.isLt; show 0 < 2 ^ 32; omega
theorem Laws.EncodeFits.asidInvalidate (asid lo hi : Nat) : Laws.EncodeFits.Statement (.asidInvalidate asid lo hi) := by
  show 0 < 2 ^ 32; omega
theorem Laws.EncodeFits.preemption (team : Nat) : Laws.EncodeFits.Statement (.preemption team) := by
  show 0 < 2 ^ 32; omega
theorem Laws.EncodeFits.contextRestore (r : Restore) : Laws.EncodeFits.Statement (.contextRestore r) := by
  show 0 < 2 ^ 32; omega
theorem Laws.EncodeFits.watchdog (asid : Nat) : Laws.EncodeFits.Statement (.watchdog asid) := by
  show 0 < 2 ^ 32; omega
theorem Laws.EncodeFits.rollback (team : Nat) : Laws.EncodeFits.Statement (.rollback team) := by
  show 0 < 2 ^ 32; omega
theorem Laws.EncodeFits.refreshDoubled (die : Nat) (r : LayerReading) : Laws.EncodeFits.Statement (.refreshDoubled die r) := by
  show 0 < 2 ^ 32; omega
theorem Laws.EncodeFits.refreshNormal (die : Nat) (r : LayerReading) : Laws.EncodeFits.Statement (.refreshNormal die r) := by
  show 0 < 2 ^ 32; omega
theorem Laws.EncodeFits.layerTripped (die : Nat) (r : LayerReading) : Laws.EncodeFits.Statement (.layerTripped die r) := by
  show 0 < 2 ^ 32; omega
theorem Laws.EncodeFits.layerServesAgain (die : Nat) (r : LayerReading) : Laws.EncodeFits.Statement (.layerServesAgain die r) := by
  show 0 < 2 ^ 32; omega
theorem Laws.EncodeFits.ductusDecision : Laws.EncodeFits.Statement (.ductusDecision) := by
  show 0 < 2 ^ 32; omega
theorem Laws.EncodeFits.clockRaise (isl : Nat) : Laws.EncodeFits.Statement (.clockRaise isl) := by
  show 0 < 2 ^ 32; omega
theorem Laws.EncodeFits.retentionEntry (isl : Nat) : Laws.EncodeFits.Statement (.retentionEntry isl) := by
  show 0 < 2 ^ 32; omega
theorem Laws.EncodeFits.retentionWake (isl : Nat) : Laws.EncodeFits.Statement (.retentionWake isl) := by
  show 0 < 2 ^ 32; omega
theorem Laws.EncodeFits.coolantHot : Laws.EncodeFits.Statement (.coolantHot) := by
  show 0 < 2 ^ 32; omega
theorem Laws.EncodeFits.coolantNormal : Laws.EncodeFits.Statement (.coolantNormal) := by
  show 0 < 2 ^ 32; omega
theorem Laws.EncodeFits.boot : Laws.EncodeFits.Statement (.boot) := by
  show 0 < 2 ^ 32; omega
theorem Laws.EncodeFits.challengeAuth (transcript : Nat) : Laws.EncodeFits.Statement (.challengeAuth transcript) := by
  show 0 < 2 ^ 32; omega
theorem Laws.EncodeFits.measurements (transcript : Nat) : Laws.EncodeFits.Statement (.measurements transcript) := by
  show 0 < 2 ^ 32; omega
theorem Laws.EncodeFits.status : Laws.EncodeFits.Statement (.status) := by
  show 0 < 2 ^ 32; omega
theorem Laws.EncodeFits.flashwrite (slot : Nat) (data : List (BitVec 8)) : Laws.EncodeFits.Statement (.flashwrite slot data) := by
  show 0 < 2 ^ 32; omega
theorem Laws.EncodeFits.qcreate (q asid prio : Nat) (ring : BitVec 64) (n : Nat) (cring : BitVec 64) (m : Nat) : Laws.EncodeFits.Statement (.qcreate q asid prio ring n cring m) := by
  have := ring.isLt; have := cring.isLt; show 0 < 2 ^ 32; omega
theorem Laws.EncodeFits.notify (base : BitVec 64) (n : Nat) : Laws.EncodeFits.Statement (.notify base n) := by
  have := base.isLt; show 0 < 2 ^ 32; omega
theorem Laws.EncodeFits.halt (whole : Bool) (id : Nat) : Laws.EncodeFits.Statement (.halt whole id) := by
  show 0 < 2 ^ 32; omega
theorem Laws.EncodeFits.read (sid : Nat) (r : RegName) : Laws.EncodeFits.Statement (.read sid r) := by
  show 0 < 2 ^ 32; omega
theorem Laws.EncodeFits.write (sid : Nat) (r : RegName) (v : BitVec 128) : Laws.EncodeFits.Statement (.write sid r v) := by
  have := v.isLt; show 0 < 2 ^ 32; omega
theorem Laws.EncodeFits.step (sid : Nat) : Laws.EncodeFits.Statement (.step sid) := by
  show 0 < 2 ^ 32; omega
theorem Laws.EncodeFits.resume (sid : Nat) : Laws.EncodeFits.Statement (.resume sid) := by
  show 0 < 2 ^ 32; omega
theorem Laws.EncodeFits.contextRecordWrite (r : CtxRec) : Laws.EncodeFits.Statement (.contextRecordWrite r) := by
  show 0 < 2 ^ 32; omega
theorem Laws.EncodeFits.quotaWrite (core asid : Nat) (v : BitVec 64) : Laws.EncodeFits.Statement (.quotaWrite core asid v) := by
  have := v.isLt; show 0 < 2 ^ 32; omega
theorem Laws.EncodeFits.windowBind (asid lo hi : Nat) : Laws.EncodeFits.Statement (.windowBind asid lo hi) := by
  show 0 < 2 ^ 32; omega
theorem Laws.EncodeFits.logRead (r : MailRead) : Laws.EncodeFits.Statement (.logRead r) := by
  show 0 < 2 ^ 32; omega
theorem Laws.EncodeFits.ageingRead (cluster : Nat) : Laws.EncodeFits.Statement (.ageingRead cluster) := by
  show 0 < 2 ^ 32; omega
theorem Laws.EncodeFits.hostWindowAccess (n addr width : Nat) (a : HostAccess) : Laws.EncodeFits.Statement (.hostWindowAccess n addr width a) := by
  show 0 < 2 ^ 32; omega
theorem Laws.EncodeFits.folioDrain (cluster : Nat) : Laws.EncodeFits.Statement (.folioDrain cluster) := by
  show 0 < 2 ^ 32; omega
theorem Laws.EncodeFits.powerGate (cluster : Nat) (forced : Bool) : Laws.EncodeFits.Statement (.powerGate cluster forced) := by
  show 0 < 2 ^ 32; omega
theorem Laws.EncodeFits.flitRetry (e : FlitEvent) : Laws.EncodeFits.Statement (.flitRetry e) := by
  show 0 < 2 ^ 32; omega
theorem Laws.EncodeFits.portDown (port : Nat) : Laws.EncodeFits.Statement (.portDown port) := by
  show 0 < 2 ^ 32; omega
theorem Laws.EncodeFits.peerUnreachable (pkg : Nat) (sid : Option Nat) : Laws.EncodeFits.Statement (.peerUnreachable pkg sid) := by
  show 0 < 2 ^ 32; omega
theorem Laws.EncodeFits.peerRequest (src : Nat) (r : PeerReq) : Laws.EncodeFits.Statement (.peerRequest src r) := by
  show 0 < 2 ^ 32; omega
theorem Laws.EncodeFits.islandCycle (isl : Nat) : Laws.EncodeFits.Statement (.islandCycle isl) := by
  show 0 < 2 ^ 32; omega
theorem Laws.EncodeFits.illegalWord (w : BitVec 32) : Laws.EncodeFits.Statement (.illegalWord w) := by
  have := w.isLt; show 0 < 2 ^ 32; omega
theorem Laws.EncodeFits.clauseHeaderFetch (w : BitVec 32) : Laws.EncodeFits.Statement (.clauseHeaderFetch w) := by
  have := w.isLt; show 0 < 2 ^ 32; omega
theorem Laws.EncodeFits.storageError (e : StorageErr) : Laws.EncodeFits.Statement (.storageError e) := by
  show 0 < 2 ^ 32; omega
theorem Laws.EncodeFits.holeAdded (x y : Nat) : Laws.EncodeFits.Statement (.holeAdded x y) := by
  show 0 < 2 ^ 32; omega
theorem Laws.EncodeFits.portUp (port pkg : Nat) : Laws.EncodeFits.Statement (.portUp port pkg) := by
  show 0 < 2 ^ 32; omega

/-- The word of an instruction, read back as a number, is the number that the encoder laid out. -/
theorem encode_toNat {i : Instr} (h : Laws.EncodeFits.Statement i) : (encode i).toNat = encodeNat i := by
  have h' : encodeNat i < 2 ^ 32 := h
  simp only [encode, BitVec.toNat_ofNat]
  exact Nat.mod_eq_of_lt h'

end Sys2Proof
end

