-- ==== Sys2Proof/Laws/State.lean ====
section
/-! SUPPORT. What each update of a state leaves alone, field by field: no later proof unfolds a record update. -/

namespace Sys2Proof.Machine

open Sys2Proof

variable (s : State)

/-! ## State.onR -/

@[simp] theorem State.onR_others (f : Regs → Regs) : (s.onR f).others = s.others := rfl
@[simp] theorem State.onR_time (f : Regs → Regs) : (s.onR f).time = s.time := rfl
@[simp] theorem State.onR_agenda (f : Regs → Regs) : (s.onR f).agenda = s.agenda := rfl
@[simp] theorem State.onR_arrivals (f : Regs → Regs) : (s.onR f).arrivals = s.arrivals := rfl
@[simp] theorem State.onR_engineTurn (f : Regs → Regs) : (s.onR f).engineTurn = s.engineTurn := rfl
@[simp] theorem State.onR_freeCount (f : Regs → Regs) : (s.onR f).freeCount = s.freeCount := rfl
@[simp] theorem State.onR_plane (f : Regs → Regs) : (s.onR f).plane = s.plane := rfl
@[simp] theorem State.onR_lines (f : Regs → Regs) : (s.onR f).lines = s.lines := rfl
@[simp] theorem State.onR_holes (f : Regs → Regs) : (s.onR f).holes = s.holes := rfl
@[simp] theorem State.onR_pendingHoles (f : Regs → Regs) : (s.onR f).pendingHoles = s.pendingHoles := rfl
@[simp] theorem State.onR_bars (f : Regs → Regs) : (s.onR f).bars = s.bars := rfl
@[simp] theorem State.onR_dram (f : Regs → Regs) : (s.onR f).dram = s.dram := rfl
@[simp] theorem State.onR_dramTags (f : Regs → Regs) : (s.onR f).dramTags = s.dramTags := rfl
@[simp] theorem State.onR_eccSoft (f : Regs → Regs) : (s.onR f).eccSoft = s.eccSoft := rfl
@[simp] theorem State.onR_eccHard (f : Regs → Regs) : (s.onR f).eccHard = s.eccHard := rfl
@[simp] theorem State.onR_host (f : Regs → Regs) : (s.onR f).host = s.host := rfl
@[simp] theorem State.onR_hostBad (f : Regs → Regs) : (s.onR f).hostBad = s.hostBad := rfl
@[simp] theorem State.onR_peer (f : Regs → Regs) : (s.onR f).peer = s.peer := rfl
@[simp] theorem State.onR_peerTags (f : Regs → Regs) : (s.onR f).peerTags = s.peerTags := rfl
@[simp] theorem State.onR_peerBad (f : Regs → Regs) : (s.onR f).peerBad = s.peerBad := rfl
@[simp] theorem State.onR_loops (f : Regs → Regs) : (s.onR f).loops = s.loops := rfl
@[simp] theorem State.onR_nextLoop (f : Regs → Regs) : (s.onR f).nextLoop = s.nextLoop := rfl
@[simp] theorem State.onR_copies (f : Regs → Regs) : (s.onR f).copies = s.copies := rfl
@[simp] theorem State.onR_nextCopy (f : Regs → Regs) : (s.onR f).nextCopy = s.nextCopy := rfl
@[simp] theorem State.onR_lcopies (f : Regs → Regs) : (s.onR f).lcopies = s.lcopies := rfl
@[simp] theorem State.onR_nextLcopy (f : Regs → Regs) : (s.onR f).nextLcopy = s.nextLcopy := rfl
@[simp] theorem State.onR_streams (f : Regs → Regs) : (s.onR f).streams = s.streams := rfl
@[simp] theorem State.onR_colls (f : Regs → Regs) : (s.onR f).colls = s.colls := rfl
@[simp] theorem State.onR_heldContribs (f : Regs → Regs) : (s.onR f).heldContribs = s.heldContribs := rfl
@[simp] theorem State.onR_eventsOwed (f : Regs → Regs) : (s.onR f).eventsOwed = s.eventsOwed := rfl
@[simp] theorem State.onR_sentContribs (f : Regs → Regs) : (s.onR f).sentContribs = s.sentContribs := rfl
@[simp] theorem State.onR_launches (f : Regs → Regs) : (s.onR f).launches = s.launches := rfl
@[simp] theorem State.onR_nextLaunch (f : Regs → Regs) : (s.onR f).nextLaunch = s.nextLaunch := rfl
@[simp] theorem State.onR_accepted (f : Regs → Regs) : (s.onR f).accepted = s.accepted := rfl
@[simp] theorem State.onR_teams (f : Regs → Regs) : (s.onR f).teams = s.teams := rfl
@[simp] theorem State.onR_queues (f : Regs → Regs) : (s.onR f).queues = s.queues := rfl
@[simp] theorem State.onR_rrNext (f : Regs → Regs) : (s.onR f).rrNext = s.rrNext := rfl
@[simp] theorem State.onR_ctxs (f : Regs → Regs) : (s.onR f).ctxs = s.ctxs := rfl
@[simp] theorem State.onR_quotas (f : Regs → Regs) : (s.onR f).quotas = s.quotas := rfl
@[simp] theorem State.onR_tlb (f : Regs → Regs) : (s.onR f).tlb = s.tlb := rfl
@[simp] theorem State.onR_faulted (f : Regs → Regs) : (s.onR f).faulted = s.faulted := rfl
@[simp] theorem State.onR_lastProgress (f : Regs → Regs) : (s.onR f).lastProgress = s.lastProgress := rfl
@[simp] theorem State.onR_islands (f : Regs → Regs) : (s.onR f).islands = s.islands := rfl
@[simp] theorem State.onR_clusters (f : Regs → Regs) : (s.onR f).clusters = s.clusters := rfl
@[simp] theorem State.onR_dies (f : Regs → Regs) : (s.onR f).dies = s.dies := rfl
@[simp] theorem State.onR_channels (f : Regs → Regs) : (s.onR f).channels = s.channels := rfl
@[simp] theorem State.onR_logs (f : Regs → Regs) : (s.onR f).logs = s.logs := rfl
@[simp] theorem State.onR_sessions (f : Regs → Regs) : (s.onR f).sessions = s.sessions := rfl
@[simp] theorem State.onR_mgmt (f : Regs → Regs) : (s.onR f).mgmt = s.mgmt := rfl
@[simp] theorem State.onR_ports (f : Regs → Regs) : (s.onR f).ports = s.ports := rfl
@[simp] theorem State.onR_unreachable (f : Regs → Regs) : (s.onR f).unreachable = s.unreachable := rfl
@[simp] theorem State.onR_lastDecision (f : Regs → Regs) : (s.onR f).lastDecision = s.lastDecision := rfl
@[simp] theorem State.onR_at_ (f : Regs → Regs) : (s.onR f).me.at_ = s.me.at_ := rfl
@[simp] theorem State.onR_r (f : Regs → Regs) : (s.onR f).me.r = f s.me.r := rfl
@[simp] theorem State.onR_ctl (f : Regs → Regs) : (s.onR f).me.ctl = s.me.ctl := rfl
@[simp] theorem State.onR_wet (f : Regs → Regs) : (s.onR f).me.wet = s.me.wet := rfl
@[simp] theorem State.onR_run (f : Regs → Regs) : (s.onR f).me.run = s.me.run := rfl

/-! ## State.onCtl -/

@[simp] theorem State.onCtl_others (f : Ctl → Ctl) : (s.onCtl f).others = s.others := rfl
@[simp] theorem State.onCtl_time (f : Ctl → Ctl) : (s.onCtl f).time = s.time := rfl
@[simp] theorem State.onCtl_agenda (f : Ctl → Ctl) : (s.onCtl f).agenda = s.agenda := rfl
@[simp] theorem State.onCtl_arrivals (f : Ctl → Ctl) : (s.onCtl f).arrivals = s.arrivals := rfl
@[simp] theorem State.onCtl_engineTurn (f : Ctl → Ctl) : (s.onCtl f).engineTurn = s.engineTurn := rfl
@[simp] theorem State.onCtl_freeCount (f : Ctl → Ctl) : (s.onCtl f).freeCount = s.freeCount := rfl
@[simp] theorem State.onCtl_plane (f : Ctl → Ctl) : (s.onCtl f).plane = s.plane := rfl
@[simp] theorem State.onCtl_lines (f : Ctl → Ctl) : (s.onCtl f).lines = s.lines := rfl
@[simp] theorem State.onCtl_holes (f : Ctl → Ctl) : (s.onCtl f).holes = s.holes := rfl
@[simp] theorem State.onCtl_pendingHoles (f : Ctl → Ctl) : (s.onCtl f).pendingHoles = s.pendingHoles := rfl
@[simp] theorem State.onCtl_bars (f : Ctl → Ctl) : (s.onCtl f).bars = s.bars := rfl
@[simp] theorem State.onCtl_dram (f : Ctl → Ctl) : (s.onCtl f).dram = s.dram := rfl
@[simp] theorem State.onCtl_dramTags (f : Ctl → Ctl) : (s.onCtl f).dramTags = s.dramTags := rfl
@[simp] theorem State.onCtl_eccSoft (f : Ctl → Ctl) : (s.onCtl f).eccSoft = s.eccSoft := rfl
@[simp] theorem State.onCtl_eccHard (f : Ctl → Ctl) : (s.onCtl f).eccHard = s.eccHard := rfl
@[simp] theorem State.onCtl_host (f : Ctl → Ctl) : (s.onCtl f).host = s.host := rfl
@[simp] theorem State.onCtl_hostBad (f : Ctl → Ctl) : (s.onCtl f).hostBad = s.hostBad := rfl
@[simp] theorem State.onCtl_peer (f : Ctl → Ctl) : (s.onCtl f).peer = s.peer := rfl
@[simp] theorem State.onCtl_peerTags (f : Ctl → Ctl) : (s.onCtl f).peerTags = s.peerTags := rfl
@[simp] theorem State.onCtl_peerBad (f : Ctl → Ctl) : (s.onCtl f).peerBad = s.peerBad := rfl
@[simp] theorem State.onCtl_loops (f : Ctl → Ctl) : (s.onCtl f).loops = s.loops := rfl
@[simp] theorem State.onCtl_nextLoop (f : Ctl → Ctl) : (s.onCtl f).nextLoop = s.nextLoop := rfl
@[simp] theorem State.onCtl_copies (f : Ctl → Ctl) : (s.onCtl f).copies = s.copies := rfl
@[simp] theorem State.onCtl_nextCopy (f : Ctl → Ctl) : (s.onCtl f).nextCopy = s.nextCopy := rfl
@[simp] theorem State.onCtl_lcopies (f : Ctl → Ctl) : (s.onCtl f).lcopies = s.lcopies := rfl
@[simp] theorem State.onCtl_nextLcopy (f : Ctl → Ctl) : (s.onCtl f).nextLcopy = s.nextLcopy := rfl
@[simp] theorem State.onCtl_streams (f : Ctl → Ctl) : (s.onCtl f).streams = s.streams := rfl
@[simp] theorem State.onCtl_colls (f : Ctl → Ctl) : (s.onCtl f).colls = s.colls := rfl
@[simp] theorem State.onCtl_heldContribs (f : Ctl → Ctl) : (s.onCtl f).heldContribs = s.heldContribs := rfl
@[simp] theorem State.onCtl_eventsOwed (f : Ctl → Ctl) : (s.onCtl f).eventsOwed = s.eventsOwed := rfl
@[simp] theorem State.onCtl_sentContribs (f : Ctl → Ctl) : (s.onCtl f).sentContribs = s.sentContribs := rfl
@[simp] theorem State.onCtl_launches (f : Ctl → Ctl) : (s.onCtl f).launches = s.launches := rfl
@[simp] theorem State.onCtl_nextLaunch (f : Ctl → Ctl) : (s.onCtl f).nextLaunch = s.nextLaunch := rfl
@[simp] theorem State.onCtl_accepted (f : Ctl → Ctl) : (s.onCtl f).accepted = s.accepted := rfl
@[simp] theorem State.onCtl_teams (f : Ctl → Ctl) : (s.onCtl f).teams = s.teams := rfl
@[simp] theorem State.onCtl_queues (f : Ctl → Ctl) : (s.onCtl f).queues = s.queues := rfl
@[simp] theorem State.onCtl_rrNext (f : Ctl → Ctl) : (s.onCtl f).rrNext = s.rrNext := rfl
@[simp] theorem State.onCtl_ctxs (f : Ctl → Ctl) : (s.onCtl f).ctxs = s.ctxs := rfl
@[simp] theorem State.onCtl_quotas (f : Ctl → Ctl) : (s.onCtl f).quotas = s.quotas := rfl
@[simp] theorem State.onCtl_tlb (f : Ctl → Ctl) : (s.onCtl f).tlb = s.tlb := rfl
@[simp] theorem State.onCtl_faulted (f : Ctl → Ctl) : (s.onCtl f).faulted = s.faulted := rfl
@[simp] theorem State.onCtl_lastProgress (f : Ctl → Ctl) : (s.onCtl f).lastProgress = s.lastProgress := rfl
@[simp] theorem State.onCtl_islands (f : Ctl → Ctl) : (s.onCtl f).islands = s.islands := rfl
@[simp] theorem State.onCtl_clusters (f : Ctl → Ctl) : (s.onCtl f).clusters = s.clusters := rfl
@[simp] theorem State.onCtl_dies (f : Ctl → Ctl) : (s.onCtl f).dies = s.dies := rfl
@[simp] theorem State.onCtl_channels (f : Ctl → Ctl) : (s.onCtl f).channels = s.channels := rfl
@[simp] theorem State.onCtl_logs (f : Ctl → Ctl) : (s.onCtl f).logs = s.logs := rfl
@[simp] theorem State.onCtl_sessions (f : Ctl → Ctl) : (s.onCtl f).sessions = s.sessions := rfl
@[simp] theorem State.onCtl_mgmt (f : Ctl → Ctl) : (s.onCtl f).mgmt = s.mgmt := rfl
@[simp] theorem State.onCtl_ports (f : Ctl → Ctl) : (s.onCtl f).ports = s.ports := rfl
@[simp] theorem State.onCtl_unreachable (f : Ctl → Ctl) : (s.onCtl f).unreachable = s.unreachable := rfl
@[simp] theorem State.onCtl_lastDecision (f : Ctl → Ctl) : (s.onCtl f).lastDecision = s.lastDecision := rfl
@[simp] theorem State.onCtl_at_ (f : Ctl → Ctl) : (s.onCtl f).me.at_ = s.me.at_ := rfl
@[simp] theorem State.onCtl_r (f : Ctl → Ctl) : (s.onCtl f).me.r = s.me.r := rfl
@[simp] theorem State.onCtl_ctl (f : Ctl → Ctl) : (s.onCtl f).me.ctl = f s.me.ctl := rfl
@[simp] theorem State.onCtl_wet (f : Ctl → Ctl) : (s.onCtl f).me.wet = s.me.wet := rfl
@[simp] theorem State.onCtl_run (f : Ctl → Ctl) : (s.onCtl f).me.run = s.me.run := rfl

/-! ## State.onWet -/

@[simp] theorem State.onWet_others (f : Wets → Wets) : (s.onWet f).others = s.others := rfl
@[simp] theorem State.onWet_time (f : Wets → Wets) : (s.onWet f).time = s.time := rfl
@[simp] theorem State.onWet_agenda (f : Wets → Wets) : (s.onWet f).agenda = s.agenda := rfl
@[simp] theorem State.onWet_arrivals (f : Wets → Wets) : (s.onWet f).arrivals = s.arrivals := rfl
@[simp] theorem State.onWet_engineTurn (f : Wets → Wets) : (s.onWet f).engineTurn = s.engineTurn := rfl
@[simp] theorem State.onWet_freeCount (f : Wets → Wets) : (s.onWet f).freeCount = s.freeCount := rfl
@[simp] theorem State.onWet_plane (f : Wets → Wets) : (s.onWet f).plane = s.plane := rfl
@[simp] theorem State.onWet_lines (f : Wets → Wets) : (s.onWet f).lines = s.lines := rfl
@[simp] theorem State.onWet_holes (f : Wets → Wets) : (s.onWet f).holes = s.holes := rfl
@[simp] theorem State.onWet_pendingHoles (f : Wets → Wets) : (s.onWet f).pendingHoles = s.pendingHoles := rfl
@[simp] theorem State.onWet_bars (f : Wets → Wets) : (s.onWet f).bars = s.bars := rfl
@[simp] theorem State.onWet_dram (f : Wets → Wets) : (s.onWet f).dram = s.dram := rfl
@[simp] theorem State.onWet_dramTags (f : Wets → Wets) : (s.onWet f).dramTags = s.dramTags := rfl
@[simp] theorem State.onWet_eccSoft (f : Wets → Wets) : (s.onWet f).eccSoft = s.eccSoft := rfl
@[simp] theorem State.onWet_eccHard (f : Wets → Wets) : (s.onWet f).eccHard = s.eccHard := rfl
@[simp] theorem State.onWet_host (f : Wets → Wets) : (s.onWet f).host = s.host := rfl
@[simp] theorem State.onWet_hostBad (f : Wets → Wets) : (s.onWet f).hostBad = s.hostBad := rfl
@[simp] theorem State.onWet_peer (f : Wets → Wets) : (s.onWet f).peer = s.peer := rfl
@[simp] theorem State.onWet_peerTags (f : Wets → Wets) : (s.onWet f).peerTags = s.peerTags := rfl
@[simp] theorem State.onWet_peerBad (f : Wets → Wets) : (s.onWet f).peerBad = s.peerBad := rfl
@[simp] theorem State.onWet_loops (f : Wets → Wets) : (s.onWet f).loops = s.loops := rfl
@[simp] theorem State.onWet_nextLoop (f : Wets → Wets) : (s.onWet f).nextLoop = s.nextLoop := rfl
@[simp] theorem State.onWet_copies (f : Wets → Wets) : (s.onWet f).copies = s.copies := rfl
@[simp] theorem State.onWet_nextCopy (f : Wets → Wets) : (s.onWet f).nextCopy = s.nextCopy := rfl
@[simp] theorem State.onWet_lcopies (f : Wets → Wets) : (s.onWet f).lcopies = s.lcopies := rfl
@[simp] theorem State.onWet_nextLcopy (f : Wets → Wets) : (s.onWet f).nextLcopy = s.nextLcopy := rfl
@[simp] theorem State.onWet_streams (f : Wets → Wets) : (s.onWet f).streams = s.streams := rfl
@[simp] theorem State.onWet_colls (f : Wets → Wets) : (s.onWet f).colls = s.colls := rfl
@[simp] theorem State.onWet_heldContribs (f : Wets → Wets) : (s.onWet f).heldContribs = s.heldContribs := rfl
@[simp] theorem State.onWet_eventsOwed (f : Wets → Wets) : (s.onWet f).eventsOwed = s.eventsOwed := rfl
@[simp] theorem State.onWet_sentContribs (f : Wets → Wets) : (s.onWet f).sentContribs = s.sentContribs := rfl
@[simp] theorem State.onWet_launches (f : Wets → Wets) : (s.onWet f).launches = s.launches := rfl
@[simp] theorem State.onWet_nextLaunch (f : Wets → Wets) : (s.onWet f).nextLaunch = s.nextLaunch := rfl
@[simp] theorem State.onWet_accepted (f : Wets → Wets) : (s.onWet f).accepted = s.accepted := rfl
@[simp] theorem State.onWet_teams (f : Wets → Wets) : (s.onWet f).teams = s.teams := rfl
@[simp] theorem State.onWet_queues (f : Wets → Wets) : (s.onWet f).queues = s.queues := rfl
@[simp] theorem State.onWet_rrNext (f : Wets → Wets) : (s.onWet f).rrNext = s.rrNext := rfl
@[simp] theorem State.onWet_ctxs (f : Wets → Wets) : (s.onWet f).ctxs = s.ctxs := rfl
@[simp] theorem State.onWet_quotas (f : Wets → Wets) : (s.onWet f).quotas = s.quotas := rfl
@[simp] theorem State.onWet_tlb (f : Wets → Wets) : (s.onWet f).tlb = s.tlb := rfl
@[simp] theorem State.onWet_faulted (f : Wets → Wets) : (s.onWet f).faulted = s.faulted := rfl
@[simp] theorem State.onWet_lastProgress (f : Wets → Wets) : (s.onWet f).lastProgress = s.lastProgress := rfl
@[simp] theorem State.onWet_islands (f : Wets → Wets) : (s.onWet f).islands = s.islands := rfl
@[simp] theorem State.onWet_clusters (f : Wets → Wets) : (s.onWet f).clusters = s.clusters := rfl
@[simp] theorem State.onWet_dies (f : Wets → Wets) : (s.onWet f).dies = s.dies := rfl
@[simp] theorem State.onWet_channels (f : Wets → Wets) : (s.onWet f).channels = s.channels := rfl
@[simp] theorem State.onWet_logs (f : Wets → Wets) : (s.onWet f).logs = s.logs := rfl
@[simp] theorem State.onWet_sessions (f : Wets → Wets) : (s.onWet f).sessions = s.sessions := rfl
@[simp] theorem State.onWet_mgmt (f : Wets → Wets) : (s.onWet f).mgmt = s.mgmt := rfl
@[simp] theorem State.onWet_ports (f : Wets → Wets) : (s.onWet f).ports = s.ports := rfl
@[simp] theorem State.onWet_unreachable (f : Wets → Wets) : (s.onWet f).unreachable = s.unreachable := rfl
@[simp] theorem State.onWet_lastDecision (f : Wets → Wets) : (s.onWet f).lastDecision = s.lastDecision := rfl
@[simp] theorem State.onWet_at_ (f : Wets → Wets) : (s.onWet f).me.at_ = s.me.at_ := rfl
@[simp] theorem State.onWet_r (f : Wets → Wets) : (s.onWet f).me.r = s.me.r := rfl
@[simp] theorem State.onWet_ctl (f : Wets → Wets) : (s.onWet f).me.ctl = s.me.ctl := rfl
@[simp] theorem State.onWet_wet (f : Wets → Wets) : (s.onWet f).me.wet = f s.me.wet := rfl
@[simp] theorem State.onWet_run (f : Wets → Wets) : (s.onWet f).me.run = s.me.run := rfl

/-! ## State.onRun -/

@[simp] theorem State.onRun_others (f : Run → Run) : (s.onRun f).others = s.others := rfl
@[simp] theorem State.onRun_time (f : Run → Run) : (s.onRun f).time = s.time := rfl
@[simp] theorem State.onRun_agenda (f : Run → Run) : (s.onRun f).agenda = s.agenda := rfl
@[simp] theorem State.onRun_arrivals (f : Run → Run) : (s.onRun f).arrivals = s.arrivals := rfl
@[simp] theorem State.onRun_engineTurn (f : Run → Run) : (s.onRun f).engineTurn = s.engineTurn := rfl
@[simp] theorem State.onRun_freeCount (f : Run → Run) : (s.onRun f).freeCount = s.freeCount := rfl
@[simp] theorem State.onRun_plane (f : Run → Run) : (s.onRun f).plane = s.plane := rfl
@[simp] theorem State.onRun_lines (f : Run → Run) : (s.onRun f).lines = s.lines := rfl
@[simp] theorem State.onRun_holes (f : Run → Run) : (s.onRun f).holes = s.holes := rfl
@[simp] theorem State.onRun_pendingHoles (f : Run → Run) : (s.onRun f).pendingHoles = s.pendingHoles := rfl
@[simp] theorem State.onRun_bars (f : Run → Run) : (s.onRun f).bars = s.bars := rfl
@[simp] theorem State.onRun_dram (f : Run → Run) : (s.onRun f).dram = s.dram := rfl
@[simp] theorem State.onRun_dramTags (f : Run → Run) : (s.onRun f).dramTags = s.dramTags := rfl
@[simp] theorem State.onRun_eccSoft (f : Run → Run) : (s.onRun f).eccSoft = s.eccSoft := rfl
@[simp] theorem State.onRun_eccHard (f : Run → Run) : (s.onRun f).eccHard = s.eccHard := rfl
@[simp] theorem State.onRun_host (f : Run → Run) : (s.onRun f).host = s.host := rfl
@[simp] theorem State.onRun_hostBad (f : Run → Run) : (s.onRun f).hostBad = s.hostBad := rfl
@[simp] theorem State.onRun_peer (f : Run → Run) : (s.onRun f).peer = s.peer := rfl
@[simp] theorem State.onRun_peerTags (f : Run → Run) : (s.onRun f).peerTags = s.peerTags := rfl
@[simp] theorem State.onRun_peerBad (f : Run → Run) : (s.onRun f).peerBad = s.peerBad := rfl
@[simp] theorem State.onRun_loops (f : Run → Run) : (s.onRun f).loops = s.loops := rfl
@[simp] theorem State.onRun_nextLoop (f : Run → Run) : (s.onRun f).nextLoop = s.nextLoop := rfl
@[simp] theorem State.onRun_copies (f : Run → Run) : (s.onRun f).copies = s.copies := rfl
@[simp] theorem State.onRun_nextCopy (f : Run → Run) : (s.onRun f).nextCopy = s.nextCopy := rfl
@[simp] theorem State.onRun_lcopies (f : Run → Run) : (s.onRun f).lcopies = s.lcopies := rfl
@[simp] theorem State.onRun_nextLcopy (f : Run → Run) : (s.onRun f).nextLcopy = s.nextLcopy := rfl
@[simp] theorem State.onRun_streams (f : Run → Run) : (s.onRun f).streams = s.streams := rfl
@[simp] theorem State.onRun_colls (f : Run → Run) : (s.onRun f).colls = s.colls := rfl
@[simp] theorem State.onRun_heldContribs (f : Run → Run) : (s.onRun f).heldContribs = s.heldContribs := rfl
@[simp] theorem State.onRun_eventsOwed (f : Run → Run) : (s.onRun f).eventsOwed = s.eventsOwed := rfl
@[simp] theorem State.onRun_sentContribs (f : Run → Run) : (s.onRun f).sentContribs = s.sentContribs := rfl
@[simp] theorem State.onRun_launches (f : Run → Run) : (s.onRun f).launches = s.launches := rfl
@[simp] theorem State.onRun_nextLaunch (f : Run → Run) : (s.onRun f).nextLaunch = s.nextLaunch := rfl
@[simp] theorem State.onRun_accepted (f : Run → Run) : (s.onRun f).accepted = s.accepted := rfl
@[simp] theorem State.onRun_teams (f : Run → Run) : (s.onRun f).teams = s.teams := rfl
@[simp] theorem State.onRun_queues (f : Run → Run) : (s.onRun f).queues = s.queues := rfl
@[simp] theorem State.onRun_rrNext (f : Run → Run) : (s.onRun f).rrNext = s.rrNext := rfl
@[simp] theorem State.onRun_ctxs (f : Run → Run) : (s.onRun f).ctxs = s.ctxs := rfl
@[simp] theorem State.onRun_quotas (f : Run → Run) : (s.onRun f).quotas = s.quotas := rfl
@[simp] theorem State.onRun_tlb (f : Run → Run) : (s.onRun f).tlb = s.tlb := rfl
@[simp] theorem State.onRun_faulted (f : Run → Run) : (s.onRun f).faulted = s.faulted := rfl
@[simp] theorem State.onRun_lastProgress (f : Run → Run) : (s.onRun f).lastProgress = s.lastProgress := rfl
@[simp] theorem State.onRun_islands (f : Run → Run) : (s.onRun f).islands = s.islands := rfl
@[simp] theorem State.onRun_clusters (f : Run → Run) : (s.onRun f).clusters = s.clusters := rfl
@[simp] theorem State.onRun_dies (f : Run → Run) : (s.onRun f).dies = s.dies := rfl
@[simp] theorem State.onRun_channels (f : Run → Run) : (s.onRun f).channels = s.channels := rfl
@[simp] theorem State.onRun_logs (f : Run → Run) : (s.onRun f).logs = s.logs := rfl
@[simp] theorem State.onRun_sessions (f : Run → Run) : (s.onRun f).sessions = s.sessions := rfl
@[simp] theorem State.onRun_mgmt (f : Run → Run) : (s.onRun f).mgmt = s.mgmt := rfl
@[simp] theorem State.onRun_ports (f : Run → Run) : (s.onRun f).ports = s.ports := rfl
@[simp] theorem State.onRun_unreachable (f : Run → Run) : (s.onRun f).unreachable = s.unreachable := rfl
@[simp] theorem State.onRun_lastDecision (f : Run → Run) : (s.onRun f).lastDecision = s.lastDecision := rfl
@[simp] theorem State.onRun_at_ (f : Run → Run) : (s.onRun f).me.at_ = s.me.at_ := rfl
@[simp] theorem State.onRun_r (f : Run → Run) : (s.onRun f).me.r = s.me.r := rfl
@[simp] theorem State.onRun_ctl (f : Run → Run) : (s.onRun f).me.ctl = s.me.ctl := rfl
@[simp] theorem State.onRun_wet (f : Run → Run) : (s.onRun f).me.wet = s.me.wet := rfl
@[simp] theorem State.onRun_run (f : Run → Run) : (s.onRun f).me.run = f s.me.run := rfl

/-! ## State.setTeam -/

@[simp] theorem State.setTeam_me (t : Team) : (s.setTeam t).me = s.me := rfl
@[simp] theorem State.setTeam_others (t : Team) : (s.setTeam t).others = s.others := rfl
@[simp] theorem State.setTeam_time (t : Team) : (s.setTeam t).time = s.time := rfl
@[simp] theorem State.setTeam_agenda (t : Team) : (s.setTeam t).agenda = s.agenda := rfl
@[simp] theorem State.setTeam_arrivals (t : Team) : (s.setTeam t).arrivals = s.arrivals := rfl
@[simp] theorem State.setTeam_engineTurn (t : Team) : (s.setTeam t).engineTurn = s.engineTurn := rfl
@[simp] theorem State.setTeam_freeCount (t : Team) : (s.setTeam t).freeCount = s.freeCount := rfl
@[simp] theorem State.setTeam_plane (t : Team) : (s.setTeam t).plane = s.plane := rfl
@[simp] theorem State.setTeam_lines (t : Team) : (s.setTeam t).lines = s.lines := rfl
@[simp] theorem State.setTeam_holes (t : Team) : (s.setTeam t).holes = s.holes := rfl
@[simp] theorem State.setTeam_pendingHoles (t : Team) : (s.setTeam t).pendingHoles = s.pendingHoles := rfl
@[simp] theorem State.setTeam_bars (t : Team) : (s.setTeam t).bars = s.bars := rfl
@[simp] theorem State.setTeam_dram (t : Team) : (s.setTeam t).dram = s.dram := rfl
@[simp] theorem State.setTeam_dramTags (t : Team) : (s.setTeam t).dramTags = s.dramTags := rfl
@[simp] theorem State.setTeam_eccSoft (t : Team) : (s.setTeam t).eccSoft = s.eccSoft := rfl
@[simp] theorem State.setTeam_eccHard (t : Team) : (s.setTeam t).eccHard = s.eccHard := rfl
@[simp] theorem State.setTeam_host (t : Team) : (s.setTeam t).host = s.host := rfl
@[simp] theorem State.setTeam_hostBad (t : Team) : (s.setTeam t).hostBad = s.hostBad := rfl
@[simp] theorem State.setTeam_peer (t : Team) : (s.setTeam t).peer = s.peer := rfl
@[simp] theorem State.setTeam_peerTags (t : Team) : (s.setTeam t).peerTags = s.peerTags := rfl
@[simp] theorem State.setTeam_peerBad (t : Team) : (s.setTeam t).peerBad = s.peerBad := rfl
@[simp] theorem State.setTeam_loops (t : Team) : (s.setTeam t).loops = s.loops := rfl
@[simp] theorem State.setTeam_nextLoop (t : Team) : (s.setTeam t).nextLoop = s.nextLoop := rfl
@[simp] theorem State.setTeam_copies (t : Team) : (s.setTeam t).copies = s.copies := rfl
@[simp] theorem State.setTeam_nextCopy (t : Team) : (s.setTeam t).nextCopy = s.nextCopy := rfl
@[simp] theorem State.setTeam_lcopies (t : Team) : (s.setTeam t).lcopies = s.lcopies := rfl
@[simp] theorem State.setTeam_nextLcopy (t : Team) : (s.setTeam t).nextLcopy = s.nextLcopy := rfl
@[simp] theorem State.setTeam_streams (t : Team) : (s.setTeam t).streams = s.streams := rfl
@[simp] theorem State.setTeam_colls (t : Team) : (s.setTeam t).colls = s.colls := rfl
@[simp] theorem State.setTeam_heldContribs (t : Team) : (s.setTeam t).heldContribs = s.heldContribs := rfl
@[simp] theorem State.setTeam_eventsOwed (t : Team) : (s.setTeam t).eventsOwed = s.eventsOwed := rfl
@[simp] theorem State.setTeam_sentContribs (t : Team) : (s.setTeam t).sentContribs = s.sentContribs := rfl
@[simp] theorem State.setTeam_launches (t : Team) : (s.setTeam t).launches = s.launches := rfl
@[simp] theorem State.setTeam_nextLaunch (t : Team) : (s.setTeam t).nextLaunch = s.nextLaunch := rfl
@[simp] theorem State.setTeam_accepted (t : Team) : (s.setTeam t).accepted = s.accepted := rfl
@[simp] theorem State.setTeam_queues (t : Team) : (s.setTeam t).queues = s.queues := rfl
@[simp] theorem State.setTeam_rrNext (t : Team) : (s.setTeam t).rrNext = s.rrNext := rfl
@[simp] theorem State.setTeam_ctxs (t : Team) : (s.setTeam t).ctxs = s.ctxs := rfl
@[simp] theorem State.setTeam_quotas (t : Team) : (s.setTeam t).quotas = s.quotas := rfl
@[simp] theorem State.setTeam_tlb (t : Team) : (s.setTeam t).tlb = s.tlb := rfl
@[simp] theorem State.setTeam_faulted (t : Team) : (s.setTeam t).faulted = s.faulted := rfl
@[simp] theorem State.setTeam_lastProgress (t : Team) : (s.setTeam t).lastProgress = s.lastProgress := rfl
@[simp] theorem State.setTeam_islands (t : Team) : (s.setTeam t).islands = s.islands := rfl
@[simp] theorem State.setTeam_clusters (t : Team) : (s.setTeam t).clusters = s.clusters := rfl
@[simp] theorem State.setTeam_dies (t : Team) : (s.setTeam t).dies = s.dies := rfl
@[simp] theorem State.setTeam_channels (t : Team) : (s.setTeam t).channels = s.channels := rfl
@[simp] theorem State.setTeam_logs (t : Team) : (s.setTeam t).logs = s.logs := rfl
@[simp] theorem State.setTeam_sessions (t : Team) : (s.setTeam t).sessions = s.sessions := rfl
@[simp] theorem State.setTeam_mgmt (t : Team) : (s.setTeam t).mgmt = s.mgmt := rfl
@[simp] theorem State.setTeam_ports (t : Team) : (s.setTeam t).ports = s.ports := rfl
@[simp] theorem State.setTeam_unreachable (t : Team) : (s.setTeam t).unreachable = s.unreachable := rfl
@[simp] theorem State.setTeam_lastDecision (t : Team) : (s.setTeam t).lastDecision = s.lastDecision := rfl

/-! ## State.parkMe -/

@[simp] theorem State.parkMe_others (p : Park) : (s.parkMe p).others = s.others := rfl
@[simp] theorem State.parkMe_time (p : Park) : (s.parkMe p).time = s.time := rfl
@[simp] theorem State.parkMe_agenda (p : Park) : (s.parkMe p).agenda = s.agenda := rfl
@[simp] theorem State.parkMe_arrivals (p : Park) : (s.parkMe p).arrivals = s.arrivals := rfl
@[simp] theorem State.parkMe_engineTurn (p : Park) : (s.parkMe p).engineTurn = s.engineTurn := rfl
@[simp] theorem State.parkMe_freeCount (p : Park) : (s.parkMe p).freeCount = s.freeCount := rfl
@[simp] theorem State.parkMe_plane (p : Park) : (s.parkMe p).plane = s.plane := rfl
@[simp] theorem State.parkMe_lines (p : Park) : (s.parkMe p).lines = s.lines := rfl
@[simp] theorem State.parkMe_holes (p : Park) : (s.parkMe p).holes = s.holes := rfl
@[simp] theorem State.parkMe_pendingHoles (p : Park) : (s.parkMe p).pendingHoles = s.pendingHoles := rfl
@[simp] theorem State.parkMe_bars (p : Park) : (s.parkMe p).bars = s.bars := rfl
@[simp] theorem State.parkMe_dram (p : Park) : (s.parkMe p).dram = s.dram := rfl
@[simp] theorem State.parkMe_dramTags (p : Park) : (s.parkMe p).dramTags = s.dramTags := rfl
@[simp] theorem State.parkMe_eccSoft (p : Park) : (s.parkMe p).eccSoft = s.eccSoft := rfl
@[simp] theorem State.parkMe_eccHard (p : Park) : (s.parkMe p).eccHard = s.eccHard := rfl
@[simp] theorem State.parkMe_host (p : Park) : (s.parkMe p).host = s.host := rfl
@[simp] theorem State.parkMe_hostBad (p : Park) : (s.parkMe p).hostBad = s.hostBad := rfl
@[simp] theorem State.parkMe_peer (p : Park) : (s.parkMe p).peer = s.peer := rfl
@[simp] theorem State.parkMe_peerTags (p : Park) : (s.parkMe p).peerTags = s.peerTags := rfl
@[simp] theorem State.parkMe_peerBad (p : Park) : (s.parkMe p).peerBad = s.peerBad := rfl
@[simp] theorem State.parkMe_loops (p : Park) : (s.parkMe p).loops = s.loops := rfl
@[simp] theorem State.parkMe_nextLoop (p : Park) : (s.parkMe p).nextLoop = s.nextLoop := rfl
@[simp] theorem State.parkMe_copies (p : Park) : (s.parkMe p).copies = s.copies := rfl
@[simp] theorem State.parkMe_nextCopy (p : Park) : (s.parkMe p).nextCopy = s.nextCopy := rfl
@[simp] theorem State.parkMe_lcopies (p : Park) : (s.parkMe p).lcopies = s.lcopies := rfl
@[simp] theorem State.parkMe_nextLcopy (p : Park) : (s.parkMe p).nextLcopy = s.nextLcopy := rfl
@[simp] theorem State.parkMe_streams (p : Park) : (s.parkMe p).streams = s.streams := rfl
@[simp] theorem State.parkMe_colls (p : Park) : (s.parkMe p).colls = s.colls := rfl
@[simp] theorem State.parkMe_heldContribs (p : Park) : (s.parkMe p).heldContribs = s.heldContribs := rfl
@[simp] theorem State.parkMe_eventsOwed (p : Park) : (s.parkMe p).eventsOwed = s.eventsOwed := rfl
@[simp] theorem State.parkMe_sentContribs (p : Park) : (s.parkMe p).sentContribs = s.sentContribs := rfl
@[simp] theorem State.parkMe_launches (p : Park) : (s.parkMe p).launches = s.launches := rfl
@[simp] theorem State.parkMe_nextLaunch (p : Park) : (s.parkMe p).nextLaunch = s.nextLaunch := rfl
@[simp] theorem State.parkMe_accepted (p : Park) : (s.parkMe p).accepted = s.accepted := rfl
@[simp] theorem State.parkMe_teams (p : Park) : (s.parkMe p).teams = s.teams := rfl
@[simp] theorem State.parkMe_queues (p : Park) : (s.parkMe p).queues = s.queues := rfl
@[simp] theorem State.parkMe_rrNext (p : Park) : (s.parkMe p).rrNext = s.rrNext := rfl
@[simp] theorem State.parkMe_ctxs (p : Park) : (s.parkMe p).ctxs = s.ctxs := rfl
@[simp] theorem State.parkMe_quotas (p : Park) : (s.parkMe p).quotas = s.quotas := rfl
@[simp] theorem State.parkMe_tlb (p : Park) : (s.parkMe p).tlb = s.tlb := rfl
@[simp] theorem State.parkMe_faulted (p : Park) : (s.parkMe p).faulted = s.faulted := rfl
@[simp] theorem State.parkMe_lastProgress (p : Park) : (s.parkMe p).lastProgress = s.lastProgress := rfl
@[simp] theorem State.parkMe_islands (p : Park) : (s.parkMe p).islands = s.islands := rfl
@[simp] theorem State.parkMe_clusters (p : Park) : (s.parkMe p).clusters = s.clusters := rfl
@[simp] theorem State.parkMe_dies (p : Park) : (s.parkMe p).dies = s.dies := rfl
@[simp] theorem State.parkMe_channels (p : Park) : (s.parkMe p).channels = s.channels := rfl
@[simp] theorem State.parkMe_logs (p : Park) : (s.parkMe p).logs = s.logs := rfl
@[simp] theorem State.parkMe_sessions (p : Park) : (s.parkMe p).sessions = s.sessions := rfl
@[simp] theorem State.parkMe_mgmt (p : Park) : (s.parkMe p).mgmt = s.mgmt := rfl
@[simp] theorem State.parkMe_ports (p : Park) : (s.parkMe p).ports = s.ports := rfl
@[simp] theorem State.parkMe_unreachable (p : Park) : (s.parkMe p).unreachable = s.unreachable := rfl
@[simp] theorem State.parkMe_lastDecision (p : Park) : (s.parkMe p).lastDecision = s.lastDecision := rfl

/-! ## State.setS -/

@[simp] theorem State.setS_others (d : Nat) (v : Word) : (s.setS d v).others = s.others := rfl
@[simp] theorem State.setS_time (d : Nat) (v : Word) : (s.setS d v).time = s.time := rfl
@[simp] theorem State.setS_agenda (d : Nat) (v : Word) : (s.setS d v).agenda = s.agenda := rfl
@[simp] theorem State.setS_arrivals (d : Nat) (v : Word) : (s.setS d v).arrivals = s.arrivals := rfl
@[simp] theorem State.setS_engineTurn (d : Nat) (v : Word) : (s.setS d v).engineTurn = s.engineTurn := rfl
@[simp] theorem State.setS_freeCount (d : Nat) (v : Word) : (s.setS d v).freeCount = s.freeCount := rfl
@[simp] theorem State.setS_plane (d : Nat) (v : Word) : (s.setS d v).plane = s.plane := rfl
@[simp] theorem State.setS_lines (d : Nat) (v : Word) : (s.setS d v).lines = s.lines := rfl
@[simp] theorem State.setS_holes (d : Nat) (v : Word) : (s.setS d v).holes = s.holes := rfl
@[simp] theorem State.setS_pendingHoles (d : Nat) (v : Word) : (s.setS d v).pendingHoles = s.pendingHoles := rfl
@[simp] theorem State.setS_bars (d : Nat) (v : Word) : (s.setS d v).bars = s.bars := rfl
@[simp] theorem State.setS_dram (d : Nat) (v : Word) : (s.setS d v).dram = s.dram := rfl
@[simp] theorem State.setS_dramTags (d : Nat) (v : Word) : (s.setS d v).dramTags = s.dramTags := rfl
@[simp] theorem State.setS_eccSoft (d : Nat) (v : Word) : (s.setS d v).eccSoft = s.eccSoft := rfl
@[simp] theorem State.setS_eccHard (d : Nat) (v : Word) : (s.setS d v).eccHard = s.eccHard := rfl
@[simp] theorem State.setS_host (d : Nat) (v : Word) : (s.setS d v).host = s.host := rfl
@[simp] theorem State.setS_hostBad (d : Nat) (v : Word) : (s.setS d v).hostBad = s.hostBad := rfl
@[simp] theorem State.setS_peer (d : Nat) (v : Word) : (s.setS d v).peer = s.peer := rfl
@[simp] theorem State.setS_peerTags (d : Nat) (v : Word) : (s.setS d v).peerTags = s.peerTags := rfl
@[simp] theorem State.setS_peerBad (d : Nat) (v : Word) : (s.setS d v).peerBad = s.peerBad := rfl
@[simp] theorem State.setS_loops (d : Nat) (v : Word) : (s.setS d v).loops = s.loops := rfl
@[simp] theorem State.setS_nextLoop (d : Nat) (v : Word) : (s.setS d v).nextLoop = s.nextLoop := rfl
@[simp] theorem State.setS_copies (d : Nat) (v : Word) : (s.setS d v).copies = s.copies := rfl
@[simp] theorem State.setS_nextCopy (d : Nat) (v : Word) : (s.setS d v).nextCopy = s.nextCopy := rfl
@[simp] theorem State.setS_lcopies (d : Nat) (v : Word) : (s.setS d v).lcopies = s.lcopies := rfl
@[simp] theorem State.setS_nextLcopy (d : Nat) (v : Word) : (s.setS d v).nextLcopy = s.nextLcopy := rfl
@[simp] theorem State.setS_streams (d : Nat) (v : Word) : (s.setS d v).streams = s.streams := rfl
@[simp] theorem State.setS_colls (d : Nat) (v : Word) : (s.setS d v).colls = s.colls := rfl
@[simp] theorem State.setS_heldContribs (d : Nat) (v : Word) : (s.setS d v).heldContribs = s.heldContribs := rfl
@[simp] theorem State.setS_eventsOwed (d : Nat) (v : Word) : (s.setS d v).eventsOwed = s.eventsOwed := rfl
@[simp] theorem State.setS_sentContribs (d : Nat) (v : Word) : (s.setS d v).sentContribs = s.sentContribs := rfl
@[simp] theorem State.setS_launches (d : Nat) (v : Word) : (s.setS d v).launches = s.launches := rfl
@[simp] theorem State.setS_nextLaunch (d : Nat) (v : Word) : (s.setS d v).nextLaunch = s.nextLaunch := rfl
@[simp] theorem State.setS_accepted (d : Nat) (v : Word) : (s.setS d v).accepted = s.accepted := rfl
@[simp] theorem State.setS_teams (d : Nat) (v : Word) : (s.setS d v).teams = s.teams := rfl
@[simp] theorem State.setS_queues (d : Nat) (v : Word) : (s.setS d v).queues = s.queues := rfl
@[simp] theorem State.setS_rrNext (d : Nat) (v : Word) : (s.setS d v).rrNext = s.rrNext := rfl
@[simp] theorem State.setS_ctxs (d : Nat) (v : Word) : (s.setS d v).ctxs = s.ctxs := rfl
@[simp] theorem State.setS_quotas (d : Nat) (v : Word) : (s.setS d v).quotas = s.quotas := rfl
@[simp] theorem State.setS_tlb (d : Nat) (v : Word) : (s.setS d v).tlb = s.tlb := rfl
@[simp] theorem State.setS_faulted (d : Nat) (v : Word) : (s.setS d v).faulted = s.faulted := rfl
@[simp] theorem State.setS_lastProgress (d : Nat) (v : Word) : (s.setS d v).lastProgress = s.lastProgress := rfl
@[simp] theorem State.setS_islands (d : Nat) (v : Word) : (s.setS d v).islands = s.islands := rfl
@[simp] theorem State.setS_clusters (d : Nat) (v : Word) : (s.setS d v).clusters = s.clusters := rfl
@[simp] theorem State.setS_dies (d : Nat) (v : Word) : (s.setS d v).dies = s.dies := rfl
@[simp] theorem State.setS_channels (d : Nat) (v : Word) : (s.setS d v).channels = s.channels := rfl
@[simp] theorem State.setS_logs (d : Nat) (v : Word) : (s.setS d v).logs = s.logs := rfl
@[simp] theorem State.setS_sessions (d : Nat) (v : Word) : (s.setS d v).sessions = s.sessions := rfl
@[simp] theorem State.setS_mgmt (d : Nat) (v : Word) : (s.setS d v).mgmt = s.mgmt := rfl
@[simp] theorem State.setS_ports (d : Nat) (v : Word) : (s.setS d v).ports = s.ports := rfl
@[simp] theorem State.setS_unreachable (d : Nat) (v : Word) : (s.setS d v).unreachable = s.unreachable := rfl
@[simp] theorem State.setS_lastDecision (d : Nat) (v : Word) : (s.setS d v).lastDecision = s.lastDecision := rfl

/-! ## State.advance -/

@[simp] theorem State.advance_others : (s.advance).others = s.others := rfl
@[simp] theorem State.advance_time : (s.advance).time = s.time := rfl
@[simp] theorem State.advance_agenda : (s.advance).agenda = s.agenda := rfl
@[simp] theorem State.advance_arrivals : (s.advance).arrivals = s.arrivals := rfl
@[simp] theorem State.advance_engineTurn : (s.advance).engineTurn = s.engineTurn := rfl
@[simp] theorem State.advance_freeCount : (s.advance).freeCount = s.freeCount := rfl
@[simp] theorem State.advance_plane : (s.advance).plane = s.plane := rfl
@[simp] theorem State.advance_lines : (s.advance).lines = s.lines := rfl
@[simp] theorem State.advance_holes : (s.advance).holes = s.holes := rfl
@[simp] theorem State.advance_pendingHoles : (s.advance).pendingHoles = s.pendingHoles := rfl
@[simp] theorem State.advance_bars : (s.advance).bars = s.bars := rfl
@[simp] theorem State.advance_dram : (s.advance).dram = s.dram := rfl
@[simp] theorem State.advance_dramTags : (s.advance).dramTags = s.dramTags := rfl
@[simp] theorem State.advance_eccSoft : (s.advance).eccSoft = s.eccSoft := rfl
@[simp] theorem State.advance_eccHard : (s.advance).eccHard = s.eccHard := rfl
@[simp] theorem State.advance_host : (s.advance).host = s.host := rfl
@[simp] theorem State.advance_hostBad : (s.advance).hostBad = s.hostBad := rfl
@[simp] theorem State.advance_peer : (s.advance).peer = s.peer := rfl
@[simp] theorem State.advance_peerTags : (s.advance).peerTags = s.peerTags := rfl
@[simp] theorem State.advance_peerBad : (s.advance).peerBad = s.peerBad := rfl
@[simp] theorem State.advance_loops : (s.advance).loops = s.loops := rfl
@[simp] theorem State.advance_nextLoop : (s.advance).nextLoop = s.nextLoop := rfl
@[simp] theorem State.advance_copies : (s.advance).copies = s.copies := rfl
@[simp] theorem State.advance_nextCopy : (s.advance).nextCopy = s.nextCopy := rfl
@[simp] theorem State.advance_lcopies : (s.advance).lcopies = s.lcopies := rfl
@[simp] theorem State.advance_nextLcopy : (s.advance).nextLcopy = s.nextLcopy := rfl
@[simp] theorem State.advance_streams : (s.advance).streams = s.streams := rfl
@[simp] theorem State.advance_colls : (s.advance).colls = s.colls := rfl
@[simp] theorem State.advance_heldContribs : (s.advance).heldContribs = s.heldContribs := rfl
@[simp] theorem State.advance_eventsOwed : (s.advance).eventsOwed = s.eventsOwed := rfl
@[simp] theorem State.advance_sentContribs : (s.advance).sentContribs = s.sentContribs := rfl
@[simp] theorem State.advance_launches : (s.advance).launches = s.launches := rfl
@[simp] theorem State.advance_nextLaunch : (s.advance).nextLaunch = s.nextLaunch := rfl
@[simp] theorem State.advance_accepted : (s.advance).accepted = s.accepted := rfl
@[simp] theorem State.advance_teams : (s.advance).teams = s.teams := rfl
@[simp] theorem State.advance_queues : (s.advance).queues = s.queues := rfl
@[simp] theorem State.advance_rrNext : (s.advance).rrNext = s.rrNext := rfl
@[simp] theorem State.advance_ctxs : (s.advance).ctxs = s.ctxs := rfl
@[simp] theorem State.advance_quotas : (s.advance).quotas = s.quotas := rfl
@[simp] theorem State.advance_tlb : (s.advance).tlb = s.tlb := rfl
@[simp] theorem State.advance_faulted : (s.advance).faulted = s.faulted := rfl
@[simp] theorem State.advance_lastProgress : (s.advance).lastProgress = s.lastProgress := rfl
@[simp] theorem State.advance_islands : (s.advance).islands = s.islands := rfl
@[simp] theorem State.advance_clusters : (s.advance).clusters = s.clusters := rfl
@[simp] theorem State.advance_dies : (s.advance).dies = s.dies := rfl
@[simp] theorem State.advance_channels : (s.advance).channels = s.channels := rfl
@[simp] theorem State.advance_logs : (s.advance).logs = s.logs := rfl
@[simp] theorem State.advance_sessions : (s.advance).sessions = s.sessions := rfl
@[simp] theorem State.advance_mgmt : (s.advance).mgmt = s.mgmt := rfl
@[simp] theorem State.advance_ports : (s.advance).ports = s.ports := rfl
@[simp] theorem State.advance_unreachable : (s.advance).unreachable = s.unreachable := rfl
@[simp] theorem State.advance_lastDecision : (s.advance).lastDecision = s.lastDecision := rfl

/-! ## advance -/

@[simp] theorem State.advance_at_ : s.advance.me.at_ = s.me.at_ := rfl
@[simp] theorem State.advance_r : s.advance.me.r = s.me.r := rfl
@[simp] theorem State.advance_wet : s.advance.me.wet = s.me.wet := rfl
@[simp] theorem State.advance_ctl :
    s.advance.me.ctl = { s.me.ctl with pc := s.me.ctl.pc + 32, remain := s.me.ctl.remain - 1, xim := none } := rfl

end Sys2Proof.Machine
end

