-- ==== Sys2Proof/Laws/Scalar.lean ====
section
/-! SUPPORT. What writing a scalar word does, in full, and how dry uses of scalars end. -/

namespace Sys2Proof.Machine

open Sys2Proof

/-! ## Keys -/

theorem xKey_inj {d a b : Nat} (h : xKey d a = xKey d b) : a = b := by
  unfold xKey at h
  split at h <;> split at h <;> omega

/-! ## Releasing a tag changes only the tags in use and WETS -/

theorem releaseTag_cases (c : Scribe) (tag : Nat) :
    ∃ tags wets, c.releaseTag tag = { c with wet := { c.wet with tags := tags }, ctl := { c.ctl with wets := wets } } := by
  unfold Scribe.releaseTag
  split
  · exact ⟨c.wet.tags, c.ctl.wets, rfl⟩
  · split
    · exact ⟨c.wet.tags, c.ctl.wets, rfl⟩
    · split
      · exact ⟨_, _, rfl⟩
      · exact ⟨c.wet.tags, c.ctl.wets, rfl⟩

theorem dropS_cases (c : Scribe) (key : Nat) :
    ∃ w tags wets, c.dropS key = { c with wet := { c.wet with s := w, tags := tags }, ctl := { c.ctl with wets := wets } }
      ∧ find w key = none ∧ ∀ k, k ≠ key → find w k = find c.wet.s k := by
  unfold Scribe.dropS
  split
  · rename_i h; exact ⟨c.wet.s, c.wet.tags, c.ctl.wets, rfl, h, fun _ _ => rfl⟩
  · rename_i r h
    obtain ⟨tags, wets, e⟩ := releaseTag_cases { c with wet := { c.wet with s := del c.wet.s key } } r.tag
    exact ⟨_, tags, wets, e, find_del_self _ _, fun k hk => find_del_ne _ hk⟩

/-- Writing word `key` of the scalar file: it holds the value, clean and dry; the records of other words stay, and of all
else only the tags in use and WETS may change. -/
theorem setX_cases (c : Scribe) (key : Nat) (v : Word) :
    ∃ w tags wets, c.setX key v = { c with wet := { c.wet with s := w, tags := tags }, ctl := { c.ctl with wets := wets },
                                           r := { c.r with x := put 0 c.r.x key v, ps := put false c.r.ps key false } }
      ∧ find w key = none ∧ ∀ k, k ≠ key → find w k = find c.wet.s k := by
  obtain ⟨w, tags, wets, e, h1, h2⟩ := dropS_cases c key
  refine ⟨w, tags, wets, ?_, h1, h2⟩
  simp only [Scribe.setX, e]

theorem setS_cases (s : State) (d : Nat) (v : Word) :
    ∃ w tags wets, s.setS d v = { s with me := { s.me with
        wet := { s.me.wet with s := w, tags := tags }, ctl := { s.me.ctl with wets := wets },
        r := { s.me.r with x := put 0 s.me.r.x (xKey s.me.ctl.depth d) v, ps := put false s.me.r.ps (xKey s.me.ctl.depth d) false } } }
      ∧ find w (xKey s.me.ctl.depth d) = none ∧ ∀ k, k ≠ xKey s.me.ctl.depth d → find w k = find s.me.wet.s k := by
  obtain ⟨w, tags, wets, e, h1, h2⟩ := setX_cases s.me (xKey s.me.ctl.depth d) v
  exact ⟨w, tags, wets, by simp only [State.setS, Scribe.setS, e], h1, h2⟩

/-- A scalar written reads back. -/
theorem getS_setS_self (s : State) (d : Nat) (v : Word) : (s.setS d v).getS d = v := by
  obtain ⟨w, tags, wets, e, -, -⟩ := setS_cases s d v
  simp [e, State.getS, Scribe.getS]

/-- Every other scalar stays. -/
theorem getS_setS_ne (s : State) {d n : Nat} (v : Word) (h : n ≠ d) : (s.setS d v).getS n = s.getS n := by
  obtain ⟨w, tags, wets, e, -, -⟩ := setS_cases s d v
  simp only [e, State.getS, Scribe.getS]
  exact look_put_ne _ _ _ fun hk => h (xKey_inj hk)

/-! ## Dry uses -/

/-- How a dry use ends: the value, a park, WET_FAULT or POISON. -/
theorem sval_ok_iff (s : State) (code : Nat) (v : Word) :
    s.sval code = .ok v ↔ s.me.wetS code = none ∧ look false s.me.r.ps (xKey s.me.ctl.depth code) = false ∧ v = s.getS code := by
  unfold State.sval Scribe.needDry
  cases h : s.me.wetS code with
  | none =>
    cases hp : look false s.me.r.ps (xKey s.me.ctl.depth code) <;> simp [trap, eq_comm]
  | some r =>
    cases hf : r.fault <;> simp [hf, trap, parkOn]

end Sys2Proof.Machine
end

