-- ==== Sys2Proof/Tests/Slice0.lean ====
section
/-! SUPPORT. The model's own tests: words written out from the encodings of the manual, terms the checks refuse, single steps with the
manual's own examples, and for every statement a state that meets its hypotheses. -/

namespace Sys2Proof.Tests

open Sys2Proof Sys2Proof.Machine

set_option Elab.async false

/-! ## Decoding: words assembled in the manual, then words put together from its encoding tables -/

noncomputable def reads (l : List (Nat × Instr)) : Bool := l.all fun p => decodeTableWord 32 p.1 = some p.2

theorem test_decode_major_01 : reads [
    (0x06AA9800, .add 21 10 19),
    (0x06AA9801, .sub 21 10 19),
    (0x06AA9802, .and 21 10 19),
    (0x06AA9803, .or 21 10 19),
    (0x06AA9804, .xor 21 10 19),
    (0x06AA9805, .andn 21 10 19),
    (0x06AA9806, .shl 21 10 19),
    (0x06AA9807, .shr 21 10 19),
    (0x06AA9808, .sar 21 10 19),
    (0x06AA9809, .minI 21 10 19),
    (0x06AA980A, .maxI 21 10 19),
    (0x06AA980B, .minB 21 10 19),
    (0x06AA980C, .maxB 21 10 19),
    (0x06AA980D, .slt 21 10 19),
    (0x06AA980E, .sltb 21 10 19),
    (0x06AA980F, .seq 21 10 19),
    (0x06AA9810, .sne 21 10 19),
    (0x06AA9811, .sel 21 10 19),
    (0x06AA0012, .clz 21 10),
    (0x06AA0013, .ctz 21 10),
    (0x06AA0014, .popc 21 10)] = true := by decide +kernel

theorem test_decode_major_02 : reads [
    (0x09293FFF, .addi 9 9 0x3FFF),
    (0x09CC4010, .slti 14 12 16),
    (0x0AA0AAAA, .li 21 10922),
    (0x0AAAF333, .lih 21 10 13107)] = true := by decide +kernel

theorem test_decode_major_03 : reads [
    (0x0EAA3333, .andi 21 10 13107),
    (0x0EAA7333, .ori 21 10 13107),
    (0x0EAAB333, .xori 21 10 13107)] = true := by decide +kernel

theorem test_decode_major_04 : reads [
    (0x10C661C8, .bfx 6 6 7 8),
    (0x11AC0006, .shli 13 12 6),
    (0x12AA2033, .shri 21 10 51),
    (0x12AA4033, .sari 21 10 51),
    (0x12AA7CCC, .bfxI 21 10 51 12),
    (0x12AA8CCC, .bfi 21 10 51 12),
    (0x12AAA033, .sext 21 10 51),
    (0x12AAC033, .zext 21 10 51)] = true := by decide +kernel

theorem test_decode_major_05 : reads [
    (0x16AA9800, .mul 21 10 19),
    (0x16AA9801, .mulhI 21 10 19),
    (0x16AA9802, .mulhB 21 10 19),
    (0x16AA9803, .divI 21 10 19),
    (0x16AA9804, .divB 21 10 19),
    (0x16AA9805, .remI 21 10 19),
    (0x16AA9806, .remB 21 10 19)] = true := by decide +kernel

theorem test_decode_major_06 : reads [
    (0x1AAA0000, .mov 21 10)] = true := by decide +kernel

theorem test_decode_major_08 : reads [
    (0x21D20FFC, .bnz 9 0xFFC),
    (0x21940009, .bz 10 9),
    (0x22000FF6, .jmp 0xFF6),
    (0x202AA333, .beq 21 10 819),
    (0x206AA333, .bne 21 10 819),
    (0x20AAA333, .blt 21 10 819),
    (0x20EAA333, .bge 21 10 819),
    (0x212AA333, .bltb 21 10 819),
    (0x216AA333, .bgeb 21 10 819)] = true := by decide +kernel

theorem test_decode_major_09 : reads [
    (0x240A0AAA, .bru 5 2730),
    (0x244A0AAA, .bany 5 2730),
    (0x248A0AAA, .ball 5 2730),
    (0x24CA0AAA, .bnone 5 2730)] = true := by decide +kernel

theorem test_decode_major_0a : reads [
    (0x28000555, .call 1365),
    (0x286A0000, .callr 21),
    (0x28AA0000, .jr 21),
    (0x28C00000, .ret)] = true := by decide +kernel

theorem test_decode_major_0b : reads [
    (0x2DA2B200, .ldB 13 1 11 2 0 0),
    (0x2DA0E601, .ldI 13 0 14 6 0 0),
    (0x2CB5397A, .ldc 5 10 19 1 7)] = true := by decide +kernel

theorem test_decode_major_0c : reads [
    (0x32B536B0, .st 21 10 19 6 2 6),
    (0x30B539B9, .stc 5 10 19 2 7)] = true := by decide +kernel

theorem test_decode_major_0d : reads [
    (0x3584E300, .amoBfadd 12 2 14 3 0 0),
    (0x35840700, .amoAdd 12 2 0 7 0 0),
    (0x36B538F1, .amoMin 21 10 19 8 3 6),
    (0x36B538F2, .amoMax 21 10 19 8 3 6),
    (0x36B538F3, .amoAnd 21 10 19 8 3 6),
    (0x36B538F4, .amoOr 21 10 19 8 3 6),
    (0x36B538F5, .amoXor 21 10 19 8 3 6),
    (0x36B538F6, .amoSwap 21 10 19 8 3 6),
    (0x36B538F7, .amoCas 21 10 19 8 3 6),
    (0x36B536F6, .amoBfset 21 10 19 6 3 6)] = true := by decide +kernel

theorem test_decode_major_0e : reads [
    (0x3AAA0000, .cgetb 21 10),
    (0x3AAA0001, .cgetl 21 10),
    (0x3AAA0002, .cgetp 21 10),
    (0x3AAA0003, .cgets 21 10),
    (0x3AAA0004, .cgett 21 10),
    (0x38AA9805, .csetb 5 10 19),
    (0x38AA9806, .candp 5 10 19),
    (0x38AA0007, .cmov 5 10),
    (0x38AA9808, .ccur 5 10 19)] = true := by decide +kernel

theorem test_decode_major_0f : reads [
    (0x3D414826, .pinb 10 1 9 2),
    (0x3CAA9860, .padd 5 10 19 6),
    (0x3CAA9861, .psub 5 10 19 6),
    (0x3EAA1862, .pdiff 21 10 3 6),
    (0x3CAA0153, .palign 5 10 1 5),
    (0x3EAA0004, .pbyte 21 10),
    (0x3CAA9805, .pbit 5 10 19)] = true := by decide +kernel

theorem test_decode_major_10 : reads [
    (0x40050002, .trap 5),
    (0x40000003, .tret),
    (0x40000023, .tretReplay),
    (0x43FF0007, .brk 1023),
    (0x40209000, .getc 0x020 18),
    (0x40000224, .fence 4 1),
    (0x400002C4, .fence 5 2),
    (0x40000264, .fence 4 3),
    (0x40185001, .setc 24 10),
    (0x4003A801, .setcRngs 21),
    (0x40000005, .yield),
    (0x40000006, .exit),
    (0x40000008, .beat),
    (0x40000009, .nop),
    (0x4015502A, .ldk 21 10 1)] = true := by decide +kernel

theorem test_decode_major_11 : reads [
    (0x4402010B, .xim 0x2010B)] = true := by decide +kernel

theorem test_decode_major_12 : reads [
    (0x48000028, .dry 5 0),
    (0x49400039, .wetq 10 7 0),
    (0x48000002, .dryAll),
    (0x48000074, .dry 14 1),
    (0x49E00075, .wetq 15 14 1)] = true := by decide +kernel

theorem test_decode_major_14 : reads [
    (0x516ACCC0, .vadd 5 42 51 12),
    (0x516ACCC1, .vsub 5 42 51 12),
    (0x516ACCC2, .vand 5 42 51 12),
    (0x516ACCC3, .vor 5 42 51 12),
    (0x516ACCC4, .vxor 5 42 51 12),
    (0x516ACCC5, .vandn 5 42 51 12),
    (0x516ACC06, .vnot 5 42 51),
    (0x516ACC16, .vabs 5 42 51),
    (0x516ACC26, .vneg 5 42 51),
    (0x516ACCC7, .vminI 5 42 51 12),
    (0x516ACCC8, .vminB 5 42 51 12),
    (0x516ACCC9, .vmaxI 5 42 51 12),
    (0x516ACCCA, .vmaxB 5 42 51 12),
    (0x516ACCCB, .vaddsatI 5 42 51 12),
    (0x516ACCCC, .vaddsatB 5 42 51 12),
    (0x516ACCCD, .vsubsatI 5 42 51 12),
    (0x516ACCCE, .vsubsatB 5 42 51 12)] = true := by decide +kernel

theorem test_decode_major_15 : reads [
    (0x556ACCCC, .vaddi 5 42 51 204),
    (0x556ACDCC, .vandi 5 42 51 204),
    (0x556ACECC, .vori 5 42 51 204),
    (0x556ACF0C, .vshli 5 42 51 12)] = true := by decide +kernel

theorem test_decode_major_16 : reads [
    (0x58050833, .vmad 0 5 2 3),
    (0x596ACCC0, .vmul 5 42 51 12),
    (0x596ACCC1, .vmulhI 5 42 51 12),
    (0x596ACCC2, .vmulhB 5 42 51 12)] = true := by decide +kernel

theorem test_decode_major_17 : reads [
    (0x5D6ACCC0, .vshl 5 42 51 12),
    (0x5D6ACCC1, .vshr 5 42 51 12),
    (0x5D6ACCC2, .vsar 5 42 51 12),
    (0x5D6ACC03, .vclz 5 42 51),
    (0x5D6ACC04, .vpopc 5 42 51),
    (0x5D6ACCC5, .vbfx 5 42 51 12),
    (0x5D6ACCC6, .vbfxI 5 42 51 12),
    (0x5D6ACCC7, .vbfi 5 42 51 12)] = true := by decide +kernel

theorem test_decode_major_18 : reads [
    (0x60830FC0, .fadd 2 3 3 60),
    (0x616ACCC1, .fsub 5 42 51 12),
    (0x616ACCC2, .fmul 5 42 51 12),
    (0x616ACCC3, .fmin 5 42 51 12),
    (0x616ACCC4, .fmax 5 42 51 12),
    (0x616ACC05, .fabs 5 42 51),
    (0x616ACC06, .fneg 5 42 51),
    (0x616ACC37, .frnd 5 42 51 3),
    (0x616ACC08, .fclass 5 42 51)] = true := by decide +kernel

theorem test_decode_major_19 : reads [
    (0x656ACCC8, .faddPacked 5 42 51 12 1),
    (0x656ACCC9, .fsubPacked 5 42 51 12 1),
    (0x656ACCCA, .fmulPacked 5 42 51 12 1),
    (0x656ACCCB, .fminPacked 5 42 51 12 1),
    (0x656ACCCC, .fmaxPacked 5 42 51 12 1),
    (0x656ACC0D, .fabsPacked 5 42 51 1),
    (0x656ACC8D, .fnegPacked 5 42 51 1),
    (0x656ACD0D, .fclassPacked 5 42 51 1),
    (0x656ACDBD, .frndPacked 5 42 51 3 1),
    (0x656ACCCF, .fdot2 5 42 51 12 1)] = true := by decide +kernel

theorem test_decode_major_1a : reads [
    (0x683C0420, .fma 0 60 1 2 0),
    (0x696ACCC9, .fms 5 42 51 12 2),
    (0x696ACCCA, .fnma 5 42 51 12 2)] = true := by decide +kernel

theorem test_decode_major_1b : reads [
    (0x6C011882, .vcmp 0 1 6 8 2),
    (0x6D4ACCC5, .vcmpF 5 2 51 12 5),
    (0x6D4ACCC6, .fcmpu 5 2 51 12)] = true := by decide +kernel

theorem test_decode_major_1c : reads [
    (0x70010004, .vlane 0 1 0),
    (0x70030012, .vmovi 0 3 1),
    (0x716ACCC0, .vsel 5 42 51 12),
    (0x716ACC01, .vmov 5 42 51),
    (0x716A4C03, .vfromg 5 42 19),
    (0x71420C45, .pand 5 2 3 4),
    (0x71420C46, .por 5 2 3 4),
    (0x71420C47, .pxor 5 2 3 4),
    (0x71420C08, .pnot 5 2 3),
    (0x71420C09, .pmov 5 2 3)] = true := by decide +kernel

theorem test_decode_major_1d : reads [
    (0x74020402, .cvtI32ToX 0 2 1 0 0),
    (0x74051049, .vquant 0 5 4 0 1 0 1),
    (0x74040C42, .cvtI32ToX 0 4 3 1 0),
    (0x756ACE70, .cvtF32ToX 5 42 51 9 3),
    (0x756ACE74, .cvtXToF32 5 42 51 9 3),
    (0x756ACE76, .cvtXToI32 5 42 51 9 3),
    (0x756ACC31, .vunpack 5 42 51 1 1),
    (0x756ACC1C, .vdequant 5 42 51 1),
    (0x756ACCCE, .vpackF16 5 42 51 12),
    (0x756ACCCF, .vpackBf16 5 42 51 12)] = true := by decide +kernel

theorem test_decode_major_1e : reads [
    (0x796ACC00, .frcp 5 42 51),
    (0x796ACC01, .frsqrt 5 42 51),
    (0x796ACC02, .fsqrt 5 42 51),
    (0x796ACC03, .fexp2 5 42 51),
    (0x796ACC04, .flog2 5 42 51),
    (0x796ACC05, .fsin 5 42 51),
    (0x796ACC06, .fcos 5 42 51),
    (0x796ACC07, .ftanh 5 42 51)] = true := by decide +kernel

theorem test_decode_major_1f : reads [
    (0x7C081C15, .vred 0 8 7 1),
    (0x7C0A2008, .vpick 0 10 8),
    (0x7C030405, .vred 0 3 1 0),
    (0x7D6ACCC0, .vperm 5 42 51 12),
    (0x7D6ACCC1, .vpermM 5 42 51 12),
    (0x7D6ACD72, .vshufx 5 42 51 1 7),
    (0x7D6ACD73, .vshufy 5 42 51 1 7),
    (0x7D6ACCC4, .vbcast 5 42 51 12),
    (0x7D6ACCA6, .vscan 5 42 51 10),
    (0x7D6ACC07, .vmatch 5 42 51),
    (0x7D4A0C09, .vvote 5 10 3)] = true := by decide +kernel

theorem test_decode_major_20 : reads [
    (0x80010887, .ldw 0 1 2 1 0 7),
    (0x80031387, .ldw 0 3 4 7 0 7),
    (0x804207F7, .ldw 1 2 1 7 7 7)] = true := by decide +kernel

theorem test_decode_major_21 : reads [
    (0x856ACF28, .stw 5 42 51 6 2 8)] = true := by decide +kernel

theorem test_decode_major_22 : reads [
    (0x88071816, .ldeI 0 7 6 6),
    (0x88051826, .ste 0 5 6 6),
    (0x88441426, .ste 1 4 5 6),
    (0x896ACC06, .ldeB 5 42 51 6)] = true := by decide +kernel

theorem test_decode_major_23 : reads [
    (0x8C082407, .vamoAdd 0 8 9 7),
    (0x8D6ACC18, .vamoMinI 5 42 51 8),
    (0x8D6ACC28, .vamoMaxI 5 42 51 8),
    (0x8D6ACC38, .vamoAnd 5 42 51 8),
    (0x8D6ACC48, .vamoOr 5 42 51 8),
    (0x8D6ACC58, .vamoXor 5 42 51 8),
    (0x8D6ACC68, .vamoSwap 5 42 51 8),
    (0x8D6ACC78, .vamoCas 5 42 51 8),
    (0x8D6ACC84, .vamoBfadd 5 42 51 4),
    (0x8D6ACC98, .vamoMinB 5 42 51 8),
    (0x8D6ACCA8, .vamoMaxB 5 42 51 8)] = true := by decide +kernel

theorem test_decode_major_24 : reads [
    (0x92A9CCCE, .lcopy 21 9 51 12 1 6)] = true := by decide +kernel

theorem test_decode_major_25 : reads [
    (0x95800009, .give 12 1),
    (0x9400000A, .share 1),
    (0x9400000B, .claim 1),
    (0x95AB0005, .probe 13 11),
    (0x94000028, .own 5),
    (0x96A00014, .pass 21 2)] = true := by decide +kernel

theorem test_decode_major_27 : reads [
    (0x9DA00008, .rset 13 1),
    (0x9DC00009, .rget 14 1),
    (0x9C000052, .rmov 1 2),
    (0x9D60000B, .radj 11 0 0 1),
    (0x9D6C040B, .radj 11 12 2 1)] = true := by decide +kernel

theorem test_decode_major_28 : reads [
    (0xA080BFE0, .scroll 1 2 0x1FF 0),
    (0xA081002C, .scroll 1 4 1 3),
    (0xA1008004, .scroll 2 2 0 1),
    (0xA082C18D, .scrollReg 1 11 12 3),
    (0xA0000002, .scrollResume),
    (0xA083C201, .scrollReg 1 15 16 0),
    (0xA0FFC000, .scroll 1 0x1FF 0 0)] = true := by decide +kernel

theorem test_decode_major_29 : reads [
    (0xA5800000, .pfill 3),
    (0xA5800004, .pfillZero 3),
    (0xA5830001, .pfillScalar 3 12)] = true := by decide +kernel

theorem test_decode_major_2a : reads [
    (0xA9FDAE92, .mloop 1 63 13 14 18 1 0),
    (0xA8FDF2A0, .mloop 0 63 15 18 20 0 0),
    (0xA8FD6D92, .mloop 0 63 11 13 18 1 0)] = true := by decide +kernel

theorem test_decode_major_2b : reads [
    (0xAC000000, .mcommit),
    (0xAC000011, .mwait 1),
    (0xADE00116, .zcvt 15 0 0 1 1),
    (0xAEC00004, .zst 22 0),
    (0xAC000012, .zclr 1),
    (0xAEA00023, .zld 21 2),
    (0xAC000065, .zmov 1 2),
    (0xAC153E36, .zcvtReg 21 1 3 2 3)] = true := by decide +kernel

theorem test_decode_major_2d : reads [
    (0xB5AE0000, .binit 13 14 0),
    (0xB5AE0008, .binit 13 14 1),
    (0xB5AF0001, .barrive 13 15 0 0),
    (0xB4960002, .bwait 4 22),
    (0xB6AF0009, .barrive 21 15 0 1),
    (0xB56F0004, .bexpect 11 15),
    (0xB6AA0003, .btest 21 10)] = true := by decide +kernel

theorem test_decode_major_2e : reads [
    (0xB84C0048, .semwait 2 12 1 1),
    (0xB84C0049, .sempost 2 12 1 1),
    (0xB86E0022, .park 3 14 4)] = true := by decide +kernel

theorem test_decode_major_2f : reads [
    (0xBC8B6000, .qkick 4 11 12),
    (0xBC000001, .qdrain),
    (0xBDA00002, .qstat 13),
    (0xBDAE0003, .qcancel 13 14)] = true := by decide +kernel

theorem test_decode_major_30 : reads [
    (0xC00F1400, .ssubNib 15 5),
    (0xC1CF1481, .ssubCell 14 15 5 2),
    (0xC0001402, .sunsub 5),
    (0xC1C01403, .spub 14 5)] = true := by decide +kernel

theorem test_decode_major_31 : reads [
    (0xC56C0000, .coll 11 12)] = true := by decide +kernel

theorem test_decode_major_32 : reads [
    (0xC9CF0014, .stepb 14 15 5),
    (0xC8000015, .stepe 5)] = true := by decide +kernel

theorem test_decode_major_33 : reads [
    (0xCD600070, .mark 11 7)] = true := by decide +kernel

/-! ## Well-formedness: for each check of Table 04-9 on a field, terms it refuses -/

def refuses (l : List (Instr × Nat)) : Bool := l.all fun p => fieldReject p.1 = some p.2

theorem test_wf_widths : refuses [
    (.ldB 1 2 3 9 0 0, 4), (.ldI 1 2 3 15 0 0, 4), (.st 1 2 3 9 0 0, 4), (.amoAdd 1 2 3 6 0 0, 4), (.amoMin 1 2 3 9 0 0, 4), (.amoMax 1 2 3 0 0 0, 4),
    (.amoAnd 1 2 3 5 0 0, 4), (.amoOr 1 2 3 6 0 0, 4), (.amoXor 1 2 3 6 0 0, 4), (.amoSwap 1 2 3 6 0 0, 4), (.amoCas 1 2 3 6 0 0, 4),
    (.amoBfadd 1 2 3 7 0 0, 4), (.amoBfset 1 2 3 7 0 0, 4), (.padd 1 2 3 9, 4), (.psub 1 2 3 9, 4), (.pdiff 1 2 3 9, 4), (.pinb 1 2 3 9, 4),
    (.palign 1 2 0 9, 4), (.palign 1 2 0 2, 4), (.palign 1 2 0 4, 4), (.ldw 0 1 2 0 0 6, 4), (.stw 0 1 2 0 0 9, 4), (.ldeB 0 1 2 9, 4), (.ldeI 0 1 2 9, 4),
    (.ste 0 1 2 9, 4), (.vamoAdd 0 1 2 6, 4), (.vamoMinI 0 1 2 6, 4), (.vamoMaxI 0 1 2 6, 4), (.vamoMinB 0 1 2 6, 4), (.vamoMaxB 0 1 2 6, 4),
    (.vamoAnd 0 1 2 6, 4), (.vamoOr 0 1 2 6, 4), (.vamoXor 0 1 2 6, 4), (.vamoSwap 0 1 2 6, 4), (.vamoCas 0 1 2 9, 4), (.vamoBfadd 0 1 2 7, 4)] = true := by
  decide +kernel

theorem test_wf_orders : refuses [
    (.ldB 1 2 3 8 2 0, 4), (.ldI 1 2 3 8 3 0, 4), (.ldc 1 2 3 2 0, 4), (.ldc 1 2 3 0 1, 4), (.st 1 2 3 8 1 0, 4), (.stc 1 2 3 3 0, 4), (.st 1 2 3 8 0 4, 4),
    (.fence 0 0, 4)] = true := by decide +kernel

theorem test_wf_reach : refuses [
    (.ldw 0 1 2 3 0 7, 4), (.ldw 0 1 2 0 5 7, 4), (.stw 0 1 2 4 0 8, 4), (.stw 0 1 2 0 3 8, 4), (.scroll 1 256 0 0, 4), (.scroll 1 0 256 0, 4),
    (.scroll 1 0 1 4, 4), (.scrollReg 1 2 3 4, 4)] = true := by decide +kernel

theorem test_wf_selectors : refuses [
    (.dry 32 1, 4), (.wetq 1 32 1, 4), (.frnd 0 1 2 6, 4), (.frndPacked 0 1 2 6 0, 4), (.fma 0 1 2 3 3, 3), (.fms 0 1 2 3 3, 3), (.fnma 0 1 2 3 3, 3),
    (.vcmp 0 1 2 3 10, 3), (.vcmpF 0 1 2 3 6, 3), (.vlane 0 1 7, 4), (.cvtF32ToX 0 1 2 11 0, 4), (.cvtI32ToX 0 1 2 15 0, 4), (.cvtXToF32 0 1 2 11 0, 4),
    (.cvtXToI32 0 1 2 11 0, 4), (.vquant 0 1 2 0 1 0 3, 4), (.vshufx 0 1 2 3 0, 4), (.vshufx 0 1 2 2 8, 4), (.vshufy 0 1 2 3 0, 4), (.vred 0 1 2 11, 4),
    (.vscan 0 1 2 15, 4), (.lcopy 1 16 2 3 0 0, 4), (.radj 1 0 7 0, 4), (.radj 1 2 0 0, 4), (.mloop 1 63 2 3 5 0 0, 4), (.mloop 1 8 2 3 4 0 0, 4),
    (.zcvt 1 0 0 3 0, 4), (.zcvtReg 1 0 0 3 0, 4), (.setc 3 8, 4)] = true := by decide +kernel

theorem test_wf_none_for_steps_without_a_word : (isWord .boot || isWord .ductusDecision || isWord (.unitStep 0)) = false := by decide +kernel

/-! ## States that meet the hypotheses of the statements -/

/-- A result that is the value `v`. -/
def gives {α : Type} [DecidableEq α] (r : Res α) (v : α) : Bool :=
  match r with
  | .ok x => x = v
  | .error _ => false

theorem gives_ok {α : Type} [DecidableEq α] {r : Res α} {v : α} (h : gives r v = true) : r = .ok v := by
  cases r <;> simp_all [gives]

/-- The same for a translation. -/
def finds {ε α : Type} [DecidableEq α] (r : Except ε α) (v : α) : Bool :=
  match r with
  | .ok x => x = v
  | .error _ => false

theorem finds_ok {ε α : Type} [DecidableEq α] {r : Except ε α} {v : α} (h : finds r v = true) : r = .ok v := by
  cases r <;> simp_all [finds]

/-- A page of virtual bit address 0 of context 1, at physical byte address 2^40. -/
def page : Nat := ({ phys := 0x10000000000, dev := false, x := true, wr := true, rd := true } : Leaf).pack

/-- A team of one scribe. -/
def team0 (p : Place) : Team :=
  { id := 0, asid := 1, launch := 0, index := 0, scribes := [0], places := [p], cores := [0], peak := 0, interval := .noCheckpoint, rollbacks := 0,
    undo := [], image := [], imageBars := [], failing := false, saved := false, held := false, savedScribes := [], savedLines := [], savedBars := [],
    started := 0 }

def place0 : Place := { id := 0, team := 0, asid := 1, width := 0, vregs := 64, tiles := 4, lines := 64 }

/-- A scribe of 16 lanes at the corner of the plane, with every lane but lane 0 on a hole, in a clause. It owns lines 0 to 7 of its cell; c1 is of
global space, c2 of the plane, c3 of host space, c4 of peer space, c5 of the argument block; s0 holds 5, s1 holds 7, s8 holds the first address of
the next PE. In lane 0, v1 holds 5, v2 holds 64, v3 holds 7. -/
def base : State :=
  { me :=
      { at_ := place0
        r := { x := [(1, 64), (8, 5), (9, 7), (16, 131072)], c := [(1, mkCap 0 0x10000 0xFF 0), (2, mkCap 0 (2 ^ 33) 0xFF 1), (3, mkCap 0 0x10000 0xFF 2),
               (4, mkCap 0 (2 ^ 60) 0xFF 3), (5, mkCap 0 1024 1 5)], v := [(64, 5), (128, 64), (192, 7)] }
        ctl := { pc := 64, remain := 4, header := 0x7F, codeCap := mkCap 0 4096 (pExec + pLoad) 0, tvec := 0x400 }
        run := { life := .running } }
    holes := [1, 2, 3, 256, 257, 258, 259, 512, 513, 514, 515, 768, 769, 770, 771]
    lines := (List.range 8).map fun l => (l, { st := .own, owner := 0 })
    teams := [(0, team0 place0)]
    tlb := [(tlbKey 320 1 0, page)] }

/-- The same with another control part, run part, register part or with records. -/
def ctl (f : Ctl → Ctl) : State := { base with me := { base.me with ctl := f base.me.ctl } }
def run (f : Run → Run) : State := { base with me := { base.me with run := f base.me.run } }
def regs (f : Regs → Regs) : State := { base with me := { base.me with r := f base.me.r } }
def wets (w : Wets) : State := { base with me := { base.me with wet := w } }

/-- A record of a load of 64 bits, and its tag. -/
def rec0 (fault : Option Nat) : WetRec := { tag := 0, kind := .int64, a := 1, step := none, mask := 0, fault := fault }
def tag0 (fault : Option Nat) : TagRec :=
  { scalar := true, cap := mkCap 0 0x10000 0xFF 0, space := 0, addr := 0x200, width := 64, signed := false, order := 0, scope := 0, pc := 32, amo := none,
    updated := false, x := 9, lanes := [], poisoned := false, fault := fault, queued := 0, seen := [] }
/-- s0 wet under tag 0. -/
def wet (fault : Option Nat) : State := wets { s := [(8, rec0 fault)], tags := [(0, tag0 fault)], next := 1 }

/-- The next state of an outcome, if it is one and otherwise an empty package; and whether an outcome is the next state `t`. -/
def after (o : Host.Outcome State Fault Refusal) : State :=
  match o with
  | .next t => t
  | _ => {}

def leads (o : Host.Outcome State Fault Refusal) (t : State) : Bool :=
  match o with
  | .next u => u = t
  | _ => false

/-! ### The machine as a whole and scalar words -/

theorem meets_StepRunsDecodedWord :
    let s := { base with dram := writeBytes [] (0x10000000000 + 8) 0x07E00002 4 }
    s.joiner = none ∧ s.agenda = [] ∧ s.engineTurn = false ∧ s.myTurn = true ∧ s.tried.deliverable = false ∧ s.me.ctl.remain ≠ 0
      ∧ s.tried.fetch = .ok (s.tried, 0x07E00002) ∧ decode 0x07E00002 = .ok (.and 31 0 0) ∧ (s.tried.pay 0x07E00002).isSome = true
      ∧ (s.tried.pay 0x07E00002).elim false (fun t => t.clauseCheck 0x07E00002 (.and 31 0 0) = none && t.heldWord (.and 31 0 0) = none) = true ∧ bits (0x07E00002 : BitVec 32).toNat 26 6 ≠ 0x11 := by
  and_intros <;> first | decide +kernel | exact finds_ok (by decide +kernel) | exact gives_ok (by decide +kernel)

theorem meets_StepRunsDecodedWord_pair :
    let s := { base with dram := writeBytes [] (0x10000000000 + 8) 0x0929000044000001 8 }
    s.joiner = none ∧ s.agenda = [] ∧ s.engineTurn = false ∧ s.myTurn = true ∧ s.tried.deliverable = false ∧ s.me.ctl.remain ≠ 0
      ∧ s.tried.fetch = .ok (s.tried, 0x44000001) ∧ bits (0x44000001 : BitVec 32).toNat 26 6 = 0x11 ∧ s.me.ctl.xim = none
      ∧ (let t := after (exec (.xim ((0x44000001 : BitVec 32).setWidth 26)) s.tried)
         leads (exec (.xim ((0x44000001 : BitVec 32).setWidth 26)) s.tried) t = true ∧ t.me.ctl.xim ≠ none ∧ t.fetch = .ok (t, 0x09290000)
           ∧ decode 0x09290000 = .ok (.addi 9 9 0) ∧ (t.pay 0x09290000).elim false (fun u => u.clauseCheck 0x09290000 (.addi 9 9 0) = none && u.heldWord (.addi 9 9 0) = none) = true) := by
  and_intros <;> first | decide +kernel | exact finds_ok (by decide +kernel) | exact gives_ok (by decide +kernel)

theorem meets_DecodeEncode : isWord (.lcopy 21 9 51 12 1 6) = true ∧ wf (.lcopy 21 9 51 12 1 6) = true := by decide +kernel

theorem meets_StepKeepsMemories : base.MemWf ∧ (∃ t, step base = .next t) :=
  ⟨by unfold State.MemWf; decide +kernel, _, rfl⟩

theorem meets_ScalarUse :
    (base.me.wetS 8 = none ∧ look false base.me.r.ps (xKey base.me.ctl.depth 8) = false)
    ∧ ((wet none).me.wetS 8 = some (rec0 none)) ∧ ((wet (some 2)).me.wetS 8 = some (rec0 (some 2)) ∧ (rec0 (some 2)).fault = some 2)
    ∧ (let s := regs fun r => { r with ps := [(8, true)] }; s.me.wetS 8 = none ∧ look false s.me.r.ps (xKey s.me.ctl.depth 8) = true) := by
  decide +kernel

theorem meets_ScalarTwoSources :
    base.readsS (8 : BitVec 5).toNat ∧ base.readsS (9 : BitVec 5).toNat ∧ base.readsS (10 : BitVec 5).toNat ∧ base.getS 8 = 5 ∧ base.getS 10 = 0 := by
  unfold State.readsS; decide +kernel

theorem meets_WidenedImmediates :
    (ctl fun c => { c with xim := some 5 }).me.ctl.xim = some (5 : BitVec 26) ∧ (5 : BitVec 26) ≠ 0 ∧ base.me.ctl.xim = none := by decide +kernel

theorem meets_ScalarOneSource : base.readsS (8 : BitVec 5).toNat ∧ base.getS 8 = 5 := by unfold State.readsS; decide +kernel

theorem meets_ScalarFields :
    base.me.ctl.xim.getD 0 = 0 ∧ base.readsS (8 : BitVec 5).toNat ∧ base.readsS (10 : BitVec 5).toNat
    ∧ (63 : BitVec 6).toNat + (0 : BitVec 6).toNat < 64 ∧ 64 ≤ (63 : BitVec 6).toNat + (1 : BitVec 6).toNat := by
  unfold State.readsS; decide +kernel

theorem meets_ScalarAffine :
    base.me.wetS (8 : BitVec 5).toNat = none ∧ base.me.wetS (9 : BitVec 5).toNat = none ∧ look false base.me.r.ps (xKey base.me.ctl.depth 8) = false
    ∧ look false base.me.r.ps (xKey base.me.ctl.depth 9) = false ∧ base.me.ctl.xim.getD 0 = 0 := by decide +kernel

theorem meets_AffineStaysWet :
    let s := wet none
    s.me.wetS (8 : BitVec 5).toNat = some (rec0 none) ∧ s.me.wetS (9 : BitVec 5).toNat = none ∧ look false s.me.r.ps (xKey s.me.ctl.depth 9) = false
    ∧ s.me.wet.recCount < 32 ∧ s.me.ctl.xim.getD 0 = 0 := by decide +kernel

/-- Lane 0 live, and a state with lanes 0 and 1 live whose q1 holds in lane 0 alone. -/
def two : State := { base with holes := base.holes.erase 1, me := { base.me with r := { base.me.r with q := [(1, 1)] } } }

theorem meets_Branches :
    (0 < 64 ∧ bitOf two.live 0 = true ∧ bitOf (two.getQ 1) 0 = true) ∧ (1 < 64 ∧ bitOf two.live 1 = true ∧ ¬ bitOf (two.getQ 1) 1 = true)
    ∧ ((∀ l < 64, bitOf base.live l = true → bitOf (base.getQ 0) l = true) ∧ (∀ l < 64, bitOf base.live l = true → ¬ bitOf (base.getQ 1) l = true))
    ∧ base.goodTarget (base.target 4) ∧ base.goodTarget 0xFE0 ∧ ¬ base.goodTarget 0x1000 ∧ (0x1000 : Word).toNat % 32 = 0 ∧ (33 : Word).toNat % 32 ≠ 0 := by
  unfold State.goodTarget; decide +kernel

theorem meets_CallReturn :
    base.noneWet callerArgs = .ok () ∧ base.me.ctl.depth < 65535 ∧ 16 * (base.me.ctl.depth + 1) + 24 ≤ base.me.ctl.heldBase + 256
    ∧ base.goodTarget (base.target 4) ∧ base.sval (1 : BitVec 5).toNat = .ok 64 ∧ base.goodTarget 64 ∧ base.me.ctl.depth = 0
    ∧ (let s := ctl fun c => { c with depth := 65535, heldBase := 1048560 }; s.noneWet callerArgs = .ok () ∧ s.me.ctl.depth = 65535 ∧ s.goodTarget (s.target 4))
    ∧ (let s : State := (ctl fun c => { c with depth := 1 }).setS 16 96
       s.me.ctl.depth ≠ 0 ∧ s.sval 16 = .ok 96 ∧ s.noneWet calleeArgs = .ok () ∧ s.goodTarget 96 ∧ s.me.ctl.heldBase ≤ 16 * (s.me.ctl.depth - 1)) := by
  unfold State.goodTarget
  and_intros <;> first | decide +kernel | exact gives_ok (by decide +kernel)

/-! ### Scalar memory words -/

def launch0 : Launch :=
  { packet := 0, queue := 0, asid := 1, number := 0, code := mkCap 0 4096 17 0, arg := mkCap 0 1024 1 0, spill := mkCap 0 0x10000 3 0, argMem := [(0, 9)], argTags := [],
    handed := 1, completed := 0, status := 0, stopped := false, reported := false }

/-- What a read of c1 at 0 gives. -/
def got (s : State) (bad : Option (Nat × Nat)) (st : State) : Bool :=
  match s.getFar s.meWho 0 0 64 .load with
  | .ok g => g.bad = bad && g.waits = none && g.dev = false && g.st = st
  | .error _ => false

theorem meets_ScalarLoads :
    (base.scalarAddr (0 : BitVec 4).toNat (0 : BitVec 5).toNat = .ok (emptyCap, 0) ∧ base.acquire (0 : BitVec 2).toNat = .ok ()
      ∧ capCheck emptyCap 0 64 pLoad .load false = some cCAP_TAG)
    ∧ (base.scalarAddr (2 : BitVec 4).toNat (1 : BitVec 5).toNat = .ok (mkCap 0 (2 ^ 33) 0xFF 1, 64)
      ∧ capCheck (mkCap 0 (2 ^ 33) 0xFF 1) 64 64 pLoad .load false = none ∧ (mkCap 0 (2 ^ 33) 0xFF 1).space = 1 ∧ base.planeCheck false 64 64 = .ok true
      ∧ base.planePoison 64 64 = false)
    ∧ (base.scalarAddr (2 : BitVec 4).toNat (16 : BitVec 5).toNat = .ok (mkCap 0 (2 ^ 33) 0xFF 1, 131072)
      ∧ capCheck (mkCap 0 (2 ^ 33) 0xFF 1) 131072 64 pLoad .load false = none ∧ base.planeCheck false 131072 64 = .ok false)
    ∧ (base.scalarAddr (3 : BitVec 4).toNat (0 : BitVec 5).toNat = .ok (mkCap 0 0x10000 0xFF 2, 0)
      ∧ capCheck (mkCap 0 0x10000 0xFF 2) 0 64 pLoad .load false = none ∧ (mkCap 0 0x10000 0xFF 2).space = 2)
    ∧ (base.scalarAddr (5 : BitVec 4).toNat (0 : BitVec 5).toNat = .ok (mkCap 0 1024 1 5, 0)
      ∧ capCheck (mkCap 0 1024 1 5) 0 64 pLoad .load false = none ∧ (mkCap 0 1024 1 5).space = 5
      ∧ find ({ base with launches := [(0, launch0)] } : State).launches base.me.at_.launch = some launch0)
    ∧ (base.scalarAddr (1 : BitVec 4).toNat (0 : BitVec 5).toNat = .ok (mkCap 0 0x10000 0xFF 0, 0)
      ∧ capCheck (mkCap 0 0x10000 0xFF 0) 0 64 pLoad .load false = none ∧ (mkCap 0 0x10000 0xFF 0).space = 0)
    ∧ base.afterOwn 1 64 64 = .ok base ∧ base.afterOwn 1 131072 64 = .ok base ∧ base.afterOwn 2 0 64 = .ok base ∧ base.afterOwn 5 0 64 = .ok base
    ∧ base.afterOwn 0 0 64 = .ok base := by
  and_intros <;> first | decide +kernel | exact gives_ok (by decide +kernel)

theorem meets_ScalarLoads_far :
    (let s : State := { base with arrivals := [true] }; got s none s = true ∧ s.arrivals.headD false = true)
    ∧ got base none base = true ∧ base.arrivals.headD false = false ∧ base.needTags 1 = .ok () ∧ base.me.wet.recCount < 32
    ∧ find base.me.wet.tags base.me.wet.next = none
    ∧ (let s : State := { base with eccHard := [(0x10000000000 / 32, 1)] }
       (match s.getFar s.meWho 0 0 64 .load with | .ok g => g.bad = some (2, 0) && g.dev = false | .error _ => false) = true) := by
  and_intros <;> first | decide +kernel | exact gives_ok (by decide +kernel)

/-- One piece of a page. -/
def piece (a n : Nat) : List Piece := [⟨0x80000000000 + a, n, false⟩]

theorem meets_ScalarStores :
    base.storeVal (8 : BitVec 5).toNat = .ok (5, false) ∧ base.release (0 : BitVec 2).toNat = .ok ()
    ∧ capCheck emptyCap 0 64 pStore .store false = some cCAP_TAG
    ∧ capCheck (mkCap 0 (2 ^ 33) 0xFF 1) 64 64 pStore .store false = none ∧ base.planeCheck true 64 64 = .ok true
    ∧ capCheck (mkCap 0 (2 ^ 33) 0xFF 1) 131072 64 pStore .store false = none ∧ base.planeCheck true 131072 64 = .ok false
    ∧ capCheck (mkCap 0 0x10000 0xFF 2) 0 64 pStore .store false = none
    ∧ capCheck (mkCap 0 0x10000 0xFF 0) 0 64 pStore .store false = none ∧ base.served 1 0 0 64 = some (1, 0) ∧ base.reaches base.meWho 1 .store 0 64 (piece 0 64)
    ∧ base.afterOwn 0 0 64 = .ok base ∧ base.afterOwn 1 64 64 = .ok base ∧ (piece 0 64).any (·.dev) = false
    ∧ (let s : State := { base.setS 2 (2 ^ 48) with ports := [(0, { up := true, pkg := 1 })] }
       s.scalarAddr (4 : BitVec 4).toNat (2 : BitVec 5).toNat = .ok (mkCap 0 (2 ^ 60) 0xFF 3, 2 ^ 48)
       ∧ capCheck (mkCap 0 (2 ^ 60) 0xFF 3) (2 ^ 48) 64 pStore .store false = none ∧ s.served s.me.at_.asid 3 (2 ^ 48) 64 = none ∧ s.afterOwn 3 (2 ^ 48) 64 = .ok s ∧ s.peerReachable (2 ^ 48) = true) := by
  and_intros <;> first | decide +kernel | exact finds_ok (by decide +kernel) | exact gives_ok (by decide +kernel)

/-- c6 holds a capability that may not be stored through c7, which has no store-capability permission. -/
def caps : State := regs fun r => { r with c := r.c ++ [(6, mkCap 0 64 1 0), (7, mkCap 0 (2 ^ 33) 0xFF7 1)] }

theorem meets_CapabilityMemory :
    (6 : BitVec 4).toNat < 14 ∧ capCheck (mkCap 0 (2 ^ 33) 0xFF 1) 0 128 pLoad .load true = none ∧ base.planeCheck false 0 128 = .ok true
    ∧ base.planePoison 0 128 = false ∧ capCheck (mkCap 0 0x10000 0xFF 0) 0 128 pLoad .load true = none
    ∧ (match base.getFar base.meWho 0 0 128 .load with | .ok g => g.bad = none && g.waits = none | .error _ => false) = true
    ∧ caps.afterOwn 0 0 128 = .ok caps ∧ caps.afterOwn 1 0 128 = .ok caps ∧ caps.cval (6 : BitVec 4).toNat = .ok (mkCap 0 64 1 0) ∧ (mkCap 0 64 1 0).tag = true ∧ caps.release (0 : BitVec 2).toNat = .ok ()
    ∧ caps.scalarAddr (7 : BitVec 4).toNat (0 : BitVec 5).toNat = .ok (mkCap 0 (2 ^ 33) 0xFF7 1, 0) ∧ (mkCap 0 (2 ^ 33) 0xFF7 1).has pStoreCap = false
    ∧ (mkCap 0 (2 ^ 33) 0xFF7 1).tag = true ∧ caps.me.ctl.handler = false ∧ caps.planeCheck true 0 128 = .ok true
    ∧ capCheck (mkCap 0 (2 ^ 33) 0xFF 1) 0 128 (pStore + pStoreCap) .store true = none
    ∧ base.afterOwn 0 0 128 = .ok base ∧ base.afterOwn 1 0 128 = .ok base
    ∧ caps.reaches caps.meWho caps.me.at_.asid .store 0 128 [⟨0x80000000000, 128, false⟩] ∧ caps.channels = [] ∧ caps.eccSoft = [] ∧ caps.eccHard = []
    ∧ capCheck (mkCap 0 0x10000 0xFF 0) 0 128 (pStore + pStoreCap) .store true = none := by
  and_intros <;> first | decide +kernel | exact gives_ok (by decide +kernel) | exact finds_ok (by decide +kernel)

theorem meets_ScalarAtomics :
    base.sdry [(8 : BitVec 5).toNat] = .ok () ∧ base.sdry [(8 : BitVec 5).toNat + 1] = .ok () ∧ base.ordered (0 : BitVec 2).toNat = .ok ()
    ∧ capCheck (mkCap 0 (2 ^ 33) 0xFF 1) 64 64 (pLoad + pStore + pAtomic) .atomic false = none ∧ base.planeCheck true 64 64 = .ok true ∧ base.planePoison 64 64 = false
    ∧ capCheck (mkCap 0 (2 ^ 33) 0xFF 1) 131072 64 (pLoad + pStore + pAtomic) .atomic false = none ∧ base.planeCheck true 131072 64 = .ok false
    ∧ capCheck (mkCap 0 0x10000 0xFF 0) 0 64 (pLoad + pStore + pAtomic) .atomic false = none ∧ base.reaches base.meWho base.me.at_.asid .atomic 0 64 (piece 0 64)
    ∧ base.afterOwn 0 0 64 = .ok base ∧ (piece 0 64).any (·.dev) = false
    ∧ base.fetchPieces base.meWho 0 (piece 0 64) = (base, []) ∧ base.sdry [(31 : BitVec 5).toNat] = .ok ()
    ∧ base.served base.me.at_.asid 0 0 64 = some (1, 0) ∧ base.arrivals.headD false = false ∧ base.needTags 1 = .ok () ∧ base.me.wet.recCount < 32
    ∧ find base.me.wet.tags base.me.wet.next = none ∧ ({ base with arrivals := [true] } : State).arrivals.headD false = true
    ∧ capCheck emptyCap 0 64 (pLoad + pStore + pAtomic) .atomic false = some cCAP_TAG
    ∧ (let c := mkCap 0 0x10000 0xFF 2
       c.space = 2 ∧ c.tag = true ∧ c.has (pLoad + pStore + pAtomic) = true ∧ c.base ≤ 64 ∧ 64 + 64 ≤ c.top ∧ 64 + 64 ≤ spaceLimit 2)
    ∧ (let s : State := { base.setS 2 (2 ^ 48) with ports := [(0, { up := true, pkg := 1 })] }
       s.scalarAddr (4 : BitVec 4).toNat (2 : BitVec 5).toNat = .ok (mkCap 0 (2 ^ 60) 0xFF 3, 2 ^ 48)
       ∧ capCheck (mkCap 0 (2 ^ 60) 0xFF 3) (2 ^ 48) 64 (pLoad + pStore + pAtomic) .atomic false = none ∧ s.served s.me.at_.asid 3 (2 ^ 48) 64 = none
       ∧ s.afterOwn 3 (2 ^ 48) 64 = .ok s ∧ s.peerReachable (2 ^ 48) = true ∧ s.peerPoison (2 ^ 48) 64 = false) := by
  and_intros <;> first | decide +kernel | exact finds_ok (by decide +kernel) | exact gives_ok (by decide +kernel)

theorem meets_MemoryWrites : base.channels = [] ∧ base.eccSoft = [] ∧ base.eccHard = [] ∧ piece 0 64 = [⟨0x80000000000, 64, false⟩] := by decide +kernel

/-! ### Capabilities, traps and the system words -/

theorem meets_CapabilityReads :
    base.cval (2 : BitVec 4).toNat = .ok (mkCap 0 (2 ^ 33) 0xFF 1) ∧ base.cval (1 : BitVec 4).toNat = .ok (mkCap 0 0x10000 0xFF 0)
    ∧ base.sval (8 : BitVec 5).toNat = .ok 5 ∧ (mkCap 0 (2 ^ 33) 0xFF 1).cursor % 8 = 0
    ∧ (let s := regs fun r => { r with c := [(1, mkCap 3 64 1 0)] }; s.cval (1 : BitVec 4).toNat = .ok (mkCap 3 64 1 0) ∧ (mkCap 3 64 1 0).cursor % 8 ≠ 0) := by
  and_intros <;> first | decide +kernel | exact gives_ok (by decide +kernel)

theorem meets_CapabilityWrites :
    ((15 : BitVec 4) = 15 ∧ base.me.ctl.handler = false) ∧ (6 : BitVec 4).toNat < 14
    ∧ base.cval (1 : BitVec 4).toNat = .ok (mkCap 0 0x10000 0xFF 0) ∧ base.cval (0 : BitVec 4).toNat = .ok emptyCap ∧ emptyCap.tag = false
    ∧ base.sval (1 : BitVec 5).toNat = .ok 64 ∧ base.sval (16 : BitVec 5).toNat = .ok 131072
    ∧ (let c := mkCap 0 0x10000 0xFF 0
       c.tag = true ∧ c.base ≤ 64 % 2 ^ 64 ∧ 64 % 2 ^ 64 ≤ c.top ∧ c.cursor + (64 : Word).toNat ≤ 2 ^ 64
       ∧ c.base ≤ c.cursor - c.cursor % 2 ^ (encodeBounds c.cursor (64 : Word).toNat).1
       ∧ (c.cursor + (64 : Word).toNat + 2 ^ (encodeBounds c.cursor (64 : Word).toNat).1 - 1) / 2 ^ (encodeBounds c.cursor (64 : Word).toNat).1
           * 2 ^ (encodeBounds c.cursor (64 : Word).toNat).1 ≤ c.top
       ∧ c.top < (c.cursor + (131072 : Word).toNat + 2 ^ (encodeBounds c.cursor (131072 : Word).toNat).1 - 1) / 2 ^ (encodeBounds c.cursor (131072 : Word).toNat).1
           * 2 ^ (encodeBounds c.cursor (131072 : Word).toNat).1) := by
  and_intros <;> first | decide +kernel | exact gives_ok (by decide +kernel)

/-- The scribe in its handler, returning to the header position 96, or into the clause it left; and one that has a replay to do. -/
def handler (status remain : Nat) : State :=
  ctl fun c => { c with handler := true, tpc := 96, tstatus := word status, savedPc := 96, savedHeader := 0x7F, savedRemain := remain, tcause := 1 }
def replaying : State :=
  let s := wet (some 1)
  { s with me := { s.me with
      ctl := { s.me.ctl with handler := true, tpc := 96, tcause := 0x109 }
      run := { s.me.run with replayTag := some 0 } } }

theorem meets_TrapEntry :
    cILLEGAL ≠ cPOISON ∧ cILLEGAL ≠ cWET_FAULT ∧ base.me.ctl.handler = false ∧ base.me.ctl.entryRuns = true ∧ base.me.ctl.xim = none ∧ base.me.ctl.remain < 16
    ∧ (handler 0 0).me.ctl.handler = true ∧ (ctl fun c => { c with tvec := 0 }).me.ctl.entryRuns = false ∧ cILLEGAL < 2 ^ 8
    ∧ base.team base.me.at_.team = some (team0 place0) ∧ (team0 place0).id = base.me.at_.team := by decide +kernel

theorem meets_TrapWords :
    base.me.ctl.handler = false ∧ base.me.ctl.entryRuns = true ∧ base.breakCapture = false
    ∧ (let s : State := { base with sessions := [(1, { drain := emptyCap, logN := 12, types := 0, clusters := 0, brkcap := true, corr := 0, written := 0 })] }
       s.me.ctl.handler = false ∧ s.me.ctl.entryRuns = true ∧ s.breakCapture = true) := by decide +kernel

theorem meets_TrapReturn :
    base.me.ctl.handler = false
    ∧ (let s := handler (3 * 2 ^ 32 + 0x7E) 3; s.me.ctl.handler = true ∧ bits s.me.ctl.tstatus.toNat 32 4 ≠ 0 ∧ s.resumeOk = false)
    ∧ (let s := handler (3 * 2 ^ 32 + 0x7F) 3; s.me.ctl.handler = true ∧ bits s.me.ctl.tstatus.toNat 32 4 ≠ 0 ∧ s.resumeOk = true ∧ bits s.me.ctl.tcause.toNat 0 8 ≠ 9)
    ∧ (let s := handler 0 0; s.me.ctl.handler = true ∧ bits s.me.ctl.tstatus.toNat 32 4 = 0)
    ∧ (let s := replaying
       s.me.ctl.handler = true ∧ bits s.me.ctl.tstatus.toNat 32 4 = 0 ∧ bits s.me.ctl.tcause.toNat 0 8 = 9 ∧ s.me.run.replayTag = some 0
       ∧ find s.me.wet.tags 0 = some (tag0 (some 1)) ∧ (tag0 (some 1)).updated = false ∧ (tag0 (some 1)).amo = none
       ∧ (match s.afterTags (· < 0) 0 0x200 64 with | .ok t => t = s | .error _ => false) = true
       ∧ (match s.getFar s.meWho 0 0x200 64 .load with | .ok g => g.st = s && g.waits = none && g.bad = none | .error _ => false) = true
       ∧ rising s.me.wet.s = true ∧ find s.me.wet.s 8 = some (rec0 (some 1)) ∧ (rec0 (some 1)).tag = 0) := by decide +kernel

theorem meets_ControlRegisters :
    base.creg (0x001 : BitVec 10).toNat = some 0 ∧ base.creg (0x004 : BitVec 10).toNat = none ∧ base.sval (8 : BitVec 5).toNat = .ok 5
    ∧ base.creg (0x023 : BitVec 10).toNat ≠ none ∧ (base.me.setCreg (0x023 : BitVec 10).toNat 5).isSome = true
    ∧ (0x051 : BitVec 10) ∈ [0x000, 0x015, 0x040, 0x041, 0x042, 0x043, 0x050, 0x051, 0x052, (0x053 : BitVec 10)]
    ∧ (0x010 : BitVec 10) ∈ [0x010, 0x011, 0x012, 0x013, (0x014 : BitVec 10)] ∧ base.me.ctl.handler = false ∧ (5 : Word).toNat < 2 ^ 32 := by
  and_intros <;> first | decide +kernel | exact gives_ok (by decide +kernel)

def job0 : PlaneJob :=
  { fill := false, reg := 1, mode := 0, rect := 0, dx := 1, dy := 0, dxd := 0, dyd := 0, dx0 := 0, dy0 := 0, fillv := 0, pattern := 0, halt := 0, lines := [], metHole := false }

theorem meets_SmallWords :
    base.me.run.jobs = [] ∧ base.ordered (3 : BitVec 2).toNat = .ok () ∧ (run fun r => { r with jobs := [job0] }).me.run.jobs ≠ []
    ∧ base.me.ctl.xim = none ∧ 1 < base.me.ctl.remain ∧ (ctl fun c => { c with remain := 1 }).me.ctl.remain ≤ 1 ∧ base.me.ctl.xim.getD 0 = 0
    ∧ base.me.wetS ((8 : BitVec 6).toNat % 32) = none ∧ base.me.wetV (base.vr (8 : BitVec 6).toNat) = none
    ∧ (wet none).me.wetS ((8 : BitVec 6).toNat % 32) = some (rec0 none) ∧ (rec0 none).fault = none ∧ base.me.pendingWet = false ∧ (wet none).me.pendingWet = true :=
  ⟨by decide +kernel, gives_ok (by decide +kernel), by decide +kernel⟩

theorem meets_Clauses :
    (let s := ctl fun c => { c with remain := 0 }; s.me.run.life = .running ∧ s.me.ctl.remain = 0 ∧ s.fetch = .ok (s, 0) ∧ headerOk 0x71 = true ∧ headerOk 0 = false)
    ∧ base.me.run.life = .running ∧ base.me.ctl.remain ≠ 0 ∧ 0x34 ≤ bits (0xFFFFFFFF : BitVec 32).toNat 26 6
    ∧ bits (0x22400000 : BitVec 32).toNat 26 6 = 0x08 ∧ bits (0x22400000 : BitVec 32).toNat 22 4 = 9
    ∧ bits (0x04000015 : BitVec 32).toNat 26 6 = 0x01 ∧ bits (0x04000015 : BitVec 32).toNat 0 11 = 0x15
    ∧ bits (0x04000814 : BitVec 32).toNat 26 6 = 0x01 ∧ bits (0x04000814 : BitVec 32).toNat 0 11 = 0x14 ∧ decodeTableWord 32 (0x04000814 : BitVec 32).toNat = none := by
  and_intros <;> first | decide +kernel | exact gives_ok (by decide +kernel)

theorem meets_StepMarkExit :
    base.me.ctl.xim = none ∧ base.sval (8 : BitVec 5).toNat = .ok 5 ∧ base.sval (9 : BitVec 5).toNat = .ok 7 ∧ base.me.ctl.stepOpen = false ∧ (7 : Word) ≠ 0
    ∧ (7 : Word).toNat < 2 ^ 48 ∧ base.sval (10 : BitVec 5).toNat = .ok 0
    ∧ (let s := ctl fun c => { c with stepOpen := true, stepId := 9 }; s.me.ctl.xim = none ∧ s.me.ctl.stepOpen = true ∧ s.me.ctl.stepId = (9 : BitVec 12).setWidth 32)
    ∧ (wet none).exitWaits = some .exiting ∧ base.exitWaits = none ∧ base.me.run.life ≠ .free ∧ base.me.at_.pair = none
    ∧ find base.sessions base.me.at_.asid.toNat = none
    ∧ (∀ k, k = 0x10 ∨ k = 0 → let ss : Session := { drain := emptyCap, logN := 12, types := BitVec.ofNat 32 k, clusters := BitVec.ofNat 64 (k / 16), brkcap := true, corr := 0, written := 0 }
       let s : State := { base with sessions := [(1, ss)], clusters := [(0, { lastHi := [(1, 1)] })] }
       let f : Cluster := look {} s.clusters (clusterOf s.me.at_.id)
       find s.sessions s.me.at_.asid.toNat = some ss ∧ ss.records 4 = decide (k = 0x10) ∧ bits ss.clusters.toNat (clusterOf s.me.at_.id) 1 = k / 16 ∧ f.folio.length < 4096 ∧ look 0 f.dropped s.me.at_.asid.toNat = 0
         ∧ look 0 f.lastHi s.me.at_.asid.toNat = s.time / 2 ^ 20 + 1)
    ∧ find base.others base.me.at_.id.toNat = none ∧ base.streams = [] ∧ (∀ q ∈ base.bars, ¬ base.me.at_.id ∈ q.2.participants) := by
  and_intros <;> first | decide +kernel | exact gives_ok (by decide +kernel) | (rintro k (rfl | rfl) <;> decide +kernel)

/-! ### Lane words -/

theorem meets_ActiveLanes : base.me.at_.width < 3 ∧ 0 < 64 ∧ bitOf (base.active 0) 0 = true ∧ bitOf (base.active 8) 0 = false
    ∧ place0.width < 3 ∧ (200 < 256 ∧ 130 < 256 ∧ 1696 < 131072) := by decide +kernel

theorem meets_LaneTwoSources :
    base.vdryAll (base.active 0) [base.vr (1 : BitVec 6).toNat, base.vr (2 : BitVec 6).toNat] = .ok () ∧ base.vdry (base.vr (3 : BitVec 6).toNat) (base.active 0) = .ok () :=
  ⟨gives_ok (by decide +kernel), gives_ok (by decide +kernel)⟩

theorem meets_LaneOneSource :
    base.vdry (base.vr (1 : BitVec 6).toNat) (base.active 0) = .ok () ∧ base.vdry (base.vr (2 : BitVec 6).toNat) (base.live &&& ~~~base.active 0) = .ok ()
    ∧ base.me.ctl.xim.getD 0 = 0 ∧ base.sval (8 : BitVec 5).toNat = .ok 5 :=
  ⟨gives_ok (by decide +kernel), gives_ok (by decide +kernel), by decide +kernel, gives_ok (by decide +kernel)⟩

/-- Lane 0 of v1 holds a NaN, of v2 the value 1, of v3 the value -2. -/
def floats : State := regs fun r => { r with v := [(64, 0x7FC00000), (128, 0x3F800000), (192, 0xC0000000)] }

theorem meets_Predicates :
    floats.vdryAll (floats.active 0) [floats.vr (1 : BitVec 6).toNat, floats.vr (2 : BitVec 6).toNat] = .ok ()
    ∧ (opval floats.me.ctl.daz .f32 (floats.getV (floats.vr (1 : BitVec 6).toNat) 0).toNat).isNan = true
    ∧ opval floats.me.ctl.daz .f32 (floats.getV (floats.vr (2 : BitVec 6).toNat) 0).toNat = .fin false 8388608 (-23) false
    ∧ opval floats.me.ctl.daz .f32 0x3FC00000 = .fin false 12582912 (-23) false :=
  ⟨gives_ok (by decide +kernel), by decide +kernel, by decide +kernel, by decide +kernel⟩

theorem meets_FloatArithmetic :
    floats.vdryAll (floats.active 0) [floats.vr (1 : BitVec 6).toNat, floats.vr (2 : BitVec 6).toNat] = .ok ()
    ∧ floats.vdryAll (floats.active 0) [floats.vr (1 : BitVec 6).toNat, floats.vr (2 : BitVec 6).toNat, floats.vr (3 : BitVec 6).toNat] = .ok ()
    ∧ (0 : BitVec 2) = 0 ∧ (2 : BitVec 2) ≠ 0 :=
  ⟨gives_ok (by decide +kernel), gives_ok (by decide +kernel), by decide⟩

theorem meets_RoundingIsExact :
    0xFF < 2 ^ Fmt.f32.width ∧ (fval .f32 0xFF).isNan = false ∧ fval .f32 0xFF ≠ .inf true ∧ fval .f32 0xFF ≠ .inf false
    ∧ (base.me.ctl.rmWith 0).ftz = false ∧ 0x80 < 2 ^ Fmt.f16.width ∧ (fval .f16 0x8001).isNan = false := by decide +kernel

theorem meets_Conversions :
    floats.vdry (floats.vr (1 : BitVec 6).toNat) (floats.active 0) = .ok () ∧ bitOf (floats.active 0) 0 = true
    ∧ (opval floats.me.ctl.daz .f32 (floats.getV (floats.vr (1 : BitVec 6).toNat) 0).toNat).isNan = true
    ∧ floats.vdryAll (floats.active 0) [floats.vr (1 : BitVec 6).toNat, floats.vr (2 : BitVec 6).toNat] = .ok () :=
  ⟨gives_ok (by decide +kernel), by decide +kernel, by decide +kernel, gives_ok (by decide +kernel)⟩

/-- v4 wet in lane 0 under tag 0. -/
def wetLane : WetRec := { tag := 0, kind := .int32, a := 1, step := none, mask := 1, fault := none }
def wetV : State := wets { v := [(4, wetLane)], tags := [(0, { tag0 none with scalar := false, lanes := [(0, 64)] })], next := 1 }

theorem meets_LaneStaysWet :
    wetV.me.wetV (wetV.vr (4 : BitVec 6).toNat) = some wetLane ∧ wetLane.kind = .int32 ∧ wetLane.mask &&& wetV.active 0 ≠ 0
    ∧ wetV.me.poisonLanes (wetV.vr (4 : BitVec 6).toNat) (wetV.active 0) true = 0 ∧ wetV.vdry (wetV.vr (2 : BitVec 6).toNat) (wetV.active 0) = .ok ()
    ∧ wetV.me.wetV (wetV.vr (7 : BitVec 6).toNat) = none ∧ wetV.me.wet.recCount < 32 ∧ wetLane.a = 1
    ∧ (∀ l, l < 64 → bitOf wetLane.mask l = true → wetV.getV (wetV.vr (4 : BitVec 6).toNat) l = 0)
    ∧ wetV.uniform (wetV.vr (2 : BitVec 6).toNat) (wetV.active 0) = some 64
    ∧ wetV.vdry (wetV.vr (7 : BitVec 6).toNat) (wetV.active 0) = .ok () ∧ wetLane.mask &&& ~~~(wetLane.mask &&& wetV.active 0) = 0
    ∧ wetV.me.ctl.xim.getD 0 = 0 := by
  and_intros <;> first | decide +kernel | exact gives_ok (by decide +kernel)

/-- One segment over the patch; lanes 0 and 1 live, with 5 and 9 in v1. -/
def seg : State :=
  { two with me := { two.me with ctl := { two.me.ctl with part := 10 }, r := { two.me.r with v := [(64, 5), (65, 9), (128, 1)] } } }

theorem meets_CrossLane :
    seg.me.at_.width < 3 ∧ seg.me.ctl.sw = seg.me.at_.pw ∧ seg.me.ctl.sh = seg.me.at_.ph ∧ seg.vdry (seg.vr (1 : BitVec 6).toNat) seg.live = .ok ()
    ∧ seg.vdry (seg.vr (2 : BitVec 6).toNat) (seg.active 0) = .ok () ∧ 0 ≤ (3 : BitVec 4).toInt ∧ (3 : BitVec 4).toNat < 11 ∧ seg.me.ctl.rmField ≠ 5
    ∧ (lanesOf (seg.active 8) = [] ∧ (lanesOf (seg.active 0)).head? = some 0
      ∧ ((lanesOf (seg.active 0)).tail.any fun j => seg.getV (seg.vr (1 : BitVec 6).toNat) j ≠ seg.getV (seg.vr (1 : BitVec 6).toNat) 0) = true)
    ∧ (bitOf (seg.active 0) 0 = true ∧ bitOf (seg.active 0) 1 = true ∧ seg.getV (seg.vr (1 : BitVec 6).toNat) 0 ≠ seg.getV (seg.vr (1 : BitVec 6).toNat) 1)
    ∧ (∀ l, l < 64 → ∀ l', l' < 64 → bitOf (seg.active 1) l = true → bitOf (seg.active 1) l' = true →
        seg.getV (seg.vr (1 : BitVec 6).toNat) l = seg.getV (seg.vr (1 : BitVec 6).toNat) l') := by
  and_intros <;> first | decide +kernel | exact gives_ok (by decide +kernel)

/-! ### Lane words on the plane -/

/-- The line that v2 points to in lane 0's cell is landing; or its owner is another scribe. -/
def landing : State := { base with lines := [(0, { st := .engine, present := false, holder := 0 })] }
def foreign : State := { base with lines := [(0, { st := .own, owner := 5 })] }

theorem meets_LaneLoads :
    base.vdry (base.vr (2 : BitVec 6).toNat) (base.active 0) = .ok () ∧ widthOf (7 : BitVec 4).toNat = 32 ∧ widthOf (8 : BitVec 4).toNat = 64
    ∧ (4 : BitVec 6).toNat % 2 = 0 ∧ (5 : BitVec 6).toNat % 2 = 1 ∧ base.active 0 ≠ 0
    ∧ (∀ l, l < 64 → bitOf (base.active 0) l = true → base.laneCheck false false 0 0 32 (base.depthOf 2 l) l = .go (.cell 64 false) ∧ base.planePoison 64 32 = false)
    ∧ (∀ l, l < 64 → bitOf (base.active 0) l = true → base.laneCheck false false 1 0 32 (base.depthOf 2 l) l = .go (.none 1 2))
    ∧ (∀ l, l < 64 → bitOf (landing.active 0) l = true → landing.laneCheck false false 0 0 32 (landing.depthOf 2 l) l = .go (.cell 64 true))
    ∧ landing.needTags 1 = .ok () ∧ find landing.me.wet.v 7 = none ∧ landing.me.wet.recCount < 32 ∧ find landing.me.wet.tags landing.me.wet.next = none
    ∧ (match foreign.laneCheck false false 0 0 32 (foreign.depthOf 2 0) 0 with | .fails k _ => k = 2 | _ => false) = true := by
  and_intros <;> first | decide +kernel | exact gives_ok (by decide +kernel)

/-- The island is in retention, so an access to its lines waits. -/
def busy : State := { base with islands := [(islandOfLine 0, { retention := true })] }

theorem meets_LaneStores :
    base.vdryAll (base.active 0) (base.vr (2 : BitVec 6).toNat :: pair (base.vr (1 : BitVec 6).toNat) 32) = .ok () ∧ base.me.at_.ox + base.me.at_.pw ≤ 256
    ∧ (∀ l, l < 64 → bitOf (base.active 0) l = true → base.laneCheck true false 0 0 32 (base.depthOf 2 l) l = .go (.cell 64 false))
    ∧ (∀ l, l < 64 → bitOf (base.active 0) l = true → base.laneCheck true false 0 1 32 (base.depthOf 2 l) l = .go (.none 1 2))
    ∧ bitOf (busy.active 0) 0 = true ∧ (match busy.laneCheck true false 0 0 32 (busy.depthOf 2 0) 0 with | .waits _ k => k = 0 | _ => false) = true
    ∧ (match busy.laneCheck false false 0 0 32 (busy.depthOf 2 0) 0 with | .waits _ k => k = 0 | _ => false) = true
    ∧ bitOf (foreign.active 0) 0 = true ∧ (match foreign.laneCheck true false 0 0 32 (foreign.depthOf 2 0) 0 with | .fails k _ => k = 2 | _ => false) = true := by
  and_intros <;> first | decide +kernel | exact gives_ok (by decide +kernel)

theorem meets_LaneAtomics :
    base.vdryAll (base.active 0) (base.vr (2 : BitVec 6).toNat :: pair (base.vr (1 : BitVec 6).toNat) 32) = .ok () ∧ base.me.at_.ox + base.me.at_.pw ≤ 256
    ∧ (∀ l, l < 64 → bitOf (base.active 0) l = true →
        base.laneCheck true true 0 0 32 (base.depthOf 2 l) l = .go (.cell 64 false) ∧ base.planePoison 64 32 = false)
    ∧ (4 : BitVec 6).toNat % (2 * pairSize 8) = 0 ∧ (4 : BitVec 6).toNat % 2 = 0
    ∧ base.vdryAll (base.active 0) (base.vr (2 : BitVec 6).toNat :: (pair (base.vr (4 : BitVec 6).toNat) 64 ++ pair (base.vr (4 : BitVec 6).toNat + 2) 64)) = .ok () := by
  and_intros <;> first | decide +kernel | exact gives_ok (by decide +kernel)

/-! ### Rectangles, ownership, scrolls, fills and the nib -/

theorem meets_Rectangles :
    base.me.rectHeld (1 : BitVec 3).toNat = false ∧ base.me.rectHeld (2 : BitVec 3).toNat = false ∧ base.sval (8 : BitVec 5).toNat = .ok 5 ∧ base.sval (9 : BitVec 5).toNat = .ok 7
    ∧ (bits (5 : Word).toNat 0 8 + bits (5 : Word).toNat 16 8 < 256 ∧ (5 : Word).toNat < 2 ^ 49)
    ∧ ¬ bits (0xFF00FF : Word).toNat 0 8 + bits (0xFF00FF : Word).toNat 16 8 < 256
    ∧ 0 ≤ (bits (base.getE 1).toNat 0 8 : Int) + (5 : Word).toInt ∧ (bits (base.getE 1).toNat 0 8 : Int) + (5 : Word).toInt < 256
    ∧ (bits (base.getE 1).toNat 0 8 : Int) + (-1 : Word).toInt < 0 := by
  and_intros <;> first | decide +kernel | exact gives_ok (by decide +kernel)

/-- e1 names line 0 of PE 0, which the scribe owns; e2 line 9, which is FREE; e3 line 7, shared in the team; e4 line 6, of another scribe. -/
def owns : State :=
  { base with
    lines := set (set base.lines 7 { st := .shared, owner := 0 }) 6 { st := .own, owner := 5 }
    me := { base.me with r := { base.me.r with e := [(2, 9 * 2 ^ 32), (3, 7 * 2 ^ 32), (4, 6 * 2 ^ 32)] } } }

theorem meets_Ownership :
    owns.me.rectHeld 1 = false ∧ owns.ownLines (owns.getE (1 : BitVec 3).toNat) = .ok [0] ∧ owns.ownLines (owns.getE (2 : BitVec 3).toNat) = .ok [9]
    ∧ owns.ownLines (owns.getE (3 : BitVec 3).toNat) = .ok [7] ∧ owns.ownLines (owns.getE (4 : BitVec 3).toNat) = .ok [6] ∧ owns.release 2 = .ok () ∧ owns.acquire 1 = .ok ()
    ∧ (∀ l ∈ [0, 9, 7, 6], owns.retained l = false)
    ∧ (owns.loopHolders 0 = [] ∧ (owns.line 0).st = .own ∧ (owns.line 0).owner = owns.me.at_.id)
    ∧ (owns.loopHolders 9 = [] ∧ (owns.line 9).st = .free ∧ owns.allocatedToMe 9 = true)
    ∧ (owns.loopHolders 7 = [] ∧ (owns.line 7).st = .shared ∧ (owns.line 7).owner = owns.me.at_.team)
    ∧ (owns.loopHolders 6 = [] ∧ (owns.line 6).st = .own ∧ (owns.line 6).owner ≠ owns.me.at_.id)
    ∧ owns.mate ((5 : Word).setWidth 14) = false ∧ bits (0 : Word).toNat 14 1 = 0 ∧ bits (5 : Word).toNat 14 1 = 0 ∧ bits (5 : Word).toNat 0 14 < 0x100
    ∧ bits (0x100 : Word).toNat 0 14 = 0x100 ∧ bits (0x23F : Word).toNat 0 14 = 0x23F
    ∧ (∀ l ∈ [0, 9, 7, 6], ¬ ((owns.line l).st = .engine ∧ (owns.line l).holder = owns.me.at_.id))
    ∧ (owns.mate ((0 : Word).setWidth 14) = true ∧ (0 : Word).toNat < 2 ^ 14 ∧ bits (0x4000 : Word).toNat 14 1 = 1 ∧ (0x100 : Word).toNat = 0x100
      ∧ 0x200 ≤ (0x23F : Word).toNat ∧ (0x23F : Word).toNat ≤ 0x23F)
    ∧ owns.sval (16 : BitVec 5).toNat = .ok 131072 ∧ owns.hole ((131072 : Word).toNat % 2 ^ 33 / 131072) = true
    ∧ owns.hole ((64 : Word).toNat % 2 ^ 33 / 131072) = false ∧ owns.allocatedToMe ((64 : Word).toNat % 2 ^ 33 / 512) = true := by
  and_intros <;> first | decide +kernel | exact gives_ok (by decide +kernel)

/-- A halted scroll of e1 in mode 0, of which nothing has been done. -/
def halted : State := ctl fun c => { c with scs := word (2 ^ 63 + 2 ^ 39 + 1) }
/-- The scroll of g1 starts on line 0 alone, and halts or not, for a mode and displacement. -/
def scrolls (s : State) (mode : Nat) (dx : Int) (halts : Bool) : Prop :=
  let r := s.getE 1
  s.engineCheck r (if mode = 3 then s.touched s.me.at_.asid r 3 dx 0 else rectPes r) (s.scrollWrites s.me.at_.asid r mode dx 0) 3 = .ok [0]
    ∧ (mode = 3 → decide (s.haltOf s.me.at_.asid r dx 0 510 (rX r) (rY r) 0 0 ≠ 0) = halts)
/-- Core 0 is in the partition of context 1. -/
def placed (s : State) : State :=
  { s with ctxs := [(1, { asid := 1, root := 0, capRoot := emptyCap, hostRoot := none, peerRoot := none, cores := 1, save := emptyCap, faultQ := emptyCap, wdog := 0, flags := 0 })] }

theorem meets_ScrollStarts :
    base.jobRoom = .ok () ∧ base.me.rectHeld (1 : BitVec 3).toNat = false ∧ base.sval (8 : BitVec 5).toNat = .ok 5 ∧ base.sval (9 : BitVec 5).toNat = .ok 7
    ∧ scrolls base 0 5 false ∧ scrolls (placed base) 3 1 false ∧ scrolls (placed base) 3 (-1) true ∧ scrolls base 0 0 false
    ∧ base.engineCheck (base.getE (1 : BitVec 3).toNat) (rectPes (base.getE (1 : BitVec 3).toNat)) (fun _ => true) 4 = .ok [0]
    ∧ (5 : Word).toInt.natAbs ≤ 255 ∧ (7 : Word).toInt.natAbs ≤ 255 ∧ base.sval (16 : BitVec 5).toNat = .ok 131072 ∧ 255 < (131072 : Word).toInt.natAbs
    ∧ bits base.me.ctl.scs.toNat 63 1 = 0
    ∧ halted.jobRoom = .ok () ∧ scrolls halted 0 1 false
    ∧ bits halted.me.ctl.scs.toNat 63 1 = 1 ∧ bits halted.me.ctl.scs.toNat 39 3 = (1 : BitVec 3).toNat ∧ bits halted.me.ctl.scs.toNat 36 3 = (0 : BitVec 3).toNat
    ∧ s9 halted.me.ctl.scs.toNat 0 = 1 ∧ s9 halted.me.ctl.scs.toNat 18 = 0 := by
  unfold scrolls; and_intros <;> first | decide +kernel | exact gives_ok (by decide +kernel)

/-- A scroll one position to the right of line 0 in PEs 0 and 1, in a mode, and a fill of the same lines. -/
def job (mode : Nat) (fill : Bool) : PlaneJob :=
  { job0 with mode := mode, fill := fill, rect := 2 ^ 16, lines := [0, 256], fillv := 3, pattern := 9 }
def moving (mode : Nat) (fill : Bool) : State :=
  { two with
    plane := [(0, 7)]
    lines := [(0, { st := .engine, holder := 0 }), (256, { st := .engine, holder := 0 })]
    me := { two.me with run := { two.me.run with jobs := [job mode fill] } } }

theorem meets_ScrollSteps :
    (∀ mode, mode < 3 → (moving mode false).headJob 0 = some ((moving mode false).me, job mode false) ∧ (job mode false).mode < 3 ∧ (job mode false).fill = false)
    ∧ (moving 0 false).me.at_.id = BitVec.ofNat 14 0 ∧ rectOk (job 0 false).rect = true ∧ stepDir (job 0 false).dx (job 0 false).dy (job 0 false).dxd (job 0 false).dyd = some (1, 0)
    ∧ (moving 0 false).me.run.life ≠ .free
    ∧ (moving 0 false).holeFor place0.launch 0 = false ∧ (moving 0 false).holeFor place0.launch 1 = false ∧ (job 0 false).dxd + 1 = (job 0 false).dx ∧ (job 0 false).dyd + 0 = (job 0 false).dy
    ∧ (let s := placed (moving 3 false)
       s.headJob 0 = some (s.me, job 3 false) ∧ (job 3 false).mode = 3 ∧ s.leaves s.me.at_.asid (job 3 false).rect 1 0 = 0 ∧ rX (job 3 false).rect = 0 ∧ rY (job 3 false).rect = 0)
    ∧ (moving 0 true).headJob 0 = some ((moving 0 true).me, job 0 true) ∧ (job 0 true).fill = true := by decide +kernel

/-- g2 holds 512. -/
def tiles : State := base.setS 2 512

theorem meets_TileWords :
    tiles.tileFree (1 : BitVec 2).toNat = .ok () ∧ tiles.tileFree (2 : BitVec 2).toNat = .ok () ∧ bitOf tiles.live 0 = true ∧ tiles.sval (2 : BitVec 5).toNat = .ok 512
    ∧ tiles.tileCheck false (512 : Word).toNat 2048 = .ok () ∧ tiles.tileCheck true (512 : Word).toNat 2048 = .ok () ∧ tiles.me.at_.ox + tiles.me.at_.pw ≤ 256
    ∧ (64 : Word).toNat % 512 ≠ 0 ∧ tiles.tileCheck true (512 : Word).toNat (512 * (64 * (cvtFmt (1 : BitVec 2).toNat).width / 512)) = .ok ()
    ∧ (∀ k, k < 2 * (cvtFmt (1 : BitVec 2).toNat).width → (4 : BitVec 6).toNat + k < tiles.me.at_.vregs ∧ (4 : BitVec 6).toNat + k < 60) := by
  and_intros <;> first | decide +kernel | exact gives_ok (by decide +kernel)

/-- An MLOOP of format i8 with both operands at depth 0 of the cell, and one whose format is reserved. -/
def loopIn (fb : Nat) : MloopIn := { va := 63, av := 0, bv := 0, fb := fb, bsrc := 0, keep := false, steps := 1, ia := 0, ib := 0 }

/-- s4 holds the format word of i8. -/
def matrix (fb : Word) : State := base.setS 12 fb

theorem meets_MatrixLoops :
    let s := matrix 1024
    s.sdry [(12 : BitVec 5).toNat, (12 : BitVec 5).toNat + 1, (10 : BitVec 5).toNat, (10 : BitVec 5).toNat] = .ok () ∧ s.nibFull = false
    ∧ ((s.getS 10).toNat = (loopIn 1024).av ∧ (s.getS 12).toNat + (s.getS 13).toNat * 2 ^ 64 = (loopIn 1024).fb ∧ (s.me.ctl.xim.getD 0).toNat = 0)
    ∧ s.mloopFault (loopIn 1024) (s.mkLoop 1 (loopIn 1024)) = none ∧ s.operandCheck (s.mkLoop 1 (loopIn 1024)) = .ok ()
    ∧ ((matrix 6).mloopFault (loopIn 6) ((matrix 6).mkLoop 1 (loopIn 6))).isSome = true ∧ nibClass (bits (loopIn 6).fb 0 5) = 3
    ∧ s.me.closeBatch = some s.me ∧ s.me.run.closed.length ≤ (0 : BitVec 3).toNat
    ∧ (let s := run fun r => { r with closed := [3] }; s.me.closeBatch = some s.me ∧ (0 : BitVec 3).toNat < s.me.run.closed.length)
    ∧ (run fun r => { r with closed := [1, 2, 3, 4, 5, 6, 7], openBatch := 8, batches := [(8, 1)] }).me.closeBatch = none := by
  and_intros <;> first | decide +kernel | exact gives_ok (by decide +kernel)

def loop0 (ran : Nat) : Loop := { base.mkLoop 1 (loopIn 1024) with batch := 0, progress := if ran = 0 then [] else [(0, ran)] }
def looping (ran : Nat) (closed : List Nat) : State :=
  { base with plane := [(0, 2), (9, 255)], loops := [(0, loop0 ran)], me := { base.me with run := { base.me.run with batches := [(0, 1)], closed := closed, openBatch := closed.length } } }

theorem meets_LoopSteps :
    (let s := looping 0 []
     find s.loops 0 = some (loop0 0) ∧ (loop0 0).sid = s.me.at_.id ∧ s.me.run.life ≠ .free ∧ s.stepReady 0 (loop0 0) s.me 0 = true ∧ (loop0 0).bsrc = 0
       ∧ (loop0 0).aRegs = false ∧ (loop0 0).afmt = 0 ∧ (loop0 0).bfmt = 0)
    ∧ (∀ k, k < 64 → bitOf (loop0 1).lanes k = true → (loop0 1).ran k = (loop0 1).steps) ∧ (loop0 1).nv = false ∧ (loop0 1).ovf = false
    ∧ look 0 (looping 1 []).me.run.batchFlags (loop0 1).batch = 0 ∧ ¬ (loop0 1).batch ∈ (looping 1 []).me.run.closed
    ∧ (loop0 1).batch ∈ (looping 1 [0]).me.run.closed ∧ look 0 (looping 1 [0]).me.run.batches (loop0 1).batch = 1 := by decide +kernel

/-! ### Barriers and watched atoms -/

/-- g2 holds the address 256, where an object expects `e` arrivals. -/
def bar (e : Nat) (broken : Option (BitVec 14)) : State :=
  { base.setS 2 256 with plane := if e = 0 then [] else [(32, BitVec.ofNat 8 e)], bars := if e = 0 then [] else [(256, { team := 0, broken := broken })] }

theorem meets_BarrierWords :
    ((bar 0 none).barAddr (2 : BitVec 5).toNat = .ok 256 ∧ (bar 0 none).sval (9 : BitVec 5).toNat = .ok 7 ∧ (bar 0 none).me.run.life ≠ .free
      ∧ ((bar 0 none).me.run.brokenBy = none ∧ (bar 0 none).me.run.brokenAt = none ∧ (bar 0 none).me.run.ckWait = none ∧ (bar 0 none).me.run.heldArr = none ∧ (bar 0 none).me.run.waitOn = none
        ∧ (bar 0 none).me.run.woken = false)
      ∧ (bar 0 none).barCheck 256 false = .ok () ∧ (7 : Word).toNat % 4096 ≠ 0 ∧ (bar 0 none).barsOfCore 256 < 64)
    ∧ (base.barAddr (1 : BitVec 5).toNat = .ok 64 ∧ 64 % 256 ≠ 0)
    ∧ (∀ e, e < 3 → 0 < e → (bar e none).barAddr (2 : BitVec 5).toNat = .ok 256 ∧ (bar e none).barCheck 256 true = .ok ())
    ∧ (bar 2 none).sval (9 : BitVec 5).toNat = .ok 7 ∧ (bar 2 none).sval (10 : BitVec 5).toNat = .ok 0 ∧ (bar 2 none).objP 256 ≠ (7 : Word).toNat % 2
    ∧ (bar 2 none).objP 256 = (0 : Word).toNat % 2
    ∧ find (bar 2 none).bars 256 = some { team := 0 } ∧ (7 : Word).toInt.natAbs < 2 ^ 39 ∧ (bar 2 none).objA 256 ≠ (bar 2 none).objE 256 ∧ (bar 2 none).objCk 256 = false
    ∧ (bar 2 none).release 2 = .ok () ∧ (bar 2 none).objA 256 < (bar 2 none).objE 256 ∧ (bar 2 none).objA 256 + 1 < (bar 2 none).objE 256
    ∧ (bar 1 none).objA 256 + 1 = (bar 1 none).objE 256 ∧ (bar 1 none).objPend 256 = 0 ∧ (bar 1 none).ckWaiters 256 = []
    ∧ (bar 1 none).release 2 = .ok () ∧ (bar 2 none).acquire 1 = .ok () := by
  refine ⟨by and_intros <;> first | decide +kernel | exact gives_ok (by decide +kernel),
    ⟨gives_ok (by decide +kernel), by decide⟩, ?_, gives_ok (by decide +kernel), gives_ok (by decide +kernel), by decide +kernel, by decide +kernel, by decide +kernel,
    by decide, by decide +kernel, by decide +kernel, gives_ok (by decide +kernel), by decide +kernel, by decide +kernel, by decide +kernel, by decide +kernel,
    by decide +kernel, gives_ok (by decide +kernel), gives_ok (by decide +kernel)⟩
  intro e h k
  obtain rfl | rfl : e = 1 ∨ e = 2 := by omega
  all_goals exact ⟨gives_ok (by decide +kernel), gives_ok (by decide +kernel)⟩

/-- The atom at address 0 of global memory holds 3. -/
def atom : State := { base with dram := [(0x10000000000, 3)] }
def watching (sem : Bool) (n : Nat) : State :=
  { atom with me := { atom.me with run := { atom.me.run with park := some .semaphore, watch := some { sem := sem, space := 0, addr := 0, home := some 0x10000000000, n := n, changed := true } } } }

theorem meets_WatchedAtoms :
    atom.me.run.life = .running ∧ atom.me.at_.id = BitVec.ofNat 14 0 ∧ (2 : BitVec 10) ≠ 0
    ∧ atom.semAddr (1 : BitVec 4).toNat (0 : BitVec 5).toNat = .ok (mkCap 0 0x10000 0xFF 0, 0) ∧ (mkCap 0 0x10000 0xFF 0).space = 0
    ∧ semCheck (mkCap 0 0x10000 0xFF 0) 1 0 (pLoad + pStore + pAtomic) .atomic [0, 3] = .ok () ∧ atom.reaches atom.meWho atom.me.at_.asid .atomic 0 32 (piece 0 32)
    ∧ atom.me.run.watch = none
    ∧ atom.fetchPieces atom.meWho 0 (piece 0 32) = (atom, []) ∧ atom.release 2 = .ok () ∧ atom.acquire 1 = .ok ()
    ∧ readPieces atom.dram (piece 0 32) = 3
    ∧ (let s := watching true 2
       s.me.run.watch = some ⟨true, 0, 0, some 0x10000000000, 2, true⟩ ∧ s.me.eventDue = false
         ∧ s.heldAt (some s.me.at_.id) none (pieceWords (homePiece 0x10000000000)) = none ∧ s.fetchPieces s.meWho 0 (homePiece 0x10000000000) = (s, [])
         ∧ 2 ≤ readPieces s.dram (homePiece 0x10000000000))
    ∧ readPieces (watching true 9).dram (homePiece 0x10000000000) < 9 ∧ (watching false 0).me.run.watch = some ⟨false, 0, 0, some 0x10000000000, 0, true⟩ ∧ (watching false 0).me.eventDue = false
    ∧ base.cval (2 : BitVec 4).toNat = .ok (mkCap 0 (2 ^ 33) 0xFF 1) ∧ base.sval (8 : BitVec 5).toNat = .ok 5 ∧ base.sval (10 : BitVec 5).toNat = .ok 0 ∧ base.acquire 1 = .ok ()
    ∧ semCheck (mkCap 0 (2 ^ 33) 0xFF 1) 2 (mkCap 0 (2 ^ 33) 0xFF 1).cursor pLoad .load [0, 1, 3] = .ok () ∧ base.me.run.watch = none
    ∧ (mkCap 0 (2 ^ 33) 0xFF 1).space = 1 ∧ base.hole ((mkCap 0 (2 ^ 33) 0xFF 1).cursor / 131072) = false
    ∧ base.planePoison (mkCap 0 (2 ^ 33) 0xFF 1).cursor 32 = false
    ∧ base.planeCheck false (mkCap 0 (2 ^ 33) 0xFF 1).cursor 32 = .ok true ∧ readBits base.plane (mkCap 0 (2 ^ 33) 0xFF 1).cursor 32 ≠ (5 : Word).toNat % 2 ^ 32
    ∧ readBits base.plane (mkCap 0 (2 ^ 33) 0xFF 1).cursor 32 = (0 : Word).toNat % 2 ^ 32 := by
  and_intros <;> first | decide +kernel | exact finds_ok (by decide +kernel) | exact gives_ok (by decide +kernel)

/-! ### Quills, copies, streams and collectives -/

/-- A descriptor (Tables 16-1 and 16-2) of elements of 64 bits in one dimension, with no barrier: from host space to `dst`. -/
def desc0 (src dst : Cap) (op : Nat) : BitVec 512 :=
  BitVec.ofNat 512 (src.bits.toNat + dst.bits.toNat * 2 ^ 128 + op * 2 ^ 384 + 8 * 2 ^ 392 + 2 ^ 396 + noBar * 2 ^ 474)
def desc1 (n dstr1 dstr2 : Nat) : BitVec 512 := BitVec.ofNat 512 (n + dstr1 * 2 ^ 208 + dstr2 * 2 ^ 240)

def hostCap : Cap := mkCap 0 0x10000 0xFF 2
def cellCap : Cap := mkCap 2048 512 0xFF 1

/-- A descriptor in lines 1 and 2, which g2 points to, with s4 holding 1. -/
def kick (d0 d1 : BitVec 512) (tags : BitVec 4) : State :=
  let s := (base.setS 2 512).setS 12 1
  { s with plane := writeBits (writeBits [] 512 512 d0.toNat) 1024 512 d1.toNat, lines := set s.lines 1 { st := .own, owner := 0, tags := tags } }
def kick0 : State := kick (desc0 hostCap cellCap 0) (desc1 1 (64 + 64 * 2 ^ 16) (1 + 2 ^ 16)) 3

/-- The copy the descriptor describes, at its kick or with its record owed to a ring. -/
def copyTo (dst : Cap) : Copy := mkCopy 0 0 1 none (desc0 hostCap dst 0) (desc1 1 (64 + 64 * 2 ^ 16) (1 + 2 ^ 16)) 3
def recorded (c : Copy) : Copy := { c with ended := true, ring := some (hostCap, 4, 5), status := 1 }
def copies (c : Copy) : State := { base with copies := [(0, c)] }

theorem meets_QuillWords :
    kick0.sdry [(10 : BitVec 5).toNat, (2 : BitVec 5).toNat, (12 : BitVec 5).toNat] = .ok ()
    ∧ (kick0.getS 10).toNat < kick0.me.at_.lanes ∧ kick0.hole (kick0.me.at_.peOf (kick0.getS 10).toNat) = false ∧ (kick0.getS 12).toNat = 1
    ∧ (kick0.getS 2).toNat % 512 = 0 ∧ (kick0.getS 2).toNat + 1024 ≤ 131072 ∧ kick0.release 2 = .ok () ∧ kick0.rulingLoad < 16
    ∧ kick0.descLines 0 [1, 2] = .ok () ∧ kick0.checkCopy (kick0.readDesc 1) false 0 0 512 = .ok ()
    ∧ kick0.me.at_.lanes ≤ (kick0.getS 16).toNat ∧ (kick0.getS 1).toNat % 512 ≠ 0
    ∧ base.myCopies = [] ∧ (∀ k ∈ base.lcopies, k.2.sid ≠ base.me.at_.id) ∧ base.acquire 1 = .ok () ∧ (copies (copyTo cellCap)).myCopies ≠ []
    ∧ (let c : Copy := { copyTo cellCap with ring := some (hostCap, 4, 5) }
       let s := copies c
       s.sval (10 : BitVec 5).toNat = .ok 0 ∧ (s.myCopies.filter fun k => k.2.corr = (0 : Word).toNat % 2 ^ 24) = [(0, c)] ∧ find s.copies 0 = some c ∧ c.ended = false
         ∧ c.owed = [] ∧ c.bar = noBar ∧ c.ring.isSome = true)
    ∧ (let s := { bar 1 none with me := (bar 1 none).me.setS 13 256 }
       s.sval (13 : BitVec 5).toNat = .ok 256 ∧ s.cval (3 : BitVec 5).toNat = .ok hostCap ∧ s.vdryAll s.live [s.vr (5 : BitVec 6).toNat, s.vr (6 : BitVec 6).toNat] = .ok ()
         ∧ (∀ g ∈ lanesOf (s.live &&& s.me.guard 0), s.lcopyCheck hostCap 3 (s.vr (5 : BitVec 6).toNat) (s.vr (6 : BitVec 6).toNat) g = .ok)
         ∧ s.barCheck ((256 : Word).toNat % 2 ^ 33) true = .ok () ∧ find s.bars ((256 : Word).toNat % 2 ^ 33) = some { team := 0 } ∧ s.release 2 = .ok ()) := by
  and_intros <;> first | decide +kernel | exact gives_ok (by decide +kernel)

def hostDst : Cap := mkCap 0x800 512 0xFF 2
def landingCopy : Copy := { copyTo cellCap with owed := [(4, (64, 64))] }
def laneCopy : LaneCopy := { sid := 0, team := 0, asid := 1, launch := 0, cap := hostCap, addr := 0, line := 4, dest := 2048, bar := 256, srcLines := [], queued := 0 }

theorem meets_CopySteps :
    (∀ d, d = hostDst ∨ d = cellCap → let c := copyTo d
      c.ended = false ∧ c.queued = 0 ∧ c.wc < 10 ∧ c.op = 0 ∧ c.btab = false ∧ c.total = 1 ∧ c.pos = 0 ∧ c.inb 0 = true ∧ c.bar = noBar ∧ (copies c).keepsTags c = false
        ∧ c.src.space = 2 ∧ (copies c).copyPaused c = false)
    ∧ (copyTo hostDst).dst.space = 2
    ∧ (let c := landingCopy
       c.dst.space = 1 ∧ c.segs c.die 0 = [⟨0, 2048, 0, 64⟩] ∧ c.w = 64 ∧ (copies c).holeFor c.launch 0 = false ∧ find c.owed (Seg.line ⟨0, 2048, 0, 64⟩) = some (c.w, 64)
         ∧ find c.passers (Seg.line ⟨0, 2048, 0, 64⟩) = none ∧ c.lsh = false)
    ∧ (let c := recorded (copyTo hostDst); c.queue = none ∧ c.ended = true ∧ c.queued = 0 ∧ c.ring = some (hostCap, 4, 5) ∧ hostCap.space = 2)
    ∧ (let s : State := { base with lcopies := [(0, laneCopy)], lines := [(4, { st := .engine, present := false, holder := 0 })] }
       find s.lcopies 0 = some laneCopy ∧ laneCopy.queued = 0 ∧ s.copyPaused laneCopy.asCopy = false ∧ (s.line laneCopy.line).st = .engine
         ∧ (s.line laneCopy.line).present = false ∧ (s.line laneCopy.line).holder = laneCopy.sid ∧ laneCopy.cap.space = 2 ∧ laneCopy.bar < noBar
         ∧ find s.bars laneCopy.bar = none ∧ s.loopHolders (laneCopy.bar / 512) = []) := by
  refine ⟨?_, by decide +kernel, by decide +kernel, by decide +kernel, by decide +kernel⟩
  rintro d (rfl | rfl) <;> decide +kernel

/-- A stream descriptor in lines 1 and 2 for two chunks of one line, and its stream, with a nib and a cell subscriber. -/
def kickStream : State := kick (desc0 hostCap emptyCap 3) (desc1 16 512 0) 1
def streamCopy : Copy := mkCopy 0 0 1 none (desc0 hostCap emptyCap 3) (desc1 16 512 0) 1
def nibSub : Sub := { cell := false, sid := 0, window := 4, rect := 0, bar := 0, next := 0, got := [], used := 0 }
def cellSub : Sub := { nibSub with cell := true, bar := noBar }
def landingSub : Sub := { cellSub with got := [(0, 9, false)] }
def feed (head : Nat) (subs : List Sub) : State :=
  { base with
    streams := [(5, { pub := some streamCopy, kc := 512, total := 2, head := head, kept := if head = 0 then [] else [(0, (9, false))], subs := subs })]
    lines := [(0, { st := .engine, owner := ringId 5 })] }

theorem meets_Feed :
    (base.sval (8 : BitVec 5).toNat = .ok 5 ∧ base.sval (9 : BitVec 5).toNat = .ok 7 ∧ base.sval (10 : BitVec 5).toNat = .ok 0 ∧ base.subBad 5 false (7 : Word).toNat = false
      ∧ base.subBad 5 true (7 : Word).toNat = false ∧ (0 : Word).toNat = 0 ∧ base.sdry [(8 : BitVec 5).toNat, (9 : BitVec 5).toNat] = .ok ()
      ∧ base.me.rectHeld (1 : BitVec 3).toNat = false ∧ base.ownLines (base.getE 1) = .ok [0] ∧ base.release 2 = .ok () ∧ (base.stream 5).pub = none
      ∧ (∀ l ∈ [0], base.retained l = false ∧ base.loopHolders l = [] ∧ (base.line l).st = .own ∧ (base.line l).owner = base.me.at_.id ∧ base.barHit (512 * l) 512 = false))
    ∧ (kickStream.sval (2 : BitVec 5).toNat = .ok 512 ∧ kickStream.hole ((512 : Word).toNat % 2 ^ 33 / 131072) = false ∧ (512 : Word).toNat % 2 ^ 33 % 512 = 0
      ∧ (512 : Word).toNat % 2 ^ 33 % 131072 + 1024 ≤ 131072 ∧ kickStream.release 2 = .ok () ∧ kickStream.descLines 0 [1, 2] = .ok ()
      ∧ (kickStream.stream 5).pub = none ∧ (kickStream.stream 5).misfit ((kickStream.readDesc 1).dstr 1) = false ∧ kickStream.checkCopy (kickStream.readDesc 1) true 0 0 512 = .ok ())
    ∧ (({ kickStream with streams := (feed 0 []).streams } : State).stream 5).pub.isSome = true
    ∧ (let s : State := { kick (desc0 hostCap emptyCap 3) (desc1 16 1024 0) 1 with streams := [(5, { (feed 0 [cellSub]).stream 5 with pub := none })] }
       s.descLines 0 [1, 2] = .ok () ∧ (s.stream 5).pub = none ∧ (s.stream 5).misfit ((s.readDesc 1).dstr 1) = true)
    ∧ ((feed 0 []).stream 5).pub = some streamCopy ∧ streamCopy.queued = 0 ∧ (feed 0 []).copyPaused streamCopy = false ∧ ((feed 0 []).stream 5).subs[0]? = none
    ∧ ((feed 0 []).stream 5).head + 1 < ((feed 0 []).stream 5).total ∧ (match (feed 0 []).readChunk (streamCopy.atStep 5 0) 512 0 with | .got _ _ _ _ => true | _ => false) = true
    ∧ ((feed 1 [nibSub, cellSub]).stream 5).subs[0]? = some nibSub ∧ ((feed 1 [nibSub, cellSub]).stream 5).subs[1]? = some cellSub ∧ nibSub.saved = none
    ∧ nibSub.queued = 0 ∧ nibSub.cut = false ∧ cellSub.queued = 0 ∧ cellSub.cut = false ∧ cellSub.saved = none ∧ cellSub.got = [] ∧ ((feed 1 [nibSub, landingSub]).stream 5).subs[1]? = some landingSub ∧ landingSub.got = [(landingSub.next, 9, false)]
    ∧ landingSub.saved = none ∧ landingSub.bar = noBar ∧ (feed 1 [nibSub, landingSub]).barHit 0 512 = false
    ∧ nibSub.next < ((feed 1 [nibSub, cellSub]).stream 5).head ∧ ((feed 1 [nibSub, cellSub]).stream 5).head - nibSub.next ≤ nibSub.window
    ∧ find ((feed 1 [nibSub, cellSub]).stream 5).kept nibSub.next = some (9, false) ∧ cellSub.cell = true ∧ 0 < 512 / 512 ∧ 512 / 512 ≤ rN cellSub.rect
    ∧ rectOk cellSub.rect = true ∧ ((feed 1 [nibSub, cellSub]).stream 5).head < ((feed 1 [nibSub, cellSub]).stream 5).total
    ∧ (∀ pe ∈ (rectPes cellSub.rect).filter fun p => !(feed 1 [nibSub, cellSub]).holeFor ((feed 1 [nibSub, cellSub]).subLaunch 0) p, ∀ j < 1, let m := (feed 1 [nibSub, cellSub]).line (lineNo pe (rLine cellSub.rect + j))
        m.st = .engine ∧ m.present = true ∧ m.owner = ringId (5 % 64)) := by
  and_intros <;> first | decide +kernel | exact gives_ok (by decide +kernel)

/-- Buffers of one element at 0x1000 and 0x2000, and a table at 0x3000 of this rank and one in package 1. -/
def bufCap : Cap := mkCap 0x1000 64 0xFF 0
def resCap : Cap := mkCap 0x2000 192 0xFF 0
def tableCap : Cap := mkCap 0x3000 256 0xFF 0
def peerCap : Cap := mkCap (2 ^ 48) 64 0xFF 3

/-- The descriptor of a sum over two ranks of one element on the f32 wire, without a barrier, in line 1. -/
def collective (wire : Nat) : State :=
  let d := bufCap.bits.toNat + resCap.bits.toNat * 2 ^ 128 + tableCap.bits.toNat * 2 ^ 256 + wire * 2 ^ 388 + 2 * 2 ^ 411 + 2 ^ 423 + noBar * 2 ^ 451
  let s : State := { base.setS 2 512 with ports := [(0, { up := true, pkg := 1 })] }
  let at_ := 0x80000000000
  { s with
    plane := writeBits [] 512 512 d
    lines := set s.lines 1 { st := .own, owner := 0, tags := 7 }
    dram := writeBits (writeBits (writeBits (writeBits [] (at_ + 0x1000) 32 0x3F800000) (at_ + 0x2000) 64 0x1000) (at_ + 0x3000) 128 bufCap.bits.toNat) (at_ + 0x3080) 128 peerCap.bits.toNat
    dramTags := [((at_ + 0x3000) / 128, true), ((at_ + 0x3080) / 128, true)] }

/-- A contribution of rank 1 in package 1 to a buffer at address 0 of the exported window. -/
def contrib (n : Nat) : Contrib :=
  { src := 1, op := 0, wire := 7, lc := 0, t := 0, n := n, nrank := 3, corr := 0, rank := 1, target := 0, vals := [5] }
def windowed : State := { base with mgmt := { base.mgmt with window := some (1, 0, 0x10000) }, ports := [(0, { up := true, pkg := 1 })] }
def running0 : Coll :=
  { sid := 0, team := 0, asid := 1, die := 0, slot := 0, desc := BitVec.ofNat 512 (7 * 2 ^ 388 + 3 * 2 ^ 411 + 2 ^ 423 + noBar * 2 ^ 451), buf := mkCap 0 64 0xFF 0,
    res := resCap, tbl := [], status := 0, ring := none, mine := [], newRes := [], got := [], queued := 0 }
def joining : State := { windowed with colls := [(0, running0)] }

theorem meets_Collectives :
    (let s := collective 7
     let c := s.collDesc 1 0
     s.sdry [(10 : BitVec 5).toNat, (2 : BitVec 5).toNat] = .ok () ∧ (s.getS 10).toNat < s.me.at_.lanes ∧ s.hole (s.me.at_.peOf 0) = false ∧ (s.getS 2).toNat % 512 = 0
       ∧ (s.getS 2).toNat + 512 ≤ 131072 ∧ s.release 2 = .ok () ∧ s.descLines 0 [1] = .ok () ∧ s.collSlot (dieOf s.me.at_.id) = some 0
       ∧ c.f 511 1 = 0 ∧ s.barFault (barOnly c.bar) (quillFault 10 0 512) = .ok () ∧ s.collFault c = none ∧ bufCheck c.buf (32 * c.n) 4 = .ok () ∧ bufCheck c.res (128 + 32 * c.n) 5 = .ok () ∧ c.tbl = [tableCap]
       ∧ capCheck tableCap tableCap.cursor (128 * c.nrank) (pLoad + pLoadCap + pEngine) .load true = none
       ∧ s.readTable c tableCap 0 c.nrank = .ok (s, [bufCap, peerCap]) ∧ c.nrank = 2 ∧ c.rank = 0 ∧ c.op = 0 ∧ c.wire = 7 ∧ c.crec = false
       ∧ bufCap.space = 0 ∧ bufCap.cursor = c.buf.cursor ∧ peerCap.space = 3 ∧ s.ownWindow peerCap.cursor 32 = none ∧ s.peerReachable peerCap.cursor = true
       ∧ s.collGet c c.res.cursor 64 = .ok (s, c.buf.cursor) ∧ s.collWords c c.buf.cursor (span 0 c.n) = .ok (s, [(0, 0x3F800000)])
       ∧ s.collWords c (c.res.cursor + 128) (span 0 c.n) = .ok (s, [(0, 0)]) ∧ s.colls = [] ∧ s.heldContribs = [])
    ∧ (collective 7).me.at_.lanes ≤ ((collective 7).getS 16).toNat ∧ ((collective 7).getS 1).toNat % 512 ≠ 0 ∧ (collective 6).collFault ((collective 6).collDesc 1 0) = some 14
    ∧ two.hole (two.me.at_.peOf 2) = true ∧ 2 < two.me.at_.lanes
    ∧ ((contrib 1).src ≠ windowed.mgmt.pkg ∧ windowed.pkgReachable (contrib 1).src = true ∧ windowed.ownWindow (contrib 1).target.toNat 32 = some (1, 0)
      ∧ windowed.collFor (contrib 1) 1 0 = none ∧ joining.collFor (contrib 1) 1 0 = some (0, running0) ∧ running0.agrees (contrib 1) = true
      ∧ running0.got.length + 1 ≠ running0.nrank ∧ running0.agrees (contrib 2) = false ∧ find joining.colls 0 = some running0 ∧ running0.bar = noBar ∧ running0.ring = none)
    ∧ ({ contrib 1 with src := 0 } : Contrib).src = windowed.mgmt.pkg
    ∧ (let h : Held := { m := contrib 1, asid := 1, addr := 0, time := 0, sender := none }
       let s := fun n => { windowed with heldContribs := [h], time := n }
       (s 9).heldContribs[0]? = some h ∧ (s 9).time < h.time + 100000000 ∧ h.time + 100000000 ≤ (s 100000000).time ∧ (s 9).colls = []) := by
  and_intros <;> first | decide +kernel | exact gives_ok (by decide +kernel)

/-! ### Events, translations, teams, packets -/

/-- The scribe with ERROR_REPORT raised three times. -/
def raised : State := run fun r => { r with pending := [(0x20, 3)], errorInfo := 9 }
def waited (n : Nat) : State := run fun r => { r with ready := n }

theorem meets_ScribeEvents :
    (let s := wet none
     s.tagOf 0 0 = some (s.me, tag0 none) ∧ s.me.at_.id = BitVec.ofNat 14 0 ∧ (tag0 none).scalar = true ∧ s.resolves (tag0 none) = true
       ∧ (s.me.wet.s.filter fun q => q.1 = 8) = [(8, rec0 none)] ∧ (rec0 none).tag = 0 ∧ s.lateFault s.me (tag0 none) 2 = false)
    ∧ (let s := wet (some 1); s.tagOf 0 0 = some (s.me, tag0 (some 1)) ∧ s.resolves (tag0 (some 1)) = false ∧ s.goesOn s.me (0, tag0 (some 1)) = false)
    ∧ (let s : State := { wet none with eccHard := [(0x80000000200 / 256, 1)] }
       s.tagOf 0 0 = some (s.me, tag0 none) ∧ (tag0 none).fault = none ∧ (tag0 none).queued = 0 ∧ s.lateFault s.me (tag0 none) 2 = true)
    ∧ base.deliverable = false ∧ raised.me.run.life = .running ∧ raised.deliverable = true ∧ raised.me.ctl.entryRuns = true
    ∧ (waited 31).scribe (BitVec.ofNat 14 0) = some (waited 31).me ∧ (waited 31).me.at_.id = BitVec.ofNat 14 0 ∧ (waited 31).me.run.ready < 32
    ∧ (waited 32).me.run.life = .running ∧ 32 ≤ (waited 32).me.run.ready ∧ (waited 32).me.run.urgent = false := by decide +kernel

/-- A context of ASID 1 with a page table whose root has one pointer, to a table with one leaf. -/
def faultCap : Cap := mkCap 0x100000 4352 0xFF 2
def ctx (wdog : BitVec 16) : CtxRec :=
  { asid := 1, root := 0x10010000000, capRoot := mkCap 0 0x10000 0xFF 0, hostRoot := some hostCap, peerRoot := none, cores := 1, save := mkCap 0x200000 0x10000 0xFF 2, faultQ := faultCap,
    wdog := wdog, flags := 0 }
def walking : State :=
  { base with tlb := [], ctxs := [(1, ctx 0)], dram := writeBytes (writeBytes [] 0x10010000000 0x10010200001 8) 0x10010200000 0x1000000001F 8 }

/-- R331: a walk for core 5 enters the TLBs of core 5, cluster 1 and die 0; core 6 then finds the page in the cluster's, core 9 in the die's, and a core of die 1
in none. A full TLB stays at its room. -/
theorem test_tlb_levels :
    let t := after (exec (.translationWalk 1 ⟨5, 0, 0⟩) walking)
    t.tlb.map (·.1 / 2 ^ 55) = [5, 257, 320] ∧ (t.tlbFind (some 6) 1 0).isSome = true ∧ (t.tlbFind (some 9) 1 0).isSome = true ∧ t.tlbFind (some 64) 1 0 = none
    ∧ (({ walking with tlb := (List.range 64).map fun i => (i, i) } : State).tlbEnter 3 1 0 7 0).tlb.length = 64 := by decide +kernel

theorem meets_Translations :
    (walking.heldAt none none (walking.walksOf (coreOperand 0) (BitVec.ofNat 14 1) 0 1) = none
      ∧ walking.readWalk (dispatcher 1) (walking.walksOf (coreOperand 0) (BitVec.ofNat 14 1) 0 1) = walking) ∧
    walking.tlbFind (coreOperand 0) (BitVec.ofNat 14 1) 0 = none ∧ walking.leaf (coreOperand 0) (BitVec.ofNat 14 1) 0 = .ok { phys := 0x10000000000, dev := false, x := true, wr := true, rd := true }
    ∧ walking.tlbOf 0 = [] ∧ base.tlbFind (coreOperand 0) (BitVec.ofNat 14 1) 0 = some page ∧ 1 < 2 ^ 14 ∧ find walking.ctxs 1 = some (ctx 0) ∧ (ctx 0).faultQ.space = 2 ∧ walking.colls = []
    ∧ (∀ d ∈ walking.allScribes, d.wet.tags = []) :=
  ⟨by decide +kernel, by decide +kernel, finds_ok (by decide +kernel), by decide +kernel⟩

/-- A packet of ASID 1's queue 0: its type, SEQ and the rest. -/
def packet (ty seq rest : Nat) : BitVec 1024 := BitVec.ofNat 1024 (ty + 7 * 2 ^ 32 + seq * 2 ^ 64 + rest * 2 ^ 96)

/-- A launch of teams of one scribe of 16 lanes with 64 lines and no argument block. -/
def launchP (seq teams persist : Nat) : BitVec 1024 :=
  packet 1 seq (teams + 2 ^ 16 + 2 ^ 32 + 2 ^ 50 + 64 * 2 ^ 61 + persist * 2 ^ 79 + 2 ^ 112 + (mkCap 0 4096 17 0).bits.toNat * 2 ^ 544 + (mkCap 0 1024 1 0).bits.toNat * 2 ^ 672
    + (mkCap 0 0x10000 3 0).bits.toNat * 2 ^ 800)
def launch1 (teams persist : Nat) : Launch := { launch0 with packet := launchP 0 teams persist }
def queue0 : Queue := { asid := 1, prio := 0, ring := 0x8000, ringLog := 4, cring := 0xC000, cringLog := 4, tail := 1 }

/-- No scribe is resident; launch 0 is being handed out. -/
def vacant (l : Launch) : State :=
  { tlb := [(tlbKey 320 1 0, page)], ctxs := [(1, ctx 1)], launches := [(0, l)], queues := [(0, { queue0 with handing := some 0, incomplete := [0] })],
    quotas := [(1, word (1 + 512 * 2 ^ 5 + 256 * 2 ^ 15 + 8 * 2 ^ 24))], mgmt := { boot := .running } }
def waiting (n done : Nat) : State :=
  let s := vacant { launch1 n 0 with handed := 1 }
  { s with dies := [(0, { waiting := [⟨0, 0, []⟩], doneOn := put 0 [] 0 done })] }

/-- A team in place, and the same saved. -/
def team1 : Team := { team0 place0 with interval := .rollbackable }
def teamed (k : Team) : State :=
  { base with teams := [(0, k)], ctxs := [(1, ctx 1)], launches := [(0, launch1 1 0)], queues := [(0, { queue0 with incomplete := [0] })], time := 2000000 }
def savedTeam : Team := { team1 with saved := true, savedScribes := [base.me.saved cPREEMPT], savedLines := [(3, (9, { st := .own, owner := 0 }))] }
def movedTeam (n : Nat) : Team := { savedTeam with moving := n }
def away : State := { teamed savedTeam with me := {}, lines := [] }
def failed (k : Team) : Team := { k with failing := true, image := [base.me], undo := [(3, (9, { st := .own, owner := 0 }))] }

theorem meets_Teams :
    ((waiting 1 0).toDrain 0 = none ∧ ((waiting 1 16).toDrain 0).isSome = true ∧ ({ waiting 1 0 with quotas := [(1, 0)] } : State).toDrain 0 = none
      ∧ (teamed (failed team1)).barRoom (failed team1).imageBars = true ∧ (∀ b ∈ away.bars, b.2.owed = []) ∧ team1.held = false ∧ (launch1 1 0).reported = false) ∧
    (match (waiting 1 0).placeable 0 with | some r => decide (r.2.2.2.2.map (·.shadow) = [false] ∧ (waiting 1 0).asleep r.2.2.2.2 = []) | none => false) = true
    ∧ base.placeable 0 = none ∧ (look {} base.dies 0 : Die).waiting.find? base.hopeless = none
    ∧ (let s : State := { waiting 1 0 with quotas := [(1, 0)] }
       s.placeable 0 = none ∧ (look {} s.dies 0 : Die).waiting.find? s.hopeless = some ⟨0, 0, []⟩ ∧ (find s.launches 0).isSome = true)
    ∧ (∀ n, n = 15 ∨ n = 16 → let s := waiting 1 n
        (look {} s.dies 0 : Die).waiting = [⟨0, 0, []⟩] ∧ s.candidate 0 { launch1 1 0 with handed := 1 } (({ launch1 1 0 with handed := 1 } : Launch).shape 0) = some 0 ∧ look 0 (look {} s.dies 0 : Die).doneOn 0 = n ∧ find s.launches 0 = some { launch1 1 0 with handed := 1 } ∧ s.watchStopped { launch1 1 0 with handed := 1 } = false ∧ (look {} s.dies 0 : Die).draining = none)
    ∧ base.pickQueue = none ∧ base.hopelessQueue = none ∧ (vacant (launch1 2 0)).pickQueue = some 0 ∧ (vacant (launch1 2 0)).handing 0 = some (0, launch1 2 0) ∧ (launch1 2 0).persist = false
    ∧ (vacant (launch1 2 1)).pickQueue = some 0 ∧ (vacant (launch1 2 1)).handing 0 = some (0, launch1 2 1) ∧ (launch1 2 1).persist = true
    ∧ (∀ k, k = team1 ∨ k = savedTeam ∨ k = failed team1 ∨ k = failed (team0 place0) ∨ k = movedTeam 1 ∨ k = movedTeam 2 → find (teamed k).teams 0 = some k ∧ k.id.toNat = 0
        ∧ (find (teamed k).launches k.launch).elim true (fun l => !l.persist) = true)
    ∧ (teamed team1).savable team1 = true ∧ (teamed savedTeam).savable savedTeam = false ∧ (teamed team1).restorable team1 = false
    ∧ team1.moving = 0 ∧ ((teamed team1).saveArea 1).space ≠ 1 ∧ base.me ∈ (teamed team1).teamScribes 0 ∧ base.me.run.life ≠ .free
    ∧ savedTeam.moving = 0 ∧ savedTeam.saved = true ∧ savedTeam.mayRespill [] = true ∧ (2 : Nat) ≠ savedTeam.asid.toNat
    ∧ (away.restorable savedTeam = true ∧ (movedTeam 1).moving = 1 ∧ (movedTeam 2).moving = 2 ∧ (∀ c ∈ away.allScribes, c.wet.tags = []) ∧ (∀ c ∈ savedTeam.savedScribes, c.wet.tags = []) ∧ savedTeam.savedBars = [])
    ∧ base.wdogNs 1 = 0
    ∧ (let s := teamed team1
       s.wdogNs 1 ≠ 0 ∧ look 0 s.lastProgress (BitVec.ofNat 14 1).toNat + s.wdogNs 1 ≤ s.time
         ∧ (let run := (s.teams.filter fun t => t.2.asid = BitVec.ofNat 14 1 && !t.2.saved && !t.2.held).map (·.2); run ≠ []) ∧ (s.together team1).all s.savable = true)
    ∧ team1.failing = false ∧ (failed (team0 place0)).failing = true ∧ (failed (team0 place0)).doomed = true
    ∧ (let k := failed team1
       k.failing = true ∧ k.doomed = false ∧ (teamed k).contextsFree (k.image.map (·.at_)) k.id = true ∧ (∀ c ∈ (teamed k).copies, c.2.team ≠ k.id)) := by
  and_intros <;> first
    | decide +kernel
    | (rintro n (rfl | rfl) <;> decide +kernel)
    | (rintro k (rfl | rfl | rfl | rfl | rfl | rfl) <;> decide +kernel)

/-- The package with this packet at HEAD of queue 0. -/
def heading (k : Queue) (p : BitVec 1024) : State :=
  { vacant (launch1 1 0) with launches := [], nextLaunch := 1, queues := [(0, k)], dram := writeBits [] 0x80000008000 1024 p.toNat }
def headed (p : BitVec 1024) : State := heading queue0 p
def pktDesc : Nat := (desc0 hostCap hostDst 0).toNat + (desc1 1 0 0).toNat * 2 ^ 512
def busyQueue : Queue := { queue0 with incomplete := [0], nextSeq := 1 }

/-- A read for a packet that gives the value and changes nothing. -/
def fetched (s : State) (r : ArgRead) (v : Nat) : Bool :=
  match r with
  | .got t x => t = s && x = v
  | _ => false

theorem fetched_got {s : State} {r : ArgRead} {v : Nat} (h : fetched s r v = true) : r = .got s v := by
  cases r <;> simp_all [fetched]

theorem meets_Packets_bad :
    ∀ t ∈ [1, 2, 3, 4, 5, 6], let p := packet t 9 0; (headed p).headPacket 0 = some (queue0, p) ∧ headerBad queue0 p = true ∧ pType p = t := by decide +kernel

theorem meets_Packets_launch :
    (headed (launchP 0 1 0)).headPacket 0 = some (queue0, launchP 0 1 0) ∧ headerBad queue0 (launchP 0 1 0) = false ∧ launchBad (launchP 0 1 0) = false
    ∧ (let s := headed (launchP 0 1 0)
       let f := pktField (launchP 0 1 0)
       s.packetSeen queue0 = s ∧ s.derive 1 (BitVec.ofNat 128 (f 640 128)) (pExec + pLoad) = some (mkCap 0 4096 17 0) ∧ s.derive 1 (BitVec.ofNat 128 (f 768 128)) pLoad = some (mkCap 0 1024 1 0)
         ∧ s.derive 1 (BitVec.ofNat 128 (f 896 128)) 0 = some (mkCap 0 0x10000 3 0) ∧ f 192 16 = 0 ∧ bits (f 640 64) 0 5 = 0 ∧ s.argGet (headWho 1 0) (mkCap 0 1024 1 0) 0 0 = .got s 0
         ∧ s.tagUnits 1 0 0 (List.range 0) = some []) := by
  and_intros <;> first | decide +kernel | exact fetched_got (by decide +kernel)

theorem meets_Packets_copy :
    let p := packet 2 0 0x4000
    let s := { headed p with dram := writeBits (headed p).dram 0x80000004000 1024 pktDesc }
    s.headPacket 0 = some (queue0, p) ∧ headerBad queue0 p = false ∧ pType p = 2 ∧ pktField p 160 864 = 0 ∧ s.packetSeen queue0 = s
      ∧ s.argGet (headWho 1 0) (mkCap 0 (2 ^ 60) pLoad 0) (pktField p 96 64) 1024 = .got s pktDesc
      ∧ (let c := mkCopy noScribe noScribe 1 (some (0, pSeq p, pCorr p)) (BitVec.ofNat 512 pktDesc) (BitVec.ofNat 512 (pktDesc / 2 ^ 512)) 0
         ((s.deriveCopy 1 c).map fun d => d.formFault false = none && d.bar = noBar && !d.crec && !d.plane && d.readLines s 0 = [] && d.capFault 0 = none) = some true) := by
  and_intros <;> first | decide +kernel | exact fetched_got (by decide +kernel)

theorem meets_Packets_wait :
    (∀ k m, (k = queue0 ∨ k = busyQueue) → (m = 0 ∨ m = 1 ∨ m = 2) → let p := packet 3 k.nextSeq.toNat (m + 0x4000 * 2 ^ 64 + 5 * 2 ^ 128)
      (heading k p).headPacket 0 = some (k, p) ∧ headerBad k p = false ∧ pType p = 3 ∧ pktField p 98 6 = 0 ∧ pktField p 112 16 = 0 ∧ pktField p 288 736 = 0
        ∧ pktField p 96 2 = m ∧ ((heading k p).packetSeen k).stepAside (headWho 1 0) = none)
    ∧ queue0.incomplete = [] ∧ busyQueue.incomplete ≠ [] ∧ (headed 0).seqDone 0 0 = false ∧ (heading { queue0 with doneSeq := 1 } 0).seqDone 0 0 = true
    ∧ (let p := packet 3 0 (2 + 0x4000 * 2 ^ 64 + 5 * 2 ^ 128)
       (headed p).argGet (headWho 1 0) (mkCap 0 (2 ^ 60) pLoad 0) (pktField p 160 64) 64 = .got (headed p) 0 ∧ pktField p 224 64 = 5 ∧ (headed p).packetSeen queue0 = headed p
         ∧ (let s := { headed p with dram := writeBits (headed p).dram 0x80000004000 64 5 }
            s.headPacket 0 = some (queue0, p) ∧ s.packetSeen queue0 = s ∧ s.stepAside (headWho 1 0) = none ∧ s.argGet (headWho 1 0) (mkCap 0 (2 ^ 60) pLoad 0) (pktField p 160 64) 64 = .got s 5)) := by
  refine ⟨?_, by decide +kernel, by decide +kernel, by decide +kernel, by decide +kernel, fetched_got (by decide +kernel), by decide +kernel, by decide +kernel, by decide +kernel, by decide +kernel,
    by decide +kernel, fetched_got (by decide +kernel)⟩
  rintro k m (rfl | rfl) (rfl | rfl | rfl) <;> decide +kernel

def session0 : Session := { drain := hostDst, logN := 12, types := 0, clusters := 0, brkcap := false, corr := 0, written := 0 }
def traced (b : List (BitVec 14 × BitVec 128)) : State := { base with sessions := [(1, session0)], clusters := [(0, { folio := b })] }

theorem meets_Packets :
    (∀ k, k = queue0 ∨ k = busyQueue → let p := packet 4 k.nextSeq.toNat (0x4000 + 9 * 2 ^ 64 + 2 ^ 192)
      (heading k p).headPacket 0 = some (k, p) ∧ headerBad k p = false ∧ pType p = 4 ∧ pktField p 96 64 % 64 = 0 ∧ pktField p 224 64 = 0 ∧ pktField p 289 735 = 0
        ∧ pktField p 96 64 < 2 ^ 60
        ∧ ((heading k p).packetSeen k).stepAside (headWho 1 0) = none
        ∧ ((heading k p).packetSeen k).reachesAs (headWho 1 0) (headWho 1 0).line 1 .store (pktField p 96 64) 64 (piece 0x4000 64))
    ∧ (let p := packet 5 0 0; (headed p).headPacket 0 = some (queue0, p) ∧ headerBad queue0 p = false ∧ pType p = 5 ∧ pktField p 96 928 = 0)
    ∧ (∀ m ∈ [0, 1, 2], let p := packet 6 0 (m + hostDst.bits.toNat * 2 ^ 160)
       let s : State := { headed p with sessions := if m = 0 then [] else [(1, session0)] }
       s.headPacket 0 = some (queue0, p) ∧ headerBad queue0 p = false ∧ pType p = 6 ∧ traceBad queue0 p = false ∧ pktField p 96 2 = m
         ∧ s.derive 1 (BitVec.ofNat 128 (pktField p 256 128)) pStore = some hostDst ∧ find s.sessions 1 = (if m = 0 then none else some session0) ∧ (s.packetSeen queue0).drainLayer 1 ((s.packetSeen queue0).flushSize 1) = none)
    ∧ (∀ d ∈ [0, 1], let l := { launch1 1 0 with handed := 1, completed := d }
       let s := vacant l
       find s.launches 0 = some l ∧ find s.queues l.queue = some { queue0 with handing := some 0, incomplete := [0] } ∧ s.launchOver 0 l = (d = 1 : Bool) ∧ s.entryLayer { asid := l.asid, place := placeOf .launch 0 } l.queue = none)
    ∧ find (headed 0).queues 0 = some queue0 ∧ queue0.state < 2 ∧ 2 ≤ ({ queue0 with state := 2 } : Queue).state ∧ base.sessions = []
    ∧ (∀ b ∈ [[], [(1, 5)]], (traced b).sessions = [(1, session0)] ∧ session0.drain.space = 2 ∧ look 0 (look {} (traced b).clusters 0 : Cluster).dropped 1 = 0
       ∧ ((look {} (traced b).clusters 0 : Cluster).folio.filter fun r => r.1 = BitVec.ofNat 14 1) = b) := by
  refine ⟨?_, by decide +kernel, by decide +kernel, by decide +kernel, by decide +kernel, by decide +kernel⟩
  rintro k (rfl | rfl) <;> and_intros <;> first | decide +kernel | exact finds_ok (by decide +kernel)

/-! ### Power, the controller, links and errors -/

/-- One layer hot or tripped on die 1, and an island in some state. -/
def heated (d : Die) : State := { base with dies := [(1, d)] }
def islanded (i : Island) : State := { base with islands := [(0, { clock := 15 }), (5, i)] }

theorem meets_Power :
    (3 < 4 ∧ 1 < 2) ∧ ((0 : BitVec 16).toInt ≤ 0 ∧ 30 < (31 : BitVec 16).toInt ∧ (-100 : BitVec 16).toInt ≤ -100 ∧ (-50 : BitVec 16).toInt ≤ -50 ∧ -50 < (-49 : BitVec 16).toInt)
    ∧ ((heated {}).die 1).isHot 1 = false ∧ ((heated { hot1 := true }).die 1).isHot 1 = true ∧ ((heated {}).die 1).isTripped 1 = false
    ∧ ((heated { trip1 := true }).die 1).isTripped 1 = true ∧ (heated { trip1 := true }).colls = [] ∧ (∀ d ∈ (heated { trip1 := true }).allScribes, d.wet.tags = [])
    ∧ ({ base with time := 9999 } : State).time < base.lastDecision + 10000 ∧ base.lastDecision + 10000 ≤ ({ base with time := 10000 } : State).time
    ∧ ((islanded {}).isl 5).raising = none ∧ ((islanded { raising := some 15 }).isl 5).raising = some 15
    ∧ ((islanded { resident := true }).isl 5).resident = true
    ∧ ((islanded {}).isl 5).retention = false ∧ ((islanded {}).isl 5).due 0 < 64 ∧ 64 ≤ ((islanded { phase := 64 }).isl 5).due 0
    ∧ (let s := islanded { retention := true, bad := [3] }; (s.isl 5).retention = true ∧ (s.isl 5).waking = none ∧ s.wakeCause 5 = false)
    ∧ (let s := islanded { retention := true, wanted := true }; (s.isl 5).retention = true ∧ (s.isl 5).waking = none ∧ s.wakeCause 5 = true)
    ∧ (let s := islanded { retention := true, waking := some 1000 }
       (s.isl 5).retention = true ∧ (s.isl 5).waking = some 1000 ∧ s.time < 1000 ∧ 1000 ≤ ({ s with time := 1000 } : State).time)
    ∧ (let s := islanded { idle := true }
       (s.isl 5).retention = false ∧ (s.isl 5).idle = true ∧ (s.isl 5).resident = false ∧ s.islanders 5 = [] ∧ s.islandHeld 5 = false)
    ∧ ({ base with mgmt := { coolantHot := true, outlet := 549 } } : State).mgmt.coolantHot = true ∧ base.mgmt.coolantHot = false ∧ base.mgmt.outlet < 600 ∧ 549 < 550
    ∧ ({ base with mgmt := { outlet := 600 } } : State).mgmt.coolantHot = false := by decide +kernel

/-- The controller running, the scribe running or held, and in recovery. -/
def managed : State := { base with mgmt := { boot := .running, window := none }, ctxs := [(1, ctx 1)] }
def held : State := { managed with me := { managed.me with run := { managed.me.run with life := .debugHeld } } }
def bare : State := { me := base.me, mgmt := { boot := .running } }

theorem meets_Management :
    base.mgmt.boot = .inReset ∧ ({ base with mgmt := { boot := .recovery } } : State).mgmt.boot = .recovery ∧ managed.mgmt.boot = .running
    ∧ 1 < 2 ∧ (1 : Nat) ≠ managed.mgmt.active ∧ find managed.queues 3 = none ∧ (find managed.ctxs 1).isSome = true
    ∧ ((managed.allScribes.filter fun c => !c.at_.shadow).filter fun c => c.at_.id = BitVec.ofNat 14 1) = []
    ∧ ((managed.allScribes.filter fun c => !c.at_.shadow).filter fun c => c.at_.id = BitVec.ofNat 14 0) = [managed.me]
    ∧ ((managed.allScribes.filter fun c => !c.at_.shadow).filter fun c => c.at_.asid = BitVec.ofNat 14 1) = [managed.me]
    ∧ managed.me.run.life = .running ∧ managed.me.ctl.xim = none ∧ managed.me.run.ckWait = none ∧ managed.me.run.jobs = [] ∧ managed.heldScribe 0 = none
    ∧ (64 : BitVec 64).toNat + 1024 * 2 ^ 4 ≤ 2 ^ 60 ∧ 2 ^ 60 < (0xFFFFFFFFFFFFFFF : BitVec 64).toNat + 128 * 2 ^ 4 ∧ (64 : BitVec 64).toNat % 8 = 0 ∧ (65 : BitVec 64).toNat % 8 ≠ 0
    ∧ held.heldScribe 0 = some held.me ∧ held.me.at_.id = BitVec.ofNat 14 0 ∧ held.regValue held.me (.s 8) = some 5 ∧ held.regValue held.me (.s 0) = none
    ∧ 3 < 8
    ∧ (held.me.writeReg (held.liveLanes held.me.at_) (.g 3) 5).isSome = true ∧ held.me.writeReg (held.liveLanes held.me.at_) (.s 0) 5 = none
    ∧ recordOk { ctx 1 with faultQ := emptyCap } = false ∧ recordOk { ctx 1 with faultQ := mkCap 0x100000 4352 0xFF 2, capRoot := mkCap 0 0x10000 0xFF 0, hostRoot := none, save := mkCap 0x200000 0x10000 0xFF 2 } = true ∧ managed.colls = [] ∧ (∀ d ∈ managed.allScribes, d.wet.tags = [])
    ∧ managed.me.run.waitEntry < noEntry ∧ quotaOk (5 : BitVec 64).toNat = true ∧ quotaOk (17 : BitVec 64).toNat = false := by decide +kernel

/-- R372: no slot verifies once a version beyond the slots' own is recorded. -/
theorem test_recovery :
    let m : Mgmt := { recorded := Config.securityVersion [] + 1 }
    m.boot = .inReset ∧ (m.verifies (m.slot m.first) || m.verifies (m.slot (1 - m.first))) = false := by
  simp [Mgmt.verifies, Mgmt.slot]

/-- The exported window of package 0 is bits 0 to 65535 of context 1. -/
def exported : State := { managed with mgmt := { managed.mgmt with window := some (1, 0, 0x10000) } }

/-- The host has opened context 1, which has queue 3. -/
def opened : State := { managed with mgmt := { managed.mgmt with opened := [1] }, queues := [(3, queue0)] }

/-- An access that reads and writes one page and needs nothing brought in. -/
def plainAccess (s : State) : Prop :=
  let who := dispatcher 1
  (∀ k, k = .load ∨ k = .store ∨ k = .atomic ∨ k = .reduce → s.reachesAs who none 1 k 64 64 (piece 64 64)) ∧ s.fetchPieces who 64 (piece 64 64) = (s, [])

theorem meets_Management_access :
    (64 % 8 = 0 ∧ 0 < 64 ∧ 64 ≤ 4096 ∧ 64 + 64 ≤ 2 ^ 60) ∧ 1 ∈ opened.mgmt.opened ∧ ¬ 1 ∈ managed.mgmt.opened ∧ find opened.queues 3 = some queue0
    ∧ exported.mgmt.pkg ≠ 1 ∧ exported.ownWindow 64 64 = some (BitVec.ofNat 14 1, 64) ∧ exported.ownWindow 0x10000 64 = none
    ∧ (∀ s, s = opened ∨ s = exported → plainAccess s) := by
  refine ⟨by decide, by decide, by decide, by decide +kernel, by decide, by decide +kernel, by decide +kernel, ?_⟩
  rintro s (rfl | rfl)
  all_goals
    refine ⟨?_, by decide +kernel⟩
    rintro k (rfl | rfl | rfl | rfl) <;> exact ⟨by decide +kernel, by decide +kernel, finds_ok (by decide +kernel), by decide +kernel⟩

theorem meets_Management_links :
    (base.port 2).up = false ∧ 2 < 36 ∧ 1 < 4096 ∧ (1 : Nat) ≠ base.mgmt.pkg
    ∧ (let s : State := { base with ports := [(2, { up := true, pkg := 1, unacked := [15, 16] })] }
       (s.port 2).up = true ∧ s.colls = [] ∧ (s.port 2).unacked ≠ [] ∧ (s.port 2).unacked.getD 0 0 < 16 ∧ 16 ≤ (s.port 2).unacked.getD 1 0 ∧ (s.port 2).unacked.length ≤ 2)
    ∧ ¬ 1 ∈ base.unreachable ∧ base.colls = [] ∧ (1 : Nat) ∈ ({ base with unreachable := [1] } : State).unreachable
    ∧ base.scribe (BitVec.ofNat 14 0) = some base.me ∧ base.me.at_.id = BitVec.ofNat 14 0 ∧ base.me.run.life = .running ∧ base.me.ctl.tvec ≠ 0
    ∧ inTier (32 * 5) = true ∧ look 0 base.eccHard 5 = 0 ∧ look 0 base.eccSoft 5 = 0 ∧ look 0 ({ base with eccSoft := [(5, 3)] } : State).eccSoft 5 = 2 + 1
    ∧ ¬ peOfLine 3 ∈ base.holes ∧ (base.line 3).st ≠ .free ∧ (base.isl (islandOfLine 3)).retention = false ∧ ((islanded { retention := true }).isl 5).retention = true
    ∧ look 0 base.me.r.pv (vKey 71 63) = 0 ∧ base.me.holdsKey 8 = true
    ∧ 256 ∈ base.holes ∧ ¬ 256 * 8 + 8 ∈ base.holes ∧ find base.pendingHoles (256 * 8 + 8) = none ∧ bare.teams = [] ∧ ¬ 0 ∈ bare.holes ∧ base.teams ≠ [] := by
  decide +kernel

/-! ## The manual's worked examples -/

/-- The scribe of the base state with no lane on a hole. -/
def wide (f : Scribe → Scribe) : State := { base with me := f base.me, holes := [] }

/-- 00_scope, one bit of the plane: die, core and depth of atom 5 of line 3 at (200, 130). -/
theorem test_plane_bit : planeAddr (130 * 256 + 200) (3 * 512 + 5 * 32) = 0x1059006A0 ∧ dieOf 0x3210 = 3 ∧ coreOf 0x3210 = 8 ∧ slotOf 0x3210 = 1 := by decide +kernel

/-- 01_scribe, a lane in a 16-lane patch with PART 0x5: segment and position in it. -/
theorem test_lane_numbers :
    let c := (wide fun m => { m with at_ := { place0 with ox := 204, oy := 132 }, ctl := { m.ctl with part := 5 } }).me
    c.laneNum 1 7 = 3 ∧ c.laneNum 2 7 = 1 ∧ c.laneNum 3 7 = 207 ∧ c.laneNum 4 7 = 133 ∧ c.laneNum 5 7 = 1 ∧ c.laneNum 6 7 = 3 := by decide +kernel

/-- 02_numbers, one stochastic rounding in lane 3. -/
theorem test_stochastic_rounding :
    rngSeed 0x10 3 = 0x13 ∧ rngNext 0x13 = 0x004E6252
    ∧ (let r := round (fval .f32 0x3F804000) .bf16 { mode := 5, daz := false, ftz := false, sat := false } 0x004E6252
       r.code = 0x3F81 ∧ r.flags = fNX) := by decide +kernel

/-- 02_numbers, one block pair: 10.0 + (-4) · 1 is 6.0; and the slice of two products 2^-24. -/
theorem test_nib_slice :
    (accF32 0x41200000 [(narrowVal 0x62 4 2, narrowVal 0x1E 4 3), (narrowVal 0x62 4 7, narrowVal 0x1E 4 0xF), (narrowVal 0x62 4 0xB, narrowVal 0x1E 4 2),
      (narrowVal 0x62 4 8, narrowVal 0x1E 4 5), (narrowVal 0x62 4 1, narrowVal 0x1E 4 4)]).1 = 0x40C00000
    ∧ (accF32 0x3F800000 [(fval .bf16 0x3980, fval .bf16 0x3980), (fval .bf16 0x3980, fval .bf16 0x3980)]).1 = 0x3F800001 := by decide +kernel

/-- 03_bits, two writers of one atom. -/
theorem test_two_writers :
    let m := writeBits (writeBits [] 0x404 4 9) 0x41E 6 0x3F
    readBits m 0x400 32 = 0xC0000090 ∧ readBits m 0x420 32 = 0xF := by decide +kernel

/-- 03_bits, bounds and the representable region. -/
theorem test_bounds :
    encodeBounds 0x100000 0x300000 = (3, 0x20000, 0x80000)
    ∧ (let at_ := fun (a : Nat) => ({ mkCap 0x100000 0x300000 17 0 with bits := capBits a 3 0x20000 0x80000 17 0 } : Cap)
       (at_ 0x200000).base = 0x100000 ∧ (at_ 0x200000).top = 0x400000 ∧ (at_ 0x7FFF00).base = 0x100000 ∧ (at_ 0x800000).base = 0x900000 ∧ (at_ 0x800000).top = 0xC00000
         ∧ (at_ 0xFFFFFFFFFFFFFF00).base = 0xFFFFFFFFFF900000) := by decide +kernel

/-- 06_lane, one quantisation round: v4 holds 0.75·l, and v5 gets the codes. -/
def quantised : State :=
  wide fun m => { m with r := { m.r with v := (List.range 16).map fun l => (64 * 4 + l, lane (round (.fin false (3 * l) (-2) false) .f32 { mode := 0, daz := false, ftz := false, sat := false } 0).code) } }

theorem test_vquant :
    let t := after (exec (.vquant 0 5 4 0 1 0 1) quantised)
    (List.range 16).map (fun l => (t.getV 5 l).toNat) = [0x60000000, 0x60000002, 0x60000003, 0x60000004, 0x60000005, 0x60000006, 0x60000006, 0x60000007, 0x61000005, 0x61000005,
      0x61000006, 0x61000006, 0x61000006, 0x61000006, 0x61000007, 0x61000007] ∧ t.me.ctl.fpm = 0x100000 := by decide +kernel

/-- The same: the residuals sum to 0.5 in every lane, and VPICK of unequal lanes raises UNIFORM with mask 0xFEEA. -/
def residual : List Nat :=
  [0, 0xBE800000, 0, 0x3E800000, 0, 0xBE800000, 0x3F000000, 0xBF400000, 0, 0x3F400000, 0xBF000000, 0x3E800000, 0x3F800000, 0x3FE00000, 0xBFC00000, 0xBF400000]
def residuals : State :=
  wide fun m => { m with r := { m.r with v := (List.range 16).map fun l => (64 * 7 + l, lane (residual[l]?.getD 0)) }, ctl := { m.ctl with part := 0xA } }

theorem test_vred_fadd :
    let t := after (exec (.vred 0 8 7 1) residuals)
    (List.range 16).all (fun l => t.getV 8 l = 0x3F000000) = true := by decide +kernel

theorem test_vpick_uniform :
    let t := after (exec (.vpick 0 10 7) residuals)
    t.me.ctl.tcause.toNat % 256 = 8 ∧ t.me.ctl.tinfo = 0xFEEA ∧ t.getS 10 = 0 := by decide +kernel

/-- 08_traps, a mixed branch: q2 holds in lanes 0 to 31 of 64. -/
def mixed : State :=
  let s := wide fun m => { m with at_ := { place0 with width := 2 }, r := { m.r with q := [(2, 0xFFFFFFFF)] }, ctl := { m.ctl with pc := 0x200, remain := 1, header := 3 } }
  { s with teams := [(0, team0 { place0 with width := 2 })] }

theorem test_mixed_branch :
    let t := after (exec (.bru 2 4) mixed)
    t.me.ctl.tcause = 0x108 ∧ t.me.ctl.tinfo = 0xFFFFFFFF00000000 ∧ t.me.ctl.taddr = 0 ∧ t.me.ctl.tpc = 0x200 ∧ t.me.ctl.tstatus = 0x100000003 ∧ t.me.ctl.handler = true := by
  decide +kernel

/-- 18_dispatch, one walk. -/
def walked : State :=
  let entry := fun m a v => writeBytes m a v 8
  { base with tlb := [], ctxs := [(1, { ctx 0 with root := 0x200000000 })],
              dram := entry (entry (entry (entry [] 0x200000010 0x200200001) 0x200200028 0x200201001) 0x200201018 0x200202001) 0x2002020D0 0x12345000F }

theorem test_walk :
    finds (walked.leaf (some 0) 1 (0x80A03D2610D / 8)) { phys := 0x123454C21, dev := false, x := false, wr := true, rd := true } = true
    ∧ (match walked.translate (some 0) 1 .load 0x80A03D2610D 3 with | .ok ps => ps.map (·.phys) = [0x91A2A610D] | .error _ => false) = true
    ∧ (match walked.translate (some 0) 1 .fetch 0x80A03D26100 32 with | .ok _ => false | .error e => e.1 = 1) = true := by decide +kernel

/-- 21_power, a step that ends on its guard: SLACK read at 1,030,000. -/
theorem test_slack :
    let s : State := { (ctl fun c => { c with stepOpen := true, stepId := 5, deadline := 1060000, work := 35000, done := 22500 }) with time := 1030000 }
    s.creg 0x042 = some 0x800030D400004E20 := by decide +kernel

/-- 07_wet, an index computed while it loads: 3·k·32 + 64 less 32·k is 64·k + 64 under one tag. -/
theorem test_wet_index :
    let s := wets { s := [(8, { rec0 none with a := 96 }), (9, { rec0 none with a := 32 })], tags := [(0, tag0 none)], next := 1 }
    let s := { s with me := (s.me.setS 8 64).setS 9 0 }
    let t := after (exec (.sub 10 8 9) { s with me := { s.me with wet := (wets { s := [(8, { rec0 none with a := 96 }), (9, { rec0 none with a := 32 })], tags := [(0, tag0 none)], next := 1 }).me.wet } })
    find t.me.wet.s 10 = some { rec0 none with a := 64 } ∧ t.getS 10 = 64 := by decide +kernel

/-- 09_core, PROBE of a line that 0x0140 owns. -/
theorem test_probe :
    let s : State := { base with lines := set base.lines 1 { st := .own, owner := 0x140 } }
    let t := after (exec (.probe 13 2) { s with me := s.me.setS 2 512 })
    t.getS 13 = 0x01014140 := by decide +kernel

end Sys2Proof.Tests
end

section
/-! PROOF. Lane masks bit by bit, guards, lane numbers and plane addresses; O30. -/

namespace Sys2Proof.Machine

open Sys2Proof

/-! ## Lane masks -/

theorem bitOf_eq_getLsbD (m : Word) (l : Nat) : bitOf m l = m.getLsbD l := by
  simp [bitOf, BitVec.getLsbD, Nat.testBit_eq_decide_div_mod_eq]

@[simp] theorem bitOf_and (a b : Word) (l : Nat) : bitOf (a &&& b) l = (bitOf a l && bitOf b l) := by
  simp [bitOf_eq_getLsbD]

theorem bitOf_not (a : Word) {l : Nat} (hl : l < 64) : bitOf (~~~a) l = !bitOf a l := by
  simp [bitOf_eq_getLsbD, hl]

/-- The number that `maskOf` makes a word of. -/
def laneSum (n : Nat) (p : Nat → Bool) : Nat := (List.range n).foldl (fun acc l => if p l then acc + 2 ^ l else acc) 0

theorem maskOf_eq_word_laneSum (n : Nat) (p : Nat → Bool) : maskOf n p = word (laneSum n p) := rfl

theorem laneSum_succ (n : Nat) (p : Nat → Bool) : laneSum (n + 1) p = if p n then 2 ^ n + laneSum n p else laneSum n p := by
  simp [laneSum, List.range_succ, Nat.add_comm]

theorem laneSum_lt_two_pow (n : Nat) (p : Nat → Bool) : laneSum n p < 2 ^ n := by
  induction n with
  | zero => simp [laneSum]
  | succ n ih => rw [laneSum_succ]; split <;> omega

theorem testBit_laneSum (n : Nat) (p : Nat → Bool) (l : Nat) : (laneSum n p).testBit l = (decide (l < n) && p l) := by
  induction n with
  | zero => simp [laneSum]
  | succ n ih =>
    have hlow := laneSum_lt_two_pow n p
    rw [laneSum_succ]
    obtain hlt | rfl | hgt := Nat.lt_trichotomy l n
    · have hadd := Nat.testBit_two_pow_add_gt hlt (laneSum n p)
      split <;> simp [hadd, ih, hlt, Nat.lt_succ_of_lt hlt]
    · have hadd := Nat.testBit_two_pow_add_eq (laneSum l p) l
      split <;> simp [*]
    · have hsum : (if p n then 2 ^ n + laneSum n p else laneSum n p) < 2 ^ l := by
        have := Nat.pow_le_pow_right (n := 2) (by omega) (Nat.succ_le_of_lt hgt)
        split <;> omega
      simp [Nat.testBit_lt_two_pow hsum, Nat.not_lt.2 (Nat.succ_le_of_lt hgt)]

theorem bitOf_maskOf {n : Nat} (hn : n ≤ 64) (p : Nat → Bool) (l : Nat) : bitOf (maskOf n p) l = (decide (l < n) && p l) := by
  have hlt : laneSum n p < 2 ^ 64 := Nat.lt_of_lt_of_le (laneSum_lt_two_pow n p) (Nat.pow_le_pow_right (by omega) hn)
  rw [maskOf_eq_word_laneSum, bitOf_eq_getLsbD, word, BitVec.getLsbD, BitVec.toNat_ofNat, Nat.mod_eq_of_lt hlt, testBit_laneSum]

/-! ## The patch (Table 01-1, R12) -/

theorem Place.lanes_eq_of_width {p : Place} (hw : p.width < 3) : p.lanes = 16 * 2 ^ p.width := by
  obtain h | h | h : p.width = 0 ∨ p.width = 1 ∨ p.width = 2 := by omega
  all_goals simp [Place.lanes, Place.pw, Place.ph, h]

theorem Place.lanes_le_64 (p : Place) : p.lanes ≤ 64 := by
  unfold Place.lanes Place.pw Place.ph
  split <;> split <;> omega

/-- The inverse of R12: the lane at patch position (px, py) stands at that offset from the patch origin. -/
theorem Place.peOf_laneNumber (p : Place) {px : Nat} (py : Nat) (hx : px < p.pw) :
    p.peOf (py * p.pw + px) = (p.oy + py) * 256 + (p.ox + px) := by
  have hdiv : (py * p.pw + px) / p.pw = py := by
    rw [Nat.mul_comm, Nat.mul_add_div (by omega), Nat.div_eq_of_lt hx, Nat.add_zero]
  have hmod : (py * p.pw + px) % p.pw = px := by
    rw [Nat.mul_comm, Nat.mul_add_mod, Nat.mod_eq_of_lt hx]
  rw [Place.peOf, hdiv, hmod, Nat.add_assoc]

/-! ## Guards and active lanes (R13, R14, R239) -/

theorem bitOf_liveLanes (s : State) (p : Place) (l : Nat) :
    bitOf (s.liveLanes p) l = (decide (l < p.lanes) && !s.holeFor p.launch (p.peOf l)) :=
  bitOf_maskOf p.lanes_le_64 _ l

theorem Scribe.bitOf_getQ_zero (c : Scribe) (l : Nat) : bitOf (c.getQ 0) l = decide (l < c.at_.lanes) := by
  simp [Scribe.getQ, bitOf_maskOf c.at_.lanes_le_64]

theorem Scribe.getQ_of_ne_zero (c : Scribe) {n : Nat} (hn : n ≠ 0) : c.getQ n = look 0 c.r.q n := by
  simp [Scribe.getQ, hn]

/-- The negate bit of a guard is its bit 3 (R75). -/
theorem guard_negate_iff (g : BitVec 4) : bits g.toNat 3 1 = 1 ↔ 8 ≤ g.toNat := by
  have := g.isLt
  unfold bits
  omega

/-- R14: the guard holds in lane l when q[l] XOR negate is 1. -/
theorem Scribe.bitOf_guard (c : Scribe) (g : BitVec 4) {l : Nat} (hl : l < 64) :
    bitOf (c.guard g) l = (bitOf (c.getQ (bits g.toNat 0 3)) l ^^ decide (8 ≤ g.toNat)) := by
  unfold Scribe.guard
  by_cases hneg : 8 ≤ g.toNat
  · simp [guard_negate_iff, hneg, bitOf_not _ hl]
  · simp [guard_negate_iff, hneg]

/-- R13: a lane is active when it is of the patch, is not on a hole and the guard holds in it. -/
theorem State.bitOf_active_iff (s : State) (g : BitVec 4) (l : Nat) :
    bitOf (s.active g) l = true ↔
      l < s.me.at_.lanes ∧ s.hole (s.me.at_.peOf l) = false ∧ bitOf (s.me.guard g) l = true := by
  simp [State.active, bitOf_liveLanes, State.hole, and_assoc]

/-- Guard 0000 holds in every lane of the patch and guard 1000 in none; another guard reads its predicate (R14). -/
theorem Scribe.bitOf_guard_iff (c : Scribe) (g : BitVec 4) {l : Nat} (hl : l < c.at_.lanes) :
    bitOf (c.guard g) l = true ↔
      (bits g.toNat 0 3 = 0 → g.toNat < 8)
        ∧ (bits g.toNat 0 3 ≠ 0 → (bitOf (look 0 c.r.q (bits g.toNat 0 3)) l = true ↔ g.toNat < 8)) := by
  rw [c.bitOf_guard g (Nat.lt_of_lt_of_le hl c.at_.lanes_le_64)]
  by_cases hq : bits g.toNat 0 3 = 0
  · simp [hq, Scribe.bitOf_getQ_zero, hl]
  · by_cases hneg : g.toNat < 8
    · simp [hq, Scribe.getQ_of_ne_zero, hneg, Nat.not_le.2 hneg]
    · simp [hq, Scribe.getQ_of_ne_zero, hneg, Nat.not_lt.1 hneg]

/-! ## Plane bit addresses (R8) -/

/-- R8: depth in bits [16:0], x in bits [24:17], y in bits [32:25]. -/
theorem planeAddr_fields {x y depth : Nat} (hx : x < 256) (hy : y < 256) (hd : depth < 131072) :
    planeAddr (y * 256 + x) depth < 2 ^ 33 ∧ bits (planeAddr (y * 256 + x) depth) 0 17 = depth
      ∧ bits (planeAddr (y * 256 + x) depth) 17 8 = x ∧ bits (planeAddr (y * 256 + x) depth) 25 8 = y := by
  unfold planeAddr bits
  omega

/-- A plane bit address lies in the line of its PE that holds its depth. -/
theorem planeAddr_div_512 (pe depth : Nat) : planeAddr pe depth / 512 = lineNo pe (depth / 512) := by
  unfold planeAddr lineNo
  omega

/-! ## The obligation -/

/-- Settles O30: the mask bit by bit (R13, R14), division with remainder by the patch width (R12), the address fields (R8). -/
theorem activeLanes : Obligations.ActiveLanes := by
  refine ⟨fun s g l hw _ => ?_, fun p px py hw => ?_, fun x y depth hx hy hd => ?_⟩
  · rw [s.bitOf_active_iff, ← Place.lanes_eq_of_width hw]
    exact and_congr_right fun hl => and_congr_right fun _ => s.me.bitOf_guard_iff g hl
  · intro w h hx _
    exact ⟨rfl, p.peOf_laneNumber py hx⟩
  · obtain ⟨hlt, hdepth, hcol, hrow⟩ := planeAddr_fields hx hy hd
    exact ⟨hlt, hdepth, hcol, hrow, planeAddr_div_512 _ depth⟩

end Sys2Proof.Machine
end

section
/-! PROOF. Finite encodings round to themselves (R25, R34); O35. -/

namespace Sys2Proof.Machine

open Sys2Proof

theorem bits_lt (n lo w : Nat) : bits n lo w < 2 ^ w := Nat.mod_lt _ (Nat.two_pow_pos w)

/-! ## Encodings and their values (R25) -/

/-- An encoding is its sign, its exponent field and its mantissa field. -/
theorem Fmt.encoding_eq_fields (f : Fmt) {n : Nat} (hn : n < 2 ^ f.width) :
    n = bits n (f.width - 1) 1 * 2 ^ (f.width - 1) + (bits n f.mb f.eb * 2 ^ f.mb + bits n 0 f.mb) := by
  cases f <;> simp only [Fmt.width, Fmt.eb, Fmt.mb, bits] at * <;> omega

theorem Fmt.sign_of_bit (f : Fmt) (n : Nat) :
    (if decide (bits n (f.width - 1) 1 = 1) then 2 ^ (f.width - 1) else 0) = bits n (f.width - 1) 1 * 2 ^ (f.width - 1) := by
  obtain h | h : bits n (f.width - 1) 1 = 0 ∨ bits n (f.width - 1) 1 = 1 := Nat.mod_two_eq_zero_or_one _
  all_goals simp [h]

/-- The largest finite encoding stands below every exponent field of all ones, but for the seven values that e4m3 has there. -/
theorem Fmt.fields_le_maxBits (f : Fmt) {ex m : Nat} (hex : ex < 2 ^ f.eb) (hm : m < 2 ^ f.mb)
    (hfin : ¬ (ex = 2 ^ f.eb - 1 ∧ (f ≠ .e4m3 ∨ m = 7))) : ex * 2 ^ f.mb + m ≤ f.maxBits := by
  cases f <;> simp [Fmt.eb, Fmt.mb, Fmt.maxBits, Fmt.infBits] at * <;> omega

/-- A finite encoding is a multiple of the spacing 2^k · 2^qmin of its exponent: k = 0 or a leading one, and the exponent field is
that k with the leading one carried into it. -/
theorem fval_of_finite (f : Fmt) (n : Nat) (hnan : (fval f n).isNan = false) (hinf : ∀ s, fval f n ≠ .inf s) :
    ∃ k m, fval f n = .fin (decide (bits n (f.width - 1) 1 = 1)) m (f.qmin + (k : Nat)) false ∧ m < 2 ^ (f.mb + 1)
      ∧ (k = 0 ∨ 2 ^ f.mb ≤ m) ∧ k * 2 ^ f.mb + m = bits n f.mb f.eb * 2 ^ f.mb + bits n 0 f.mb
      ∧ k * 2 ^ f.mb + m ≤ f.maxBits := by
  have hm := bits_lt n 0 f.mb
  by_cases hspecial : bits n f.mb f.eb = 2 ^ f.eb - 1 ∧ (f ≠ .e4m3 ∨ bits n 0 f.mb = 7)
  · have hv : fval f n = if bits n 0 f.mb = 0 then .inf (decide (bits n (f.width - 1) 1 = 1)) else .nan := by
      simp [fval, hspecial]
    split at hv
    · exact absurd hv (hinf _)
    · simp [hv, Val.isNan] at hnan
  · have hmax := f.fields_le_maxBits (bits_lt n f.mb f.eb) hm hspecial
    have hv : fval f n = if bits n f.mb f.eb = 0 then .fin (decide (bits n (f.width - 1) 1 = 1)) (bits n 0 f.mb) f.qmin false
        else .fin (decide (bits n (f.width - 1) 1 = 1)) (2 ^ f.mb + bits n 0 f.mb) (f.qmin + (bits n f.mb f.eb - 1 : Nat)) false :=
      if_neg hspecial
    by_cases hex : bits n f.mb f.eb = 0
    · exact ⟨0, bits n 0 f.mb, by simp [hv, hex], by omega, .inl rfl, by simp [hex], by simpa [hex] using hmax⟩
    · have hcarry : (bits n f.mb f.eb - 1) * 2 ^ f.mb + (2 ^ f.mb + bits n 0 f.mb) = bits n f.mb f.eb * 2 ^ f.mb + bits n 0 f.mb := by
        rw [← Nat.add_assoc, ← Nat.succ_mul, Nat.succ_eq_add_one, Nat.sub_add_cancel (by omega)]
      exact ⟨bits n f.mb f.eb - 1, 2 ^ f.mb + bits n 0 f.mb, by rw [hv, if_neg hex], by omega, .inr (by omega), hcarry, hcarry ▸ hmax⟩

/-! ## Rounding what a format holds (R34) -/

/-- A value on the grid of its binade is left alone: with m = 0 it is a zero; otherwise the spacing that rounding chooses is the value's
own, so nothing is cut off. -/
theorem round_representable (f : Fmt) (neg : Bool) {m k : Nat} (r : Rm) (u : Nat) (hftz : r.ftz = false) (hm : m < 2 ^ (f.mb + 1))
    (hk : k = 0 ∨ 2 ^ f.mb ≤ m) (hmax : k * 2 ^ f.mb + m ≤ f.maxBits) :
    round (.fin neg m (f.qmin + k) false) f r u = { code := (if neg then 2 ^ (f.width - 1) else 0) + (k * 2 ^ f.mb + m), flags := 0 } := by
  by_cases hzero : m = 0
  · have hk0 : k = 0 := by have := Nat.two_pow_pos f.mb; omega
    simp [round, hzero, hk0]
  · have hlog : Nat.log2 m ≤ f.mb := Nat.lt_succ_iff.1 ((Nat.log2_lt hzero).2 hm)
    have hlead : k = 0 ∨ Nat.log2 m = f.mb := hk.imp_right fun h => Nat.le_antisymm hlog ((Nat.le_log2 hzero).2 h)
    have hq : max (((Nat.log2 m : Nat) : Int) + (f.qmin + k) - f.mb) f.qmin = f.qmin + k := by omega
    have hfits : ¬ f.maxBits < k * 2 ^ f.mb + m := by omega
    have hgrid : (f.qmin + (k : Int) - f.qmin).toNat = k := by omega
    simp only [round, hzero, false_and, if_false, hq, Int.lt_irrefl, Int.sub_self, Int.toNat_zero, Nat.pow_zero, Nat.div_one, Nat.mod_one,
      decide_true, Bool.not_false, Bool.and_true, Bool.not_true, Bool.false_and, Bool.false_eq_true, if_true, hgrid, hfits, hftz]

/-- Settles O35: a finite encoding has its value on the grid that rounding chooses (R25), so rounding gives its fields back (R34). -/
theorem roundingIsExact : Obligations.RoundingIsExact := by
  intro f n u r hn hnan hneg hpos hftz
  obtain ⟨k, m, hv, hm, hk, hfields, hmax⟩ := fval_of_finite f n hnan (fun s => by cases s <;> assumption)
  rw [hv, round_representable f _ r u hftz hm hk hmax, hfields, f.sign_of_bit]
  exact congrArg (Rounded.mk · 0 false) (f.encoding_eq_fields hn).symm

end Sys2Proof.Machine
end

section
/-! PROOF. What writing lanes of a register changes, with the flags and draws of the floating-point forms (R35, R40). -/

namespace Sys2Proof.Machine

open Sys2Proof

/-! ## Lane registers: what a write of some lanes changes -/

theorem mem_lanesOf {m : Word} {l : Nat} : l ∈ lanesOf m ↔ l < 64 ∧ bitOf m l = true := by
  simp [lanesOf]

theorem vKey_inj {g g' l l' : Nat} (hl : l < 64) (hl' : l' < 64) : vKey g l = vKey g' l' ↔ g = g' ∧ l = l' := by
  unfold vKey
  omega

theorem writeLanes_frame (reg : Nat) (f : Nat → Lane × Nat) (ls : List Nat) (r : Regs) :
    ∃ v pv, writeLanes reg f ls r = { r with v := v, pv := pv } := by
  induction ls generalizing r with
  | nil => exact ⟨r.v, r.pv, rfl⟩
  | cons l ls ih =>
    obtain ⟨v, pv, h⟩ := ih (r.setV reg l (f l).1 (f l).2)
    exact ⟨v, pv, h⟩

theorem Regs.look_setV (r : Regs) (reg : Nat) {k : Nat} (v : Lane) (p g : Nat) {l : Nat} (hl : l < 64) (hk : k < 64) :
    look 0 (r.setV reg k v p).v (vKey g l) = (if g = reg ∧ l = k then v else look 0 r.v (vKey g l))
      ∧ look 0 (r.setV reg k v p).pv (vKey g l) = if g = reg ∧ l = k then p else look 0 r.pv (vKey g l) := by
  simp only [Regs.setV, look_put, vKey_inj hl hk, and_self]

/-- After a write of the lanes in `ls`, word and mark of each lane register. -/
theorem look_writeLanes (reg : Nat) (f : Nat → Lane × Nat) {ls : List Nat} (hls : ∀ l ∈ ls, l < 64) (r : Regs) (g : Nat) {l : Nat} (hl : l < 64) :
    look 0 (writeLanes reg f ls r).v (vKey g l) = (if g = reg ∧ l ∈ ls then (f l).1 else look 0 r.v (vKey g l))
      ∧ look 0 (writeLanes reg f ls r).pv (vKey g l) = if g = reg ∧ l ∈ ls then (f l).2 else look 0 r.pv (vKey g l) := by
  induction ls generalizing r with
  | nil => simp [writeLanes]
  | cons k ks ih =>
    obtain ⟨hv, hp⟩ := ih (fun j hj => hls j (List.mem_cons_of_mem k hj)) (r.setV reg k (f k).1 (f k).2)
    obtain ⟨hv1, hp1⟩ := r.look_setV reg (f k).1 (f k).2 g hl (hls k List.mem_cons_self)
    rw [writeLanes, hv, hp, hv1, hp1]
    by_cases hg : g = reg <;> by_cases hk : l = k <;> simp [hg, hk]

theorem dropV_cases (c : Scribe) (reg : Nat) (m : Word) :
    ∃ v tags wets, c.dropV reg m = { c with wet := { c.wet with v := v, tags := tags }, ctl := { c.ctl with wets := wets } }
      ∧ ∀ k, k ≠ reg → find v k = find c.wet.v k := by
  unfold Scribe.dropV
  split
  · exact ⟨c.wet.v, c.wet.tags, c.ctl.wets, rfl, fun _ _ => rfl⟩
  · rename_i r _
    dsimp only
    split
    · obtain ⟨tags, wets, e⟩ := releaseTag_cases { c with wet := { c.wet with v := del c.wet.v reg } } r.tag
      exact ⟨_, tags, wets, e, fun k hk => find_del_ne _ hk⟩
    · exact ⟨_, c.wet.tags, c.ctl.wets, rfl, fun k hk => find_set_ne _ _ hk⟩

/-- Writing lane register `reg` in the lanes of `m`: these hold `f`, clean; the other lane words and the records of the other registers stay,
and of all else only the tags in use and WETS may change. -/
theorem setV_cases (s : State) (reg : Nat) (m : Word) (f : Nat → Lane) :
    ∃ v pv wv tags wets, s.setV reg m f = { s with me := { s.me with
        wet := { s.me.wet with v := wv, tags := tags }, ctl := { s.me.ctl with wets := wets }, r := { s.me.r with v := v, pv := pv } } }
      ∧ (∀ k, k ≠ reg → find wv k = find s.me.wet.v k)
      ∧ ∀ g l, l < 64 → look 0 v (vKey g l) = (if g = reg ∧ bitOf m l = true then f l else s.getV g l)
          ∧ look 0 pv (vKey g l) = if g = reg ∧ bitOf m l = true then 0 else look 0 s.me.r.pv (vKey g l) := by
  obtain ⟨wv, tags, wets, e, hrec⟩ := dropV_cases s.me reg m
  obtain ⟨v, pv, hframe⟩ := writeLanes_frame reg (fun l => (f l, 0)) (lanesOf m) s.me.r
  refine ⟨v, pv, wv, tags, wets, by simp only [State.setV, e, State.onR, hframe], hrec, fun g l hl => ?_⟩
  have h := look_writeLanes reg (fun l => (f l, 0)) (fun l hl => (mem_lanesOf.1 hl).1) s.me.r g hl (ls := lanesOf m)
  simp only [hframe, mem_lanesOf, hl, true_and] at h
  exact h

/-- A form that writes lanes of a register and raises nothing. -/
theorem laneGives_setV (s : State) (m : Word) (d : Nat) (f : Nat → Lane) : s.laneGives m d f (.next (s.setV d m f).advance) := by
  obtain ⟨v, pv, wv, tags, wets, e, hrec, hlook⟩ := setV_cases s d m f
  refine ⟨_, rfl, fun l hl hm => ?_, ?_, by rw [e]; rfl, by rw [e]; rfl⟩
  · obtain ⟨hv, hp⟩ := hlook d l hl
    rw [e]
    exact ⟨hv.trans (if_pos ⟨rfl, hm⟩), hp.trans (if_pos ⟨rfl, hm⟩)⟩
  · rw [e]
    refine ⟨rfl, fun a => ⟨rfl, rfl, rfl, rfl⟩, rfl, fun g l hl hout => ?_, hrec, rfl, rfl, rfl⟩
    obtain ⟨hv, hp⟩ := hlook g l hl
    exact ⟨hv.trans (if_neg hout), hp.trans (if_neg hout)⟩

/-! ## Sticky flags (R40) and stochastic states (R35) -/

theorem getLsbD_foldl_or (ls : List (Nat × LaneOut)) (a : Flags) (k : Nat) :
    (ls.foldl (fun a p => a ||| p.2.flags) a).getLsbD k = true ↔ a.getLsbD k = true ∨ ∃ p ∈ ls, p.2.flags.getLsbD k = true := by
  induction ls generalizing a with
  | nil => simp
  | cons p ps ih => simp [ih, or_assoc]

theorem getLsbD_orFlags (ls : List (Nat × LaneOut)) (k : Nat) :
    (orFlags ls).getLsbD k = true ↔ ∃ p ∈ ls, p.2.flags.getLsbD k = true := by
  simp [orFlags, getLsbD_foldl_or]

/-- Flag j is bit 16 + j of FPM. -/
theorem getLsbD_addFlags (c : Ctl) (f : Flags) {k : Nat} (hk : k < 64) :
    (c.addFlags f).fpm.getLsbD k = true ↔ c.fpm.getLsbD k = true ∨ (16 ≤ k ∧ f.getLsbD (k - 16) = true) := by
  have hword : (word (f.toNat * 2 ^ 16)).getLsbD k = (decide (16 ≤ k) && f.getLsbD (k - 16)) := by
    rw [word, BitVec.getLsbD_ofNat, Nat.mul_comm, Nat.testBit_two_pow_mul]
    simp [hk, BitVec.getLsbD]
  simp only [Ctl.addFlags, BitVec.getLsbD_or, hword, Bool.or_eq_true, Bool.and_eq_true, decide_eq_true_eq]

theorem look_putRngs (h : Nat → LaneOut) (ls : List Nat) (t : Tbl Lane) (l : Nat) :
    look 0 (putRngs (ls.map fun l => (l, h l)) t) l = if l ∈ ls then (h l).rng else look 0 t l := by
  induction ls generalizing t with
  | nil => rfl
  | cons k ks ih =>
    simp only [List.map_cons, putRngs, ih, look_put, List.mem_cons]
    by_cases hk : l = k <;> simp [hk]

theorem look_map_pair {α : Type} (d : α) (h : Nat → α) {ls : List Nat} {l : Nat} (hl : l ∈ ls) : look d (ls.map fun l => (l, h l)) l = h l := by
  induction ls with
  | nil => simp at hl
  | cons k ks ih =>
    by_cases hk : k = l
    · simp [look, hk]
    · simpa [look, hk] using ih ((List.mem_cons.1 hl).resolve_left (Ne.symm hk))

/-- R35, R40: what a form that computes lane by lane gives: words, draws and flags of the lanes of `m`. -/
theorem fpGives_runLanes (s : State) (m : Word) (d : Nat) (f : Nat → Lane → LaneOut) :
    s.fpGives m d (fun l => f l (look 0 s.me.r.rng l)) (.next (s.runLanes d m f).advance) := by
  let h := fun l => f l (look 0 s.me.r.rng l)
  let outs := (lanesOf m).map fun l => (l, h l)
  obtain ⟨v, pv, wv, tags, wets, e, hrec, hlook⟩ := setV_cases s d m fun l => (look { v := 0, rng := 0 } outs l).v
  have hrng (l : Nat) : look 0 (putRngs outs s.me.r.rng) l = if l ∈ lanesOf m then (h l).rng else look 0 s.me.r.rng l :=
    look_putRngs h (lanesOf m) s.me.r.rng l
  have hrun : s.runLanes d m f = ((s.setV d m fun l => (look { v := 0, rng := 0 } outs l).v).onR
      fun r => { r with rng := putRngs outs r.rng }).addFlags (orFlags outs) := rfl
  rw [hrun, e]
  refine ⟨_, rfl, fun l hl hm => ?_, fun k hk => ?_, ?_, rfl, rfl⟩
  · have hmem : l ∈ lanesOf m := mem_lanesOf.2 ⟨hl, hm⟩
    obtain ⟨hv, hp⟩ := hlook d l hl
    rw [if_pos ⟨rfl, hm⟩] at hv hp
    exact ⟨hv.trans (congrArg LaneOut.v (look_map_pair _ h hmem)), hp, (hrng l).trans (if_pos hmem)⟩
  · refine (getLsbD_addFlags _ (orFlags outs) hk).trans (or_congr_right (and_congr_right fun _ => ?_))
    rw [getLsbD_orFlags]
    constructor
    · rintro ⟨p, hp, hflag⟩
      obtain ⟨l, hl, rfl⟩ := List.mem_map.1 hp
      obtain ⟨hlt, hm⟩ := mem_lanesOf.1 hl
      exact ⟨l, hlt, hm, hflag⟩
    · rintro ⟨l, hlt, hm, hflag⟩
      exact ⟨(l, h l), List.mem_map.2 ⟨l, mem_lanesOf.2 ⟨hlt, hm⟩, rfl⟩, hflag⟩
  · refine ⟨rfl, fun a => ⟨rfl, rfl, rfl, rfl⟩, rfl, fun g l hl hout => ?_, hrec, rfl, rfl, rfl, fun l hm => ?_⟩
    · obtain ⟨hv, hp⟩ := hlook g l hl
      exact ⟨hv.trans (if_neg hout), hp.trans (if_neg hout)⟩
    · exact (hrng l).trans (if_neg fun hmem => by simp [(mem_lanesOf.1 hmem).2] at hm)

end Sys2Proof.Machine
end

section
/-! PROOF. The floating-point lane forms on dry registers, minima and maxima (R27, R123 to R127); O34. -/

namespace Sys2Proof.Machine

open Sys2Proof

/-! ## Forms on dry registers -/

theorem vdryAll_cons_ok (s : State) (m : Word) (r : Nat) (rs : List Nat) :
    s.vdryAll m (r :: rs) = .ok () ↔ s.vdry r m = .ok () ∧ s.vdryAll m rs = .ok () := by
  rw [State.vdryAll]
  cases s.vdry r m <;> simp

/-- A register that is dry where the word is active carries no record there, so no form takes a wet step on it. -/
theorem touchedByWet_of_vdry (s : State) {r : Nat} {m : Word} (h : s.vdry r m = .ok ()) : s.me.touchedByWet r m = false := by
  unfold Scribe.touchedByWet
  cases hw : s.me.wetV r with
  | none => rfl
  | some q =>
    by_cases hm : q.mask &&& m = 0
    · simp [hm]
    · simp only [State.vdry, hw, hm, ne_eq, not_false_eq_true, if_true] at h
      unfold Scribe.needDry at h
      split at h <;> simp [trap, parkOn] at h

section DryForms

variable {s : State} {g : BitVec 4} {d a b : BitVec 6}

theorem fp1_gives (h : s.vdry (s.vr a.toNat) (s.active g) = .ok ()) (f : Lane → Lane → LaneOut) :
    s.fpGives (s.active g) (s.vr d.toNat) (fun l => f (s.getV (s.vr a.toNat) l) (look 0 s.me.r.rng l)) (finish s (s.fp1 g d a f)) := by
  simp only [State.fp1, h, finish]
  exact fpGives_runLanes s _ _ fun l st => f (s.getV (s.vr a.toNat) l) st

theorem fp2_gives (h : s.vdryAll (s.active g) [s.vr a.toNat, s.vr b.toNat] = .ok ()) (f : Lane → Lane → Lane → LaneOut) :
    s.fpGives (s.active g) (s.vr d.toNat) (fun l => f (s.getV (s.vr a.toNat) l) (s.getV (s.vr b.toNat) l) (look 0 s.me.r.rng l))
      (finish s (s.fp2 g d a b f)) := by
  simp only [State.fp2, h, finish]
  exact fpGives_runLanes s _ _ fun l st => f (s.getV (s.vr a.toNat) l) (s.getV (s.vr b.toNat) l) st

theorem fp3_gives (h : s.vdryAll (s.active g) [s.vr a.toNat, s.vr b.toNat, s.vr d.toNat] = .ok ()) (f : Lane → Lane → Lane → Lane → LaneOut) :
    s.fpGives (s.active g) (s.vr d.toNat)
      (fun l => f (s.getV (s.vr a.toNat) l) (s.getV (s.vr b.toNat) l) (s.getV (s.vr d.toNat) l) (look 0 s.me.r.rng l))
      (finish s (s.fp3 g d a b f)) := by
  simp only [State.fp3, h, finish]
  exact fpGives_runLanes s _ _ fun l st => f (s.getV (s.vr a.toNat) l) (s.getV (s.vr b.toNat) l) (s.getV (s.vr d.toNat) l) st

theorem lane1_gives (h : s.vdry (s.vr a.toNat) (s.active g) = .ok ()) (f : Lane → Lane) :
    s.laneGives (s.active g) (s.vr d.toNat) (fun l => f (s.getV (s.vr a.toNat) l)) (finish s (s.lane1 g d a f)) := by
  have hall : s.vdryAll (s.active g) [s.vr a.toNat] = .ok () := (vdryAll_cons_ok s _ _ []).2 ⟨h, rfl⟩
  simp only [State.lane1, hall, finish]
  exact laneGives_setV s _ _ _

/-! ## Packed forms: the low half, then the high half with the state it leaves (R116) -/

/-- A form of 16-bit numbers on both halves of a word; `o` gets the way to take the half out of an operand. -/
def packPair (o : (Nat → Nat) → Lane → LaneOut) (st : Lane) : LaneOut :=
  let y := o (fun n => n % 2 ^ 16) st
  let z := o (fun n => n / 2 ^ 16) y.rng
  { v := BitVec.ofNat 32 (y.v.toNat % 2 ^ 16 + z.v.toNat % 2 ^ 16 * 2 ^ 16), flags := y.flags ||| z.flags, rng := z.rng }

theorem half_low (x : Lane) : half false x = x.toNat % 2 ^ 16 := by simp [half, bits]

theorem half_high (x : Lane) : half true x = x.toNat / 2 ^ 16 := by
  have := x.isLt
  simp only [half, bits, if_true]
  omega

theorem packHalves_half (o : (Lane → Nat) → Lane → LaneOut) (st : Lane) :
    packHalves (fun hi t => o (half hi) t) st = packPair (fun e t => o (fun x => e x.toNat) t) st := by
  rw [packHalves, funext half_low, funext half_high]
  rfl

theorem packed1_gives (h : s.vdry (s.vr a.toNat) (s.active g) = .ok ()) (f : Nat → Lane → LaneOut) :
    s.fpGives (s.active g) (s.vr d.toNat)
      (fun l => packPair (fun e t => f (e (s.getV (s.vr a.toNat) l).toNat) t) (look 0 s.me.r.rng l)) (finish s (s.packed1 g d a f)) := by
  rw [← funext fun l => packHalves_half (fun e t => f (e (s.getV (s.vr a.toNat) l)) t) (look 0 s.me.r.rng l)]
  exact fp1_gives h _

theorem packed2_gives (h : s.vdryAll (s.active g) [s.vr a.toNat, s.vr b.toNat] = .ok ()) (f : Nat → Nat → Lane → LaneOut) :
    s.fpGives (s.active g) (s.vr d.toNat)
      (fun l => packPair (fun e t => f (e (s.getV (s.vr a.toNat) l).toNat) (e (s.getV (s.vr b.toNat) l).toNat) t) (look 0 s.me.r.rng l))
      (finish s (s.packed2 g d a b f)) := by
  rw [← funext fun l => packHalves_half (fun e t => f (e (s.getV (s.vr a.toNat) l)) (e (s.getV (s.vr b.toNat) l)) t) (look 0 s.me.r.rng l)]
  exact fp2_gives h _

/-! ## The forms that may take a wet step (Table 07-2), on dry registers -/

theorem fpAddWord_gives (h : s.vdryAll (s.active g) [s.vr a.toNat, s.vr b.toNat] = .ok ()) (neg : Bool) :
    s.fpGives (s.active g) (s.vr d.toNat)
      (fun l => fpAdd s.me.ctl .f32 neg (s.getV (s.vr a.toNat) l).toNat (s.getV (s.vr b.toNat) l).toNat (look 0 s.me.r.rng l))
      (finish s (s.fpAddWord neg g d a b)) := by
  obtain ⟨ha, hb, -⟩ : _ ∧ _ ∧ _ := by simpa only [vdryAll_cons_ok] using h
  have hdry : s.fpAddWord neg g d a b = s.fp2 g d a b fun x y st => fpAdd s.me.ctl .f32 neg x.toNat y.toNat st := by
    simp [State.fpAddWord, touchedByWet_of_vdry s ha, touchedByWet_of_vdry s hb]
  rw [hdry]
  exact fp2_gives h _

theorem fpMulWord_gives (h : s.vdryAll (s.active g) [s.vr a.toNat, s.vr b.toNat] = .ok ()) :
    s.fpGives (s.active g) (s.vr d.toNat)
      (fun l => fpMul s.me.ctl .f32 (s.getV (s.vr a.toNat) l).toNat (s.getV (s.vr b.toNat) l).toNat (look 0 s.me.r.rng l))
      (finish s (s.fpMulWord g d a b)) := by
  obtain ⟨ha, hb, -⟩ : _ ∧ _ ∧ _ := by simpa only [vdryAll_cons_ok] using h
  have hdry : s.fpMulWord g d a b = s.fp2 g d a b fun x y st => fpMul s.me.ctl .f32 x.toNat y.toNat st := by
    simp [State.fpMulWord, touchedByWet_of_vdry s ha, touchedByWet_of_vdry s hb]
  rw [hdry]
  exact fp2_gives h _

theorem fneg_gives (h : s.vdry (s.vr a.toNat) (s.active g) = .ok ()) :
    s.fpGives (s.active g) (s.vr d.toNat) (fun l => fpSign s.me.ctl .f32 true (s.getV (s.vr a.toNat) l).toNat (look 0 s.me.r.rng l))
      (finish s (s.fneg g d a)) := by
  have hdry : s.fneg g d a = s.fp1 g d a fun x st => fpSign s.me.ctl .f32 true x.toNat st := by
    simp [State.fneg, touchedByWet_of_vdry s h]
  rw [hdry]
  exact fp1_gives h _

theorem fma_of_dry (h : s.vdryAll (s.active g) [s.vr a.toNat, s.vr b.toNat, s.vr d.toNat] = .ok ()) (f : BitVec 2) :
    s.fma g d a b f = s.fused g d a b f false false := by
  obtain ⟨ha, hb, hd, -⟩ : _ ∧ _ ∧ _ ∧ _ := by simpa only [vdryAll_cons_ok] using h
  simp [State.fma, touchedByWet_of_vdry s ha, touchedByWet_of_vdry s hb, touchedByWet_of_vdry s hd]

theorem fused_f32_gives (h : s.vdryAll (s.active g) [s.vr a.toNat, s.vr b.toNat, s.vr d.toNat] = .ok ()) (negP negZ : Bool) :
    s.fpGives (s.active g) (s.vr d.toNat)
      (fun l => fpFma s.me.ctl .f32 negP negZ (s.getV (s.vr a.toNat) l).toNat (s.getV (s.vr b.toNat) l).toNat
        (s.getV (s.vr d.toNat) l).toNat (look 0 s.me.r.rng l))
      (finish s (s.fused g d a b 0 negP negZ)) := by
  rw [State.fused, if_pos rfl]
  exact fp3_gives h fun x y z st => fpFma s.me.ctl .f32 negP negZ x.toNat y.toNat z.toNat st

theorem fused_packed_gives (h : s.vdryAll (s.active g) [s.vr a.toNat, s.vr b.toNat, s.vr d.toNat] = .ok ()) {f : BitVec 2} (hf : f ≠ 0)
    (negP negZ : Bool) :
    s.fpGives (s.active g) (s.vr d.toNat)
      (fun l => packPair (fun e t => fpFma s.me.ctl (if f = 2 then .bf16 else .f16) negP negZ (e (s.getV (s.vr a.toNat) l).toNat)
        (e (s.getV (s.vr b.toNat) l).toNat) (e (s.getV (s.vr d.toNat) l).toNat) t) (look 0 s.me.r.rng l))
      (finish s (s.fused g d a b f negP negZ)) := by
  rw [State.fused, if_neg hf, ← funext fun l => packHalves_half (fun e t => fpFma s.me.ctl (if f = 2 then .bf16 else .f16) negP negZ
    (e (s.getV (s.vr a.toNat) l)) (e (s.getV (s.vr b.toNat) l)) (e (s.getV (s.vr d.toNat) l)) t) (look 0 s.me.r.rng l)]
  exact fp3_gives h _

end DryForms

/-! ## Minima and maxima (R27) -/

theorem Val.isNan_iff {x : Val} : x.isNan = true ↔ x = .nan := by cases x <;> simp [Val.isNan]

theorem fminmax_of_nan (up : Bool) {f : Fmt} {x y : Nat} (hx : (fval f x).isNan = true) (hy : (fval f y).isNan = false) :
    fminmax up f x y = y ∧ fminmax up f y x = y := by
  rw [Val.isNan_iff] at hx
  unfold fminmax
  cases hv : fval f y <;> simp_all [Val.isNan]

theorem fminmax_of_nans (up : Bool) {f : Fmt} {x y : Nat} (hx : (fval f x).isNan = true) (hy : (fval f y).isNan = true) :
    fminmax up f x y = f.canon := by
  rw [Val.isNan_iff] at hx hy
  simp [fminmax, hx, hy]

/-- Two numbers go by their order, and by the sign of the first when they are equal. -/
theorem fminmax_of_numbers (up : Bool) {f : Fmt} {x y : Nat} (hx : (fval f x).isNan = false) (hy : (fval f y).isNan = false) :
    fminmax up f x y = if ((if (fval f x).cmp (fval f y) = 0 then bits x (f.width - 1) 1 = 1 else (fval f x).cmp (fval f y) < 0) ↔ up = true)
      then y else x := by
  unfold fminmax
  cases hv : fval f x <;> cases hw : fval f y <;> simp_all [Val.isNan]

theorem sign_eq_ite (d : Int) : d.sign = if d < 0 then -1 else if d = 0 then 0 else 1 := by
  obtain h | rfl | h := Int.lt_trichotomy d 0
  · rw [if_pos h, Int.sign_eq_neg_one_of_neg h]
  · rfl
  · rw [if_neg (by omega), if_neg (by omega), Int.sign_eq_one_of_pos h]

theorem Val.cmp_fin (n n' : Bool) (m m' : Nat) (e e' : Int) (st st' : Bool) :
    (Val.fin n m e st).cmp (.fin n' m' e' st') = (sumAt (min e e') [.fin n m e st] - sumAt (min e e') [.fin n' m' e' st']).sign :=
  (sign_eq_ite _).symm

/-- Exchanging the operands of a comparison turns its sign over. -/
theorem Val.cmp_swap {x y : Val} (hx : x.isNan = false) (hy : y.isNan = false) : y.cmp x = -x.cmp y := by
  cases x with
  | nan => cases hx
  | inf n => cases y with
    | nan => cases hy
    | inf n' => cases n <;> cases n' <;> rfl
    | fin n' m' e' st' => cases n <;> rfl
  | fin n m e st => cases y with
    | nan => cases hy
    | inf n' => cases n' <;> rfl
    | fin n' m' e' st' => rw [Val.cmp_fin, Val.cmp_fin, ← Int.sign_neg, Int.neg_sub, Int.min_comm]

theorem fminmax_of_lt (up : Bool) {f : Fmt} {x y : Nat} (hx : (fval f x).isNan = false) (hy : (fval f y).isNan = false)
    (hlt : (fval f x).cmp (fval f y) < 0) :
    fminmax up f x y = (if up then y else x) ∧ fminmax up f y x = if up then y else x := by
  have hgt : 0 < (fval f y).cmp (fval f x) := by rw [Val.cmp_swap hx hy]; omega
  have hne : (fval f x).cmp (fval f y) ≠ 0 := by omega
  have hne' : (fval f y).cmp (fval f x) ≠ 0 := by omega
  have hnlt : ¬ (fval f y).cmp (fval f x) < 0 := by omega
  simp only [fminmax_of_numbers up hx hy, fminmax_of_numbers up hy hx, hne, hne', hlt, hnlt, if_false, true_iff, false_iff, true_and]
  cases up <;> rfl

/-- -0 below +0. -/
theorem fminmax_zeros (up : Bool) (f : Fmt) :
    fminmax up f (2 ^ (f.width - 1)) 0 = (if up then 0 else 2 ^ (f.width - 1))
      ∧ fminmax up f 0 (2 ^ (f.width - 1)) = if up then 0 else 2 ^ (f.width - 1) := by
  cases f <;> cases up <;> decide

/-- Settles O34: on dry registers no form takes a wet step, so each runs lane by lane (R35, R40), packed ones half by half (R116); minima and
maxima by the order of the values (R27). -/
theorem floatArithmetic : Obligations.FloatArithmetic := by
  refine ⟨?_, ?_⟩
  · intro s g d a b p r f m k A B D st gives h v w lo hi pair fma hab
    obtain ⟨ha, -⟩ := (vdryAll_cons_ok s _ _ _).1 hab
    refine ⟨fpAddWord_gives hab false, fpAddWord_gives hab true, fpMulWord_gives hab, fp2_gives hab _, fp2_gives hab _, fp1_gives ha _,
      fneg_gives ha, fp1_gives ha _, packed2_gives hab _, packed2_gives hab _, packed2_gives hab _, packed2_gives hab _,
      packed2_gives hab _, packed1_gives ha _, packed1_gives ha _, packed1_gives ha _, lane1_gives ha _, packed1_gives ha _,
      fun habd => ⟨fp3_gives habd _, ?_, fun hf => ⟨?_, fused_packed_gives habd hf false true, fused_packed_gives habd hf true false⟩⟩⟩
    · rintro rfl
      refine ⟨?_, fused_f32_gives habd false true, fused_f32_gives habd true false⟩
      change s.fpGives _ _ _ (finish s (s.fma g d a b 0))
      rw [fma_of_dry habd]
      exact fused_f32_gives habd false false
    · change s.fpGives _ _ _ (finish s (s.fma g d a b f))
      rw [fma_of_dry habd]
      exact fused_packed_gives habd hf false false
  · intro k q x y t up n
    refine ⟨rfl, rfl, fminmax_of_nans up, fminmax_of_nan up, fun hx hy hor => ?_⟩
    obtain hlt | ⟨rfl, rfl⟩ := hor
    · exact fminmax_of_lt up hx hy hlt
    · exact fminmax_zeros up q

end Sys2Proof.Machine
end

section
/-! PROOF. The bits of a memory read piece by piece (R47). -/

namespace Sys2Proof.Machine

open Sys2Proof

theorem testBit_readBytes (m : List Host.Cell) (n a i : Nat) :
    (readBytes m a n).testBit i = (decide (i < 8 * n) && (readByte m (a + i / 8)).getLsbD (i % 8)) := by
  induction n generalizing a i with
  | zero => simp [readBytes]
  | succ n ih =>
    rw [readBytes, Nat.add_comm, show (256 : Nat) = 2 ^ 8 from rfl, Nat.testBit_two_pow_mul_add _ (readByte m a).isLt, ih]
    by_cases hi : i < 8
    · have hdiv : i / 8 = 0 := by omega
      have hmod : i % 8 = i := by omega
      have hlt : i < 8 * (n + 1) := by omega
      simp [hi, hdiv, hmod, hlt, BitVec.getLsbD]
    · have hdiv : a + 1 + (i - 8) / 8 = a + i / 8 := by omega
      have hmod : (i - 8) % 8 = i % 8 := by omega
      have hlt : i - 8 < 8 * n ↔ i < 8 * (n + 1) := by omega
      simp only [hi, hdiv, hmod, hlt, if_false]

theorem testBit_readBits (m : List Host.Cell) (a w i : Nat) :
    (readBits m a w).testBit i = (decide (i < w) && (readByte m ((a + i) / 8)).getLsbD ((a + i) % 8)) := by
  rw [readBits, Nat.testBit_mod_two_pow, Nat.testBit_div_two_pow, testBit_readBytes]
  have hcover := cover_le a w
  have hdiv : a / 8 + (i + a % 8) / 8 = (a + i) / 8 := by omega
  have hmod : (i + a % 8) % 8 = (a + i) % 8 := by omega
  rw [hdiv, hmod]
  by_cases hi : i < w
  · have hlt : i + a % 8 < 8 * coverBytes a w := by omega
    simp [hi, hlt]
  · simp [hi]

/-- A piece of the bits read at an address is what is read at the piece's own address. -/
theorem bits_readBits (m : List Host.Cell) (a : Nat) {w i k : Nat} (h : i + k ≤ w) : bits (readBits m a w) i k = readBits m (a + i) k := by
  refine Nat.eq_of_testBit_eq fun j => ?_
  rw [bits, Nat.testBit_mod_two_pow, Nat.testBit_div_two_pow, testBit_readBits, testBit_readBits]
  by_cases hj : j < k
  · have hlt : j + i < w := by omega
    simp [hj, hlt, Nat.add_assoc, Nat.add_comm i j]
  · simp [hj]

end Sys2Proof.Machine
end

section
/-! PROOF. Steps of i8 matrix loops, and the end of a loop (R42, R208, R216, R221); O48. -/

namespace Sys2Proof.Machine

open Sys2Proof

/-! ## Products of an integer step (R42) -/

/-- The product of A(m, κ) and B(κ, n) of a step of an integer loop. -/
def Loop.product (l : Loop) (x : StepIn) (m n κ : Nat) : Int := nibInt l.afmt (l.aElem x m κ) * nibInt l.bfmt (l.bElem x κ n)

theorem accInt_eq_add (acc : Lane) (ps : List Int) : accInt acc ps = acc + BitVec.ofInt 32 ps.sum := by
  rw [accInt, BitVec.ofInt_add, BitVec.ofInt_toInt, List.sum_eq_foldl]

theorem Loop.slice_int (l : Loop) (hint : nibClass l.afmt = 1) (x : StepIn) (m n j : Nat) (acc : Lane × Flags) :
    l.slice x m n j acc = (acc.1 + BitVec.ofInt 32 ((((List.range l.k).map (j * l.k + ·)).map (l.product x m n)).sum), acc.2) := by
  simp only [Loop.slice, hint, if_true, accInt_eq_add, Nat.add_comm _ (j * l.k)]
  rfl

/-- The slices of an integer step, in K order, add all products of its depth modulo 2^32. -/
theorem Loop.elem_int (l : Loop) (hint : nibClass l.afmt = 1) (x : StepIn) (m n : Nat) (acc : Lane) :
    l.elem x m n acc = (acc + BitVec.ofInt 32 (((List.range (l.ks / l.k * l.k)).map (l.product x m n)).sum), 0) := by
  unfold Loop.elem
  generalize l.ks / l.k = slices
  induction slices with
  | zero => simp
  | succ j ih =>
    rw [List.range_succ, List.foldl_append, ih, List.foldl_cons, List.foldl_nil, l.slice_int hint, Nat.succ_mul, List.range_add, List.map_append,
      List.sum_append, BitVec.ofInt_add, BitVec.add_assoc]

/-! ## The tile after a step (R208) -/

theorem Loop.update_frame (l : Loop) (x : StepIn) (lane : Nat) (es : List Nat) (r : Regs × Flags) :
    ∃ z, (l.update x lane es r).1 = { r.1 with z := z } := by
  induction es generalizing r with
  | nil => exact ⟨r.1.z, rfl⟩
  | cons e es ih => exact ih _

theorem eq_zKey_iff {q tile lane e : Nat} (he : e < 64) : q = zKey tile lane e ↔ q / 64 = 64 * tile + lane ∧ q % 64 = e := by
  unfold zKey
  omega

/-- A step updates each listed element of the lane's tile once, from its own old value, and no other word of a tile. -/
theorem Loop.look_update (l : Loop) (x : StepIn) (lane : Nat) {es : List Nat} (hes : ∀ e ∈ es, e < 64) (hnd : es.Nodup) (r : Regs × Flags)
    (q : Nat) :
    look 0 (l.update x lane es r).1.z q = if q / 64 = 64 * l.tile + lane ∧ q % 64 ∈ es
      then (l.elem x (q % 64 / 8) (q % 64 % 8) (look 0 r.1.z q)).1 else look 0 r.1.z q := by
  induction es generalizing r with
  | nil => simp [Loop.update]
  | cons e es ih =>
    obtain ⟨hout, hnd⟩ := List.nodup_cons.1 hnd
    have hkey := eq_zKey_iff (q := q) (tile := l.tile) (lane := lane) (hes e List.mem_cons_self)
    rw [Loop.update, ih (fun e' he' => hes e' (List.mem_cons_of_mem e he')) hnd]
    simp only [Regs.setZ, look_put, List.mem_cons]
    by_cases hq : q = zKey l.tile lane e
    · obtain ⟨hcell, helem⟩ := hkey.1 hq
      simp [← hq, hcell, helem, hout]
    · by_cases hcell : q / 64 = 64 * l.tile + lane
      · have hne : q % 64 ≠ e := fun h => hq (hkey.2 ⟨hcell, h⟩)
        simp [hq, hcell, hne]
      · simp [hq, hcell]

/-! ## What a step reads from the lane's own cell (R211, R216) -/

theorem stepIn_a_of_cell (s : State) {l : Loop} (h : l.aRegs = false) (c : Scribe) (lane st : Nat) (chunk : Option (Nat × Bool)) :
    (s.stepIn l c lane st chunk).a = readBits s.plane (planeAddr (c.at_.peOf lane) (l.aDepth + 512 * st * l.ia)) (512 * l.linesA) := by
  simp [State.stepIn, h]

theorem stepIn_b_of_cell (s : State) {l : Loop} (h : l.bsrc = 0) (c : Scribe) (lane st : Nat) (chunk : Option (Nat × Bool)) :
    (s.stepIn l c lane st chunk).b = readBits s.plane (planeAddr (c.at_.peOf lane) (l.bDepth + 512 * st * l.ib)) (512 * l.linesB) := by
  simp [State.stepIn, Loop.bPe, h]

/-! ## The state after a step -/

theorem State.scribe_of_own (s : State) {id : BitVec 14} (hid : id = s.me.at_.id) (hlife : s.me.run.life ≠ .free) : s.scribe id = some s.me :=
  if_pos ⟨hid.symm, hlife⟩

theorem drawMatrix_cases (s : State) (l : Loop) (lane : Nat) : ∃ islands, s.drawMatrix l lane = { s with islands := islands } := by
  unfold State.drawMatrix
  split
  · exact ⟨s.islands, rfl⟩
  · exact ⟨_, rfl⟩

/-- The loop n of the issuing scribe runs a step in a lane: its count there goes up, and of the scribe only tile words and their marks change. -/
theorem laneStep_of_own (s : State) {n : Nat} {l : Loop} (hfind : find s.loops n = some l) (hsid : l.sid = s.me.at_.id)
    (hlife : s.me.run.life ≠ .free) (lane : Nat) :
    ∃ z zp h, s.laneStep n lane = { s with me := { s.me with r := { s.me.r with z := z, zPoison := zp } }, loops := set s.loops n h }
      ∧ h.progress = put 0 l.progress lane (l.ran lane + 1)
      ∧ z = (l.update (s.stepIn l s.me lane (l.ran lane) ((s.stepChunk l (l.ran lane)).getD none)) lane (List.range 64) (s.me.r, 0)).1.z := by
  obtain ⟨z, hz⟩ := l.update_frame (s.stepIn l s.me lane (l.ran lane) ((s.stepChunk l (l.ran lane)).getD none)) lane (List.range 64) (s.me.r, 0)
  simp only [State.laneStep, hfind, s.scribe_of_own hsid hlife, hz, State.setScribe, hlife, ne_eq, not_false_eq_true, and_self, if_true]
  split
  · exact ⟨z, _, _, rfl, rfl, rfl⟩
  · exact ⟨z, s.me.r.zPoison, _, rfl, rfl, rfl⟩

theorem find_map_values {α : Type} (f : α → α) (t : Tbl α) (n : Nat) : find (t.map fun q => (q.1, f q.2)) n = (find t n).map f := by
  induction t with
  | nil => rfl
  | cons q t ih =>
    obtain ⟨k, v⟩ := q
    by_cases hk : k = n <;> simp [find, hk, ih]

theorem mapScribes_keeps (s : State) (f : Scribe → Scribe) (hf : ∀ c, (f c).r = c.r ∧ (f c).ctl = c.ctl) :
    (s.mapScribes f).me.r = s.me.r ∧ (s.mapScribes f).me.ctl = s.me.ctl := by
  simp only [State.mapScribes]
  split
  · exact ⟨rfl, rfl⟩
  · exact hf s.me

/-- Releasing a latch changes no register, no memory and no count of steps. -/
theorem freeLatch_keeps (s : State) {n : Nat} {l : Loop} (hfind : find s.loops n = some l) :
    s.sameMemory (s.freeLatch n) ∧ (s.freeLatch n).lines = s.lines ∧ (s.freeLatch n).me.r = s.me.r ∧ (s.freeLatch n).me.ctl = s.me.ctl
      ∧ ∃ h, find (s.freeLatch n).loops n = some h ∧ h.progress = l.progress := by
  simp only [State.freeLatch, hfind]
  split
  · obtain ⟨hr, hctl⟩ := mapScribes_keeps { s with loops := s.loops.map fun q => (q.1, if q.2.sid = l.sid then { q.2 with frees := false } else q.2) }
      (fun c => if c.at_.id = l.sid then { c with run := { c.run with latch := none } } else c) (fun c => by split <;> exact ⟨rfl, rfl⟩)
    refine ⟨fun a => ⟨rfl, rfl, rfl, rfl⟩, rfl, hr, hctl, { l with frees := false }, ?_, rfl⟩
    rw [State.mapScribes, find_map_values (fun q : Loop => if q.sid = l.sid then { q with frees := false } else q), hfind]
    simp
  · exact ⟨fun a => ⟨rfl, rfl, rfl, rfl⟩, rfl, rfl, rfl, l, hfind, rfl⟩

/-- A step of the issuing scribe's loop whose lanes do not share the bus is the step of that lane alone. -/
theorem exec_loopStep_of_own (s : State) {n lane : Nat} {l : Loop} (hfind : find s.loops n = some l) (hsid : l.sid = s.me.at_.id)
    (hlife : s.me.run.life ≠ .free) (hready : s.stepReady n l s.me lane = true) (hb : l.bsrc = 0) :
    exec (.loopStep n lane) s = .next (((s.drawMatrix l lane).laneStep n lane).freeLatch n) := by
  simp [execLoopStep, hfind, s.scribe_of_own hsid hlife, event, hready, Loop.together, hb, State.lanesStep]

/-! ## The i8 dot product -/

theorem Loop.ks_of_i8 {l : Loop} (ha : l.afmt = 0) (hb : l.bfmt = 0) : l.ks = 8 ∧ l.ks / l.k * l.k = 8 ∧ l.linesA = 1 ∧ l.linesB = 1 := by
  simp [Loop.ks, Loop.k, Loop.linesA, Loop.linesB, ha, hb, nibKs, nibK, nibBits]

/-- R211: element (m, κ) of an i8 block of A lies 8·(8·κ + m) bits into the block, and so does element (κ, n) of B at (n, κ). -/
theorem Loop.product_of_i8 {l : Loop} (ha : l.afmt = 0) (hb : l.bfmt = 0) {x : StepIn} {mem : List Host.Cell} {a b : Nat}
    (hxa : x.a = readBits mem a 512) (hxb : x.b = readBits mem b 512) {i j κ : Nat} (hi : i < 8) (hj : j < 8) (hκ : κ < 8) :
    l.product x i j κ = signed 8 (readBits mem (a + 8 * (8 * κ + i)) 8) * signed 8 (readBits mem (b + 8 * (8 * κ + j)) 8) := by
  simp only [Loop.product, Loop.aElem, Loop.bElem, ha, hb, nibInt, nibBits, hxa, hxb, if_true]
  rw [bits_readBits mem a (by omega), bits_readBits mem b (by omega)]

theorem Loop.look_update_i8 {l : Loop} (ha : l.afmt = 0) (hb : l.bfmt = 0) (x : StepIn) (lane : Nat) (r : Regs) {i j : Nat} (hi : i < 8)
    (hj : j < 8) :
    look 0 (l.update x lane (List.range 64) (r, 0)).1.z (zKey l.tile lane (8 * i + j))
      = look 0 r.z (zKey l.tile lane (8 * i + j)) + BitVec.ofInt 32 (((List.range 8).map (l.product x i j)).sum) := by
  have hint : nibClass l.afmt = 1 := by rw [ha]; rfl
  obtain ⟨hcell, helem⟩ := (eq_zKey_iff (q := zKey l.tile lane (8 * i + j)) (by omega)).1 rfl
  have hrow : (8 * i + j) / 8 = i := by omega
  have hcol : (8 * i + j) % 8 = j := by omega
  obtain ⟨-, hdepth, -⟩ := Loop.ks_of_i8 ha hb
  rw [l.look_update x lane (fun e he => List.mem_range.1 he) List.nodup_range, helem, if_pos ⟨hcell, List.mem_range.2 (by omega)⟩,
    l.elem_int hint, hdepth, hrow, hcol]

/-! ## The end of a loop (R221, R40) -/

theorem exec_loopCompletion_of_own (s : State) {n : Nat} {l : Loop} (hfind : find s.loops n = some l) (hsid : l.sid = s.me.at_.id)
    (hlife : s.me.run.life ≠ .free) (hdone : ∀ k, k < 64 → bitOf l.lanes k = true → l.ran k = l.steps) (hb : l.bsrc ≠ 2) :
    exec (.loopCompletion n) s = .next { s with me := s.me.loopDone l, loops := del s.loops n } := by
  have hall : (lanesOf l.lanes).all (fun k => l.ran k = l.steps) = true := by
    simpa [List.all_eq_true, mem_lanesOf] using hdone
  have hid : (s.me.loopDone l).at_ = s.me.at_ := by simp only [Scribe.loopDone]; split <;> rfl
  simp [execLoopCompletion, hfind, s.scribe_of_own hsid hlife, event, hall, State.dropChunks, hb, State.setScribe, hid, hlife]

theorem Scribe.loopDone_r (c : Scribe) (l : Loop) : (c.loopDone l).r = c.r := by
  simp only [Scribe.loopDone]
  split <;> rfl

theorem Ctl.addFlags_zero (c : Ctl) : c.addFlags 0 = c := by simp [Ctl.addFlags, word]

/-- A batch whose loops raised nothing leaves the control registers alone as it completes. -/
theorem Scribe.loopDone_ctl (c : Scribe) {l : Loop} (hnv : l.nv = false) (hovf : l.ovf = false) (hflags : look 0 c.run.batchFlags l.batch = 0) :
    (c.loopDone l).ctl = c.ctl := by
  simp only [Scribe.loopDone]
  split
  · refine Eq.trans (congrArg c.ctl.addFlags ?_) c.ctl.addFlags_zero
    simp only [look_put_self, hflags, hnv, hovf]
    rfl
  · rfl

theorem Scribe.loopDone_batches (c : Scribe) {l : Loop} (hopen : l.batch ∉ c.run.closed) :
    look 0 (c.loopDone l).run.batches l.batch = look 0 c.run.batches l.batch - 1 := by
  simp [Scribe.loopDone, hopen]

theorem Scribe.loopDone_closed (c : Scribe) {l : Loop} (hclosed : l.batch ∈ c.run.closed) (hlast : look 0 c.run.batches l.batch = 1) :
    l.batch ∉ (c.loopDone l).run.closed := by
  simp [Scribe.loopDone, Scribe.batchDone, hclosed, hlast]

/-- Settles O48: a step runs its lane alone and updates each element once (R208, R216), adding the products of the two slices of an i8 step
(R42), whose operands are pieces of one block each (R211); the loop's end takes it from its batch (R221). -/
theorem loopSteps : Obligations.LoopSteps := by
  intro s n lane l hfind hsid hlife p at_ A B
  refine ⟨fun hready hb hregs hafmt hbfmt _ => ?_, fun hdone hb => ?_⟩
  · obtain ⟨islands, hdraw⟩ := drawMatrix_cases s l lane
    obtain ⟨z, zp, h, hstep, hprogress, hz⟩ := laneStep_of_own { s with islands := islands } hfind hsid hlife lane
    obtain ⟨hmem, hlines, hr, hctl, h', hfind', hprogress'⟩ := freeLatch_keeps
      { s with me := { s.me with r := { s.me.r with z := z, zPoison := zp } }, loops := set s.loops n h, islands := islands } (find_set_self s.loops n h)
    rw [hprogress] at hprogress'
    rw [exec_loopStep_of_own s hfind hsid hlife hready hb, hdraw, hstep]
    refine ⟨_, h', rfl, hfind', ?_, fun j hj => ?_, hmem, hlines, by rw [hr], hctl, fun i j hi hj => ?_, fun q hq => ?_⟩
    · rw [Loop.ran, hprogress', look_put_self]
    · rw [Loop.ran, hprogress', look_put_ne 0 _ _ hj, Loop.ran]
    · obtain ⟨-, -, hlinesA, hlinesB⟩ := Loop.ks_of_i8 hafmt hbfmt
      rw [hr]
      refine (congrArg (look 0 · _) hz).trans ((Loop.look_update_i8 hafmt hbfmt _ lane s.me.r hi hj).trans ?_)
      congr 3
      refine List.map_congr_left fun κ hκ => Loop.product_of_i8 hafmt hbfmt ?_ ?_ hi hj (List.mem_range.1 hκ)
      · rw [stepIn_a_of_cell _ hregs, hlinesA]
        rfl
      · rw [stepIn_b_of_cell _ hb, hlinesB]
        rfl
    · rw [hr]
      refine (congrArg (look 0 · q) hz).trans ?_
      rw [l.look_update _ lane (fun e he => List.mem_range.1 he) List.nodup_range, if_neg fun hc => hq hc.1]
  · rw [exec_loopCompletion_of_own s hfind hsid hlife hdone hb]
    exact ⟨_, rfl, find_del_self s.loops n, fun a => ⟨rfl, rfl, rfl, rfl⟩, s.me.loopDone_r l, s.me.loopDone_ctl, s.me.loopDone_batches,
      s.me.loopDone_closed⟩

end Sys2Proof.Machine
end

section
/-! PROOF. A step of the scribe whose turn it is runs its word (R65, R83 to R85); O1. -/

namespace Sys2Proof.Machine

open Sys2Proof

section

variable {s t t0 t1 : State} {w : BitVec 32} {p : BitVec 26} {i : Instr}

/-- With no issue under way, no agenda and no engine's step to come, the scribe whose turn it is issues (R231). -/
theorem step_eq_issueStep (hjoiner : s.joiner = none) (hagenda : s.agenda = []) (hengine : s.engineTurn = false) (hturn : s.myTurn = true) :
    step s = s.issueStep := by
  simp [step, hjoiner, hagenda, State.ownTurn, hengine, hturn]

/-- A scribe inside a clause with no event due takes the word it fetches, and a word XIM that none stands before with its successor (R83). -/
theorem issue_of_fetch (hevent : t.deliverable = false) (hremain : t.me.ctl.remain ≠ 0) (hfetch : t.fetch = .ok (t0, w)) :
    t.issue = if bits w.toNat 26 6 = 0x11 ∧ t.me.ctl.xim.isNone then t0.pair (w.setWidth 26) else t0.word w := by
  simp [State.issue, hevent, hremain, hfetch]

/-- R85: a word that is paid for, decodes, passes its checks and waits for nothing at the scoreboard takes its effect. -/
theorem word_eq_exec (hpay : t.pay w.toNat = some t1) (hdecode : decode w = .ok i) (hcheck : t1.clauseCheck w.toNat i = none)
    (hheld : t1.heldWord i = none) : t.word w = exec i t1 := by
  simp [State.word, hpay, hdecode, hcheck, hheld]

/-- R83: the word XIM that has left its payload is followed by the word after it. -/
theorem pair_eq_word (hxim : exec (.xim p) s = .next t) (hheld : t.me.ctl.xim ≠ none) (hfetch : t.fetch = .ok (t0, w)) :
    s.pair p = t0.word w := by
  simp [State.pair, hxim, hheld, hfetch]

end

/-- Settles O1: the step is an issue, the issue is the word's, alone or after its word XIM (R83), and the word's is `exec` (R85). -/
theorem stepRunsDecodedWord : Obligations.StepRunsDecodedWord := by
  intro s s0 w hjoiner hagenda hengine hturn hevent hremain hfetch runs
  have hstep : step s = noted s s.afterIssue s.tried.issue := step_eq_issueStep hjoiner hagenda hengine hturn
  rw [issue_of_fetch hevent hremain hfetch] at hstep
  refine ⟨fun hplain t1 i hpay hdecode hcheck hheld => ?_, fun hmajor hnone t t0 x hxim hpayload hnext t1 i hpay hdecode hcheck hheld => ?_⟩
  · have hword : ¬ (bits w.toNat 26 6 = 0x11 ∧ s.tried.me.ctl.xim.isNone) := fun h => hplain.elim (· h.1) (· (Option.isNone_iff_eq_none.1 h.2))
    rw [hstep, if_neg hword, word_eq_exec hpay hdecode hcheck hheld]
  · have hpair : bits w.toNat 26 6 = 0x11 ∧ s.tried.me.ctl.xim.isNone := ⟨hmajor, Option.isNone_iff_eq_none.2 hnone⟩
    rw [hstep, if_pos hpair, pair_eq_word hxim hpayload hnext, word_eq_exec hpay hdecode hcheck hheld]

end Sys2Proof.Machine
end

section
/-! PROOF. Immediates and offsets that a word XIM widens, and payloads that are reserved (R82); O8. -/

namespace Sys2Proof.Machine

open Sys2Proof

/-! ## Numbers of words -/

theorem signed_toNat {w : Nat} (x : BitVec w) : signed w x.toNat = x.toInt := by
  rw [signed, BitVec.toInt_eq_toNat_cond, Nat.mod_eq_of_lt x.isLt]
  cases w with
  | zero => simp [BitVec.of_length_zero]
  | succ w =>
    have hhalf : x.toNat < 2 ^ (w + 1 - 1) ↔ 2 * x.toNat < 2 ^ (w + 1) := by
      rw [Nat.add_sub_cancel, Nat.pow_succ]
      omega
    simp only [hhalf]

/-- R82: the payload of a word XIM stands above the field that it widens. -/
theorem toNat_append_eq_add {m n : Nat} (p : BitVec m) (x : BitVec n) : (p ++ x).toNat = p.toNat * 2 ^ n + x.toNat := by
  rw [BitVec.toNat_append, ← Nat.shiftLeft_add_eq_or_of_lt x.isLt, Nat.shiftLeft_eq]

theorem ofInt_mul_toInt {n : Nat} (k : Int) (x : BitVec n) : BitVec.ofInt 64 (k * x.toInt) = BitVec.ofInt 64 k * x.signExtend 64 :=
  BitVec.ofInt_mul k x.toInt

/-! ## Widened fields -/

section

variable {s : State} {p : BitVec 26} {n : Nat}

theorem simm_of_no_xim (h : s.me.ctl.xim = none) (x : BitVec n) : s.simm n x.toNat = x.toInt := by
  simp only [State.simm, h, signed_toNat]

theorem simm_of_xim (h : s.me.ctl.xim = some p) (x : BitVec n) : s.simm n x.toNat = (p ++ x).toInt := by
  simp only [State.simm, h, ← toNat_append_eq_add, Nat.add_comm n 26, signed_toNat]

theorem uimm_of_no_xim (h : s.me.ctl.xim = none) (v : Nat) : s.uimm n v = v := by
  simp only [State.uimm, h]

theorem uimm_of_xim (h : s.me.ctl.xim = some p) (x : BitVec n) : s.uimm n x.toNat = (p ++ x).toNat := by
  simp only [State.uimm, h, toNat_append_eq_add]

theorem xoff_of_no_xim (h : s.me.ctl.xim = none) : s.xoff = 0 := by
  simp only [State.xoff, h]

theorem xoff_of_xim (h : s.me.ctl.xim = some p) : s.xoff = p.toInt := by
  simp only [State.xoff, h, signed_toNat]

/-- R82, R91, R163: the words that leave the whole payload reserved trap on one with a bit set, whatever else they would do. -/
theorem finish_noPay_of_payload (h : s.me.ctl.xim = some p) (hp : p ≠ 0) (i : Instr) (r : Res State) :
    finish s (s.noPay i r) = .next (s.takeTrap { code := cILLEGAL, detail := 4, tinfo := encodeNat i }) := by
  have hcheck : s.noPayload (encodeNat i) = trap { code := cILLEGAL, detail := 4, tinfo := encodeNat i } := by
    simp only [State.noPayload, h, if_neg hp]
  simp only [State.noPay, hcheck, trap, finish]

end

/-- Settles O8: the payload stands above the field (R82), and the words with none to widen check it before anything else. -/
theorem widenedImmediates : Obligations.WidenedImmediates := by
  refine ⟨fun s i p hxim hp hi => ?_, fun s i k o => ⟨fun hxim => ?_, fun p hxim => ?_⟩⟩
  · obtain ⟨d, a, n, rfl | rfl | rfl | rfl | rfl⟩ | ⟨d, a, l, q, rfl | rfl | rfl⟩ | ⟨d, r, k, rfl | rfl | rfl⟩ | ⟨g, d, a, n, rfl⟩ := hi
    all_goals exact finish_noPay_of_payload hxim hp _ _
  · refine ⟨congrArg (BitVec.ofInt 64) (simm_of_no_xim hxim i), uimm_of_no_xim hxim _, congrArg (BitVec.ofInt 32) (simm_of_no_xim hxim k),
      xoff_of_no_xim hxim, ?_⟩
    rw [State.target, simm_of_no_xim hxim, ofInt_mul_toInt]
    rfl
  · refine ⟨congrArg (BitVec.ofInt 64) (simm_of_xim hxim i), uimm_of_xim hxim i, ?_, xoff_of_xim hxim, ?_⟩
    · rw [State.imm8, simm_of_xim hxim]
      exact BitVec.signExtend_eq_setWidth_of_le _ (by decide)
    · rw [State.target, simm_of_xim hxim, ofInt_mul_toInt]
      rfl

end Sys2Proof.Machine
end

section
/-! PROOF. Reading and writing control registers (R81, R110, R111), and SEED with the lanes' states (R35); O26. -/

namespace Sys2Proof.Machine

open Sys2Proof

/-! ## What a control register reads as -/

/-- No control register shows the program's position. -/
theorem creg_advance (s : State) (n : Nat) : s.advance.creg n = s.creg n := rfl

theorem setWidth_setWidth_of_lt {v : Word} (h : v.toNat < 2 ^ 32) : (v.setWidth 32).setWidth 64 = v :=
  BitVec.setWidth_setWidth_eq_self (BitVec.lt_def.2 h)

/-- A value that a register's map allows reads back: whole, or out of the 32 bits that the map leaves it. -/
theorem creg_setCreg_self {s : State} {n : Nat} {v : Word} {k : Ctl} (hset : s.me.setCreg n v = some k) :
    (s.onCtl fun _ => k).creg n = some v := by
  unfold Scribe.setCreg at hset
  split at hset
  all_goals simp only [Option.ite_none_right_eq_some, Option.some.injEq, decide_eq_true_eq, reduceCtorEq] at hset
  all_goals obtain ⟨hok, rfl⟩ := hset
  -- WETS and FILLV, of which the state keeps 32 bits
  case h_9 | h_11 => exact congrArg some (setWidth_setWidth_of_lt hok)
  all_goals rfl

/-- A register that is written changes no other one's value. -/
theorem creg_setCreg_ne {s : State} {n : Nat} {v : Word} {k : Ctl} (hset : s.me.setCreg n v = some k) {m : Nat} (hm : m ≠ n) :
    (s.onCtl fun _ => k).creg m = s.creg m := by
  unfold Scribe.setCreg at hset
  split at hset
  all_goals simp only [Option.ite_none_right_eq_some, Option.some.injEq, reduceCtorEq] at hset
  all_goals
    obtain ⟨-, rfl⟩ := hset
    unfold State.creg State.cregOf
    split <;> trivial

/-! ## SETC -/

section

variable {s : State} {n : BitVec 10} {d : BitVec 5} {v : Word}

theorem exec_setc_of_allowed {k : Ctl} (hcreg : s.creg n.toNat ≠ none) (hval : s.sval d.toNat = .ok v)
    (hset : s.me.setCreg n.toNat v = some k) : exec (.setc n d) s = .next (s.onCtl fun _ => k).advance := by
  obtain ⟨u, hu⟩ := Option.ne_none_iff_exists'.1 hcreg
  simp only [exec_setc, execSetc, hu, hval, hset, finish]

theorem exec_setc_of_refused (hcreg : s.creg n.toNat ≠ none) (hval : s.sval d.toNat = .ok v) (hset : s.me.setCreg n.toNat v = none) :
    s.traps (exec (.setc n d) s) { code := cILLEGAL, detail := 9, tinfo := encodeNat (.setc n d) } := by
  obtain ⟨u, hu⟩ := Option.ne_none_iff_exists'.1 hcreg
  simp only [State.traps, exec_setc, execSetc, hu, hval, hset, trap, illegal9, finish]

/-- Table 05-12: the registers that no SETC may write. -/
theorem setCreg_of_readOnly (hn : n ∈ [0x000, 0x015, 0x040, 0x041, 0x042, 0x043, 0x050, 0x051, 0x052, 0x053]) :
    s.creg n.toNat ≠ none ∧ s.me.setCreg n.toNat v = none := by
  simp only [List.mem_cons, List.not_mem_nil, or_false] at hn
  obtain rfl | rfl | rfl | rfl | rfl | rfl | rfl | rfl | rfl | rfl := hn
  all_goals exact ⟨Option.some_ne_none _, rfl⟩

/-- Table 05-12: the trap registers, which only a handler may write. -/
theorem setCreg_of_no_handler (hn : n ∈ [0x010, 0x011, 0x012, 0x013, 0x014]) (hhandler : s.me.ctl.handler = false) :
    s.creg n.toNat ≠ none ∧ s.me.setCreg n.toNat v = none := by
  simp only [List.mem_cons, List.not_mem_nil, or_false] at hn
  obtain rfl | rfl | rfl | rfl | rfl := hn
  all_goals exact ⟨Option.some_ne_none _, if_neg (by simp [hhandler])⟩

end

/-! ## SETC.RNGS -/

theorem look_seedLanes (seed : Lane) (ls : List Nat) (t : Tbl Lane) (l : Nat) :
    look 0 (seedLanes seed ls t) l = if l ∈ ls then rngSeed seed l else look 0 t l := by
  induction ls generalizing t with
  | nil => rfl
  | cons k ks ih =>
    simp only [seedLanes, ih, look_put, List.mem_cons]
    by_cases hk : l = k <;> simp [hk]

theorem exec_setcRngs_of_lt {s : State} {d : BitVec 5} {v : Word} (hval : s.sval d.toNat = .ok v) (hv : v.toNat < 2 ^ 32) :
    exec (.setcRngs d) s = .next ((s.onCtl fun c => { c with seed := v.setWidth 32 }).onR
      fun r => { r with rng := seedLanes (v.setWidth 32) (lanesOf s.live) r.rng }).advance := by
  simp only [exec_setcRngs, execSetcRngs, hval, Nat.not_le.2 hv, if_false, finish]

/-- Settles O26: GETC and a number that names no register by the lookup alone (R81), SETC by the register's access and map (Table 05-12). -/
theorem controlRegisters : Obligations.ControlRegisters := by
  intro s n d v
  refine ⟨fun hcreg => ?_, fun hcreg => ⟨?_, ?_⟩, ⟨rfl, rfl, rfl, rfl, rfl, rfl⟩, fun hval => ⟨fun k hcreg hset => ?_, fun hn => ?_,
    fun hn hhandler => ?_, fun hv => ?_⟩⟩
  · simp only [exec_getc, execGetc, hcreg, finish]
  · simp only [State.traps, exec_getc, execGetc, hcreg, trap, noCreg, cILLEGAL, finish]
  · simp only [State.traps, exec_setc, execSetc, hcreg, trap, noCreg, cILLEGAL, finish]
  · exact ⟨_, exec_setc_of_allowed hcreg hval hset, (creg_advance _ _).trans (creg_setCreg_self hset),
      fun m hm => (creg_advance _ _).trans (creg_setCreg_ne hset hm), rfl, fun a => ⟨rfl, rfl, rfl, rfl⟩, rfl, rfl⟩
  · obtain ⟨hcreg, hset⟩ := setCreg_of_readOnly hn
    exact exec_setc_of_refused hcreg hval hset
  · obtain ⟨hcreg, hset⟩ := setCreg_of_no_handler hn hhandler
    exact exec_setc_of_refused hcreg hval hset
  · refine ⟨_, exec_setcRngs_of_lt hval hv, congrArg some (setWidth_setWidth_of_lt hv), fun a => ⟨rfl, rfl, rfl, rfl⟩, rfl, rfl, fun l hl => ?_⟩
    refine (look_seedLanes _ (lanesOf s.live) s.me.r.rng l).trans ?_
    simp only [mem_lanesOf, hl, true_and]

end Sys2Proof.Machine
end

section
/-! PROOF. Small words of majors 0x10 and 0x12, and the word XIM (R82, R112, R113, R153, R163); O27. -/

namespace Sys2Proof.Machine

open Sys2Proof

/-! ## The lanes that WETQ tells -/

theorem bitOf_or (a b : Word) (l : Nat) : bitOf (a ||| b) l = (bitOf a l || bitOf b l) := by
  simp [bitOf_eq_getLsbD]

/-- R156, R177: the marked lanes of `m` are those whose word has a mark that something has set. -/
theorem Scribe.bitOf_markedLanes (c : Scribe) (reg : Nat) (m : Word) {l : Nat} (hl : l < 64) :
    bitOf (c.markedLanes reg m) l = (bitOf m l && (look 0 c.r.pv (vKey reg l) = 1 || look 0 c.r.pv (vKey reg l) = 2)) := by
  have hmask : c.markedLanes reg m
      = maskOf 64 fun l => bitOf m l && (look 0 c.r.pv (vKey reg l) = 1 || look 0 c.r.pv (vKey reg l) = 2) := by
    simp only [Scribe.markedLanes, lanesOf, List.foldl_filter, maskOf]
    refine congrArg word (congrArg (List.foldl · 0 (List.range 64)) ?_)
    funext acc l
    by_cases hm : bitOf m l = true
    · simp only [hm, if_true, Bool.true_and, Bool.or_eq_true, decide_eq_true_eq]
    · simp only [hm, if_false, Bool.false_and, Bool.false_eq_true]
  rw [hmask, bitOf_maskOf (Nat.le_refl 64), decide_eq_true hl, Bool.true_and]

theorem State.bitOf_wetLanes (s : State) (reg : Nat) {l : Nat} (hl : l < 64) :
    bitOf (s.wetLanes reg) l
      = (bitOf s.live l && (s.me.laneWet reg l || look 0 s.me.r.pv (vKey reg l) = 1 || look 0 s.me.r.pv (vKey reg l) = 2)) := by
  have hzero : bitOf 0#64 l = false := by simp [bitOf]
  simp only [State.wetLanes, Scribe.laneWet, bitOf_and, bitOf_or, s.me.bitOf_markedLanes reg s.live hl]
  cases s.me.wetV reg with
  | none => simp [hzero]
  | some r => simp [Bool.and_or_distrib_left, Bool.or_assoc]

/-! ## The word XIM (R82, R83) -/

section

variable {s : State} {p : BitVec 26}

theorem exec_xim_of_room (hnone : s.me.ctl.xim = none) (hroom : 1 < s.me.ctl.remain) :
    exec (.xim p) s = .next (s.onCtl fun c => { c with pc := c.pc + 32, remain := c.remain - 1, xim := some p }) := by
  simp only [exec_xim, execXim, hnone, Option.isSome_none, Bool.false_eq_true, if_false, Nat.not_le.2 hroom, finishAt]

/-- R83: a word XIM cannot stand last in its clause. -/
theorem exec_xim_of_last (hnone : s.me.ctl.xim = none) (hlast : s.me.ctl.remain ≤ 1) :
    exec (.xim p) s = .next (s.takeTrap { code := cILLEGAL_CLAUSE, detail := 6, tinfo := encodeNat (.xim p) }) := by
  simp only [exec_xim, execXim, hnone, Option.isSome_none, Bool.false_eq_true, if_false, hlast, if_true, trap, finishAt]

/-- A payload without a bit set is none for the words that leave it reserved (R82, R163). -/
theorem noPay_of_zero (h : s.me.ctl.xim.getD 0 = 0) (i : Instr) (r : Res State) : s.noPay i r = r := by
  have hcheck : s.noPayload (encodeNat i) = .ok () := by
    unfold State.noPayload
    cases hx : s.me.ctl.xim with
    | none => rfl
    | some p => exact if_pos (by simpa [hx] using h)
  simp only [State.noPay, hcheck]

end

/-! ## YIELD (R113) -/

/-- At the end of its clause a YIELD takes effect. -/
theorem yield_deferred (s : State) (hlast : s.me.ctl.remain ≤ 1) :
    ((s.onRun fun r => { r with yielded := true }).advance).me.run.deferred = true := by
  simp [State.advance, Scribe.advance, Run.calm, State.onRun, hlast]

/-- Settles O27: each word's one branch. The payload check lets a payload of zero pass (R82), and WETQ's mask is told lane by lane (R163). -/
theorem smallWords : Obligations.SmallWords := by
  intro s o sc p d r k
  have hlane : (0 : BitVec 1) ≠ 1 := by decide
  refine ⟨rfl, rfl, ⟨_, rfl, ⟨rfl, fun a => ⟨rfl, rfl, rfl, rfl⟩, rfl, rfl, rfl, rfl⟩, yield_deferred s⟩, fun hjobs hordered => ?_, fun hjobs => ?_,
    fun hnone hroom => ?_, exec_xim_of_last, fun hzero => ⟨?_, ?_, ?_, ?_, ?_, ?_, ?_⟩⟩
  · simp only [exec_fence, execFence, hjobs, ne_eq, not_true_eq_false, if_false, hordered, finish]
  · simp only [exec_fence, execFence, if_pos hjobs, parkOn, finish]
  · rw [exec_xim_of_room hnone hroom]
    exact ⟨_, rfl, rfl, rfl, rfl, rfl, fun a => ⟨rfl, rfl, rfl, rfl⟩, rfl, rfl, rfl, rfl⟩
  · rintro rfl hdry
    simp only [exec_dry, execDry, noPay_of_zero hzero, if_true, hdry, finish]
  · rintro rfl hdry
    simp only [exec_dry, execDry, noPay_of_zero hzero, hlane, if_false, hdry, finish]
  · rintro rfl q hwet hfault
    simp only [exec_dry, execDry, noPay_of_zero hzero, if_true, hwet, Scribe.needDry, hfault, parkOn, finish]
  · rintro rfl
    simp only [exec_wetq, execWetq, noPay_of_zero hzero, if_true, flag64, finish]
  · rintro rfl
    refine ⟨s.wetLanes (s.vr r.toNat), ?_, fun l hl => s.bitOf_wetLanes _ hl⟩
    simp only [exec_wetq, execWetq, noPay_of_zero hzero, hlane, if_false, finish]
  · intro hdry
    simp only [exec_dryAll, execDryAll, noPay_of_zero hzero, hdry, Bool.false_eq_true, if_false, finish]
  · intro hwet
    simp only [exec_dryAll, execDryAll, noPay_of_zero hzero, hwet, if_true, parkOn, finish]

end Sys2Proof.Machine
end

section
/-! PROOF. Headers, the temporaries they clear, and words that are no instruction (R21, R65 to R67, R85, R408); O28. -/

namespace Sys2Proof.Machine

open Sys2Proof

/-! ## Clearing lane registers -/

theorem look_filter_key {α : Type} (d : α) (q : Nat → Bool) (t : Tbl α) (k : Nat) :
    look d (t.filter fun p => q p.1) k = if q k then look d t k else d := by
  induction t with
  | nil => simp [look]
  | cons p t ih =>
    obtain ⟨j, v⟩ := p
    by_cases hj : j = k
    · subst hj
      cases hq : q j <;> simp [hq, look, ih]
    · cases hq : q j <;> simp [hq, look, hj, ih]

/-- The keys that `wipeV` leaves are those of the other registers. -/
theorem vKey_outside (reg : Nat) {g l : Nat} (hl : l < 64) : (vKey g l < vKey reg 0 || vKey reg 64 ≤ vKey g l) = !decide (g = reg) := by
  rw [Bool.eq_iff_iff]
  simp only [Bool.or_eq_true, decide_eq_true_eq, Bool.not_eq_true', decide_eq_false_iff_not]
  unfold vKey
  omega

/-- Clearing a lane register: its words and marks read zero, the words, marks and records of the others stay, and of all else only the
tags in use and WETS may change. -/
theorem wipeV_cases (c : Scribe) (reg : Nat) :
    ∃ v pv wv tags wets, c.wipeV reg = { c with
        wet := { c.wet with v := wv, tags := tags }, ctl := { c.ctl with wets := wets }, r := { c.r with v := v, pv := pv } }
      ∧ (∀ k, k ≠ reg → find wv k = find c.wet.v k)
      ∧ ∀ g l, l < 64 → look 0 v (vKey g l) = (if g = reg then 0 else c.getV g l)
          ∧ look 0 pv (vKey g l) = if g = reg then 0 else look 0 c.r.pv (vKey g l) := by
  obtain ⟨wv, tags, wets, e, hrec⟩ := dropV_cases c reg (BitVec.allOnes 64)
  refine ⟨_, _, wv, tags, wets, by rw [Scribe.wipeV, e], hrec, fun g l hl => ?_⟩
  have hout := vKey_outside reg (g := g) hl
  rw [look_filter_key (0 : Lane) fun k => k < vKey reg 0 || vKey reg 64 ≤ k, look_filter_key (0 : Nat) fun k => k < vKey reg 0 || vKey reg 64 ≤ k,
    hout]
  by_cases hg : g = reg <;> simp [hg, Scribe.getV]

/-- Clearing registers one after another. -/
theorem foldl_wipeV_cases (regs : List Nat) (c : Scribe) :
    ∃ v pv wv tags wets, regs.foldl Scribe.wipeV c = { c with
        wet := { c.wet with v := wv, tags := tags }, ctl := { c.ctl with wets := wets }, r := { c.r with v := v, pv := pv } }
      ∧ (∀ k, k ∉ regs → find wv k = find c.wet.v k)
      ∧ ∀ g l, l < 64 → look 0 v (vKey g l) = (if g ∈ regs then 0 else c.getV g l)
          ∧ look 0 pv (vKey g l) = if g ∈ regs then 0 else look 0 c.r.pv (vKey g l) := by
  induction regs generalizing c with
  | nil => exact ⟨c.r.v, c.r.pv, c.wet.v, c.wet.tags, c.ctl.wets, rfl, fun _ _ => rfl, fun _ _ _ => ⟨rfl, rfl⟩⟩
  | cons reg regs ih =>
    obtain ⟨v1, pv1, wv1, tags1, wets1, e1, hrec1, hlook1⟩ := wipeV_cases c reg
    obtain ⟨v, pv, wv, tags, wets, e, hrec, hlook⟩ := ih (c.wipeV reg)
    refine ⟨v, pv, wv, tags, wets, by rw [List.foldl_cons, e, e1], fun k hk => ?_, fun g l hl => ?_⟩
    · obtain ⟨hne, hnotin⟩ := List.ne_and_not_mem_of_not_mem_cons hk
      rw [hrec k hnotin, e1]
      exact hrec1 k hne
    · obtain ⟨hv, hp⟩ := hlook g l hl
      have hv1 : (c.wipeV reg).getV g l = if g = reg then 0 else c.getV g l := by rw [e1]; exact (hlook1 g l hl).1
      have hp1 : look 0 (c.wipeV reg).r.pv (vKey g l) = if g = reg then 0 else look 0 c.r.pv (vKey g l) := by rw [e1]; exact (hlook1 g l hl).2
      rw [hv, hp, hv1, hp1]
      by_cases hg : g = reg <;> simp [hg]

/-! ## Headers -/

section

variable {s s0 : State} {w f : BitVec 32}

/-- R21, R66, R67: a sound header begins its clause, with t0-t3 clear and no hold run under way. -/
theorem exec_clauseHeaderFetch_of_sound (hlife : s.me.run.life = .running) (hend : s.me.ctl.remain = 0) (hfetch : s.fetch = .ok (s0, f))
    (hsound : headerOk w = true) :
    exec (.clauseHeaderFetch w) s = .next ((({ s0 with me := s0.me.wipeTemps } : State).onCtl
      fun c => { c with pc := c.pc + 32, header := w, remain := (headerOf w).n }).onRun fun r => { r with hold := 0 }) := by
  simp [execClauseHeaderFetch, hlife, hend, hfetch, hsound, finishAt]

/-- R85: an unsound header fails check 1. -/
theorem exec_clauseHeaderFetch_of_unsound (hlife : s.me.run.life = .running) (hend : s.me.ctl.remain = 0) (hfetch : s.fetch = .ok (s0, f))
    (hunsound : headerOk w = false) :
    s0.traps (exec (.clauseHeaderFetch w) s) { code := cILLEGAL, detail := 1, tinfo := w.toNat } := by
  simp [State.traps, execClauseHeaderFetch, hlife, hend, hfetch, hunsound, finishAt]

/-! ## Words that are no instruction -/

/-- R164, R408: the word reports the check that it fails first. -/
theorem exec_illegalWord_of_running (hlife : s.me.run.life = .running) (hremain : s.me.ctl.remain ≠ 0) :
    s.traps (exec (.illegalWord w) s) { code := cILLEGAL, detail := illegalDetail w.toNat, tinfo := w.toNat } := by
  simp [State.traps, execIllegalWord, hlife, hremain, trap, finish]

end

theorem illegalDetail_of_reserved {n : Nat} (h : majorReserved (bits n 26 6) = true) : illegalDetail n = 2 := if_pos h

theorem illegalDetail_of_unassigned {n : Nat} (h : majorReserved (bits n 26 6) = false) (hsel : selectorAssigned n = false) :
    illegalDetail n = 3 := by
  simp [illegalDetail, h, hsel]

theorem illegalDetail_of_assigned {n : Nat} (h : majorReserved (bits n 26 6) = false) (hsel : selectorAssigned n = true) :
    illegalDetail n = 4 := by
  simp [illegalDetail, h, hsel]

/-- Settles O28: a header is sound or not (R67), and a word's DETAIL is that of its first failing check (R85). -/
theorem clauses : Obligations.Clauses := by
  intro s s0 w f hlife
  refine ⟨fun hend hfetch => ⟨fun hsound => ?_, exec_clauseHeaderFetch_of_unsound hlife hend hfetch⟩, fun hremain => ?_⟩
  · obtain ⟨v, pv, wv, tags, wets, e, -, hlook⟩ := foldl_wipeV_cases [64, 65, 66, 67] s0.me
    rw [exec_clauseHeaderFetch_of_sound hlife hend hfetch hsound, Scribe.wipeTemps, e]
    refine ⟨_, rfl, rfl, rfl, rfl, rfl, fun a => ⟨rfl, rfl, rfl, rfl⟩, rfl, fun g l hg hl => ?_, fun g l hlow hhigh hl => ?_⟩
    · exact (hlook g l hl).1.trans (if_neg (by simp; omega))
    · exact (hlook g l hl).1.trans (if_pos (by simp; omega))
  · have htraps := exec_illegalWord_of_running (w := w) hlife hremain
    refine ⟨fun hmajor => ?_, fun hmajor hcond => ?_, fun hmajor hfunc => ?_, fun hmajor hfunc _ => ?_⟩
    · rwa [illegalDetail_of_reserved (by simp [majorReserved, hmajor])] at htraps
    · rwa [illegalDetail_of_unassigned (by rw [hmajor]; rfl) (by simp [selectorAssigned, hmajor, hcond])] at htraps
    · rwa [illegalDetail_of_unassigned (by rw [hmajor]; rfl) (by simp [selectorAssigned, hmajor, hfunc])] at htraps
    · rwa [illegalDetail_of_assigned (by rw [hmajor]; rfl) (by simp [selectorAssigned, hmajor, hfunc])] at htraps

end Sys2Proof.Machine
end

section
/-! PROOF. Scalar forms on operands that can be read, and those of two operands (R89, R92, Table 05-4); O7. -/

namespace Sys2Proof.Machine

open Sys2Proof

/-! ## Forms on operands that can be read (R153, R177) -/

theorem sval_of_reads {s : State} {n : Nat} (h : s.readsS n) : s.sval n = .ok (s.getS n) :=
  (sval_ok_iff s n _).2 ⟨h.1, h.2, rfl⟩

section

variable {s : State} {d a b : BitVec 5} {v : Word}

/-- A form of two operands that can be read writes its value `v` to sd, and the program goes on. -/
theorem scalar2_gives (ha : s.readsS a.toNat) (hb : s.readsS b.toNat) {f : Word → Word → Word} (hv : f (s.getS a.toNat) (s.getS b.toNat) = v) :
    finish s (s.scalar2 d a b f) = .next (s.setS d.toNat v).advance := by
  simp only [State.scalar2, sval_of_reads ha, sval_of_reads hb, hv, finish]

/-- The same for a form of one operand. -/
theorem scalar1_gives (ha : s.readsS a.toNat) {f : Word → Word} (hv : f (s.getS a.toNat) = v) :
    finish s (s.scalar1 d a f) = .next (s.setS d.toNat v).advance := by
  simp only [State.scalar1, sval_of_reads ha, hv, finish]

/-- SEL waits for its old sd too, and chooses by it. -/
theorem exec_sel_of_reads (hd : s.readsS d.toNat) (ha : s.readsS a.toNat) (hb : s.readsS b.toNat) :
    exec (.sel d a b) s = .next (s.setS d.toNat (if s.getS d.toNat = 0 then s.getS b.toNat else s.getS a.toNat)).advance := by
  rw [exec_sel, execSel, sval_of_reads hd]
  exact scalar2_gives ha hb (ite_not ..)

end

/-! ## Values -/

theorem flag64_decide (p : Prop) [Decidable p] : flag64 (decide p) = if p then 1 else 0 := by
  simp only [flag64, decide_eq_true_eq]

/-- A choice by the opposite condition takes its values in the opposite order. -/
theorem ite_of_not_iff {α : Type} {p q : Prop} [Decidable p] [Decidable q] (h : ¬ p ↔ q) (v w : α) :
    (if p then v else w) = if q then w else v := by
  simp only [← h, ite_not]

theorem shiftLeft_eq_ofNat (x : Word) (n : Nat) : x <<< n = BitVec.ofNat 64 (x.toNat * 2 ^ n) := by
  rw [← Nat.shiftLeft_eq]
  rfl

theorem ushiftRight_eq_ofNat (x : Word) (n : Nat) : x >>> n = BitVec.ofNat 64 (x.toNat / 2 ^ n) := by
  rw [← Nat.shiftRight_eq_div_pow, ← BitVec.toNat_ushiftRight, BitVec.ofNat_toNat, BitVec.setWidth_eq]

theorem sshiftRight_eq_ofInt (x : Word) (n : Nat) : x.sshiftRight n = BitVec.ofInt 64 (x.toInt / 2 ^ n) := by
  rw [BitVec.sshiftRight, Int.shiftRight_eq_div_pow, Int.natCast_pow]
  rfl

/-! ## Quotients and remainders (Table 05-4) -/

section

variable {x y : Word}

theorem div_of_zero (hy : y = 0) :
    divI64 x y = BitVec.allOnes 64 ∧ divB64 x y = BitVec.allOnes 64 ∧ remI64 x y = x ∧ remB64 x y = x :=
  ⟨if_pos hy, if_pos hy, if_pos hy, if_pos hy⟩

theorem divI64_eq_sdiv (hy : y ≠ 0) : divI64 x y = x.sdiv y := by
  rw [divI64, if_neg hy]
  exact BitVec.eq_of_toInt_eq (by rw [BitVec.toInt_ofInt, BitVec.toInt_sdiv])

theorem toInt_remI64 (hy : y ≠ 0) : (remI64 x y).toInt = x.toInt.tmod y.toInt := by
  rw [remI64, if_neg hy, BitVec.toInt_ofInt, ← BitVec.toInt_srem, BitVec.toInt_bmod_cancel]

theorem divB64_eq_udiv (hy : y ≠ 0) : divB64 x y = x / y := (if_neg hy).trans (BitVec.udiv_def ..).symm

theorem remB64_eq_umod (hy : y ≠ 0) : remB64 x y = x % y := (if_neg hy).trans (BitVec.umod_def ..).symm

/-- The unsigned quotient and remainder. -/
theorem unsigned_division (hy : y ≠ 0) :
    x.toNat = (divB64 x y).toNat * y.toNat + (remB64 x y).toNat ∧ (remB64 x y).toNat < y.toNat := by
  have hpos : 0 < y.toNat := Nat.pos_of_ne_zero fun h => hy (BitVec.eq_of_toNat_eq h)
  rw [divB64_eq_udiv hy, remB64_eq_umod hy, BitVec.toNat_udiv, BitVec.toNat_umod]
  exact ⟨(Nat.div_add_mod' ..).symm, Nat.mod_lt _ hpos⟩

/-- A remainder that is not zero has the sign of the dividend. -/
theorem tmod_sign (m n : Int) : m.tmod n = 0 ∨ (0 ≤ m.tmod n ↔ 0 ≤ m) := by
  obtain hm | hm := Int.le_total 0 m
  · exact .inr (iff_of_true (Int.tmod_nonneg n hm) hm)
  · have hneg : 0 ≤ -m.tmod n := by
      rw [← Int.neg_tmod]
      exact Int.tmod_nonneg n (by omega)
    by_cases hz : m = 0
    · exact .inl (by rw [hz, Int.zero_tmod])
    · omega

/-- The signed quotient truncates toward zero, when it fits 64 bits. -/
theorem signed_division (hy : y ≠ 0) (hfits : ¬ (x.toInt = -2 ^ 63 ∧ y.toInt = -1)) :
    x.toInt = (divI64 x y).toInt * y.toInt + (remI64 x y).toInt ∧ (remI64 x y).toInt.natAbs < y.toInt.natAbs
      ∧ ((remI64 x y).toInt = 0 ∨ (0 ≤ (remI64 x y).toInt ↔ 0 ≤ x.toInt)) := by
  have hquot : (divI64 x y).toInt = x.toInt.tdiv y.toInt := by
    rw [divI64_eq_sdiv hy]
    refine BitVec.toInt_sdiv_of_ne_or_ne x y (Decidable.not_and_iff_not_or_not.1 fun h => hfits ?_)
    rw [h.1, h.2]
    decide
  have hpos : 0 < y.toInt.natAbs := Int.natAbs_pos.2 fun h => hy (BitVec.eq_of_toInt_eq h)
  rw [hquot, toInt_remI64 hy]
  refine ⟨(Int.tdiv_mul_add_tmod ..).symm, ?_, tmod_sign ..⟩
  rw [Int.natAbs_tmod]
  exact Nat.mod_lt _ hpos

/-- The quotient that does not fit 64 bits. -/
theorem signed_division_overflow (hx : x.toInt = -2 ^ 63) (hy : y.toInt = -1) : divI64 x y = x ∧ remI64 x y = 0 := by
  obtain rfl : x = BitVec.intMin 64 := BitVec.eq_of_toInt_eq hx
  obtain rfl : y = -1#64 := BitVec.eq_of_toInt_eq hy
  decide

end

/-- Settles O7: operands that can be read give the form's value, and Table 05-4's corners are those of truncating division. -/
theorem scalarTwoSources : Obligations.ScalarTwoSources := by
  intro s d a b ha hb x y
  refine ⟨?and, ?or, ?xor, ?andn, ?shl, ?shr, ?sar, ?minI, ?maxI, ?minB, ?maxB, ?slt, ?sltb, ?seq, ?sne, ?sel, ?mulhI, ?mulhB,
    divI64 x y, divB64 x y, remI64 x y, remB64 x y, ?divI, ?remI, ?divB, ?remB, div_of_zero, unsigned_division, signed_division,
    signed_division_overflow⟩
  case shl => exact scalar2_gives ha hb (shiftLeft_eq_ofNat ..)
  case shr => exact scalar2_gives ha hb (ushiftRight_eq_ofNat ..)
  case sar => exact scalar2_gives ha hb (sshiftRight_eq_ofInt ..)
  case minI | maxI => exact scalar2_gives ha hb (ite_of_not_iff Int.not_le _ _)
  case minB | maxB => exact scalar2_gives ha hb (ite_of_not_iff Nat.not_le _ _)
  case slt | sltb | seq => exact scalar2_gives ha hb (flag64_decide _)
  case sne => exact scalar2_gives ha hb ((flag64_decide _).trans (ite_not ..))
  case sel => exact fun hd => exec_sel_of_reads hd ha hb
  all_goals exact scalar2_gives ha hb rfl

end Sys2Proof.Machine
end

section
/-! PROOF. Scalar forms of one operand and an immediate, counts and constants (R89, R90, R98); O9. -/

namespace Sys2Proof.Machine

open Sys2Proof

/-! ## Counts (R89) -/

section

variable {x : Word} {k : Nat}

theorem clzNat_le (w n : Nat) : clzNat w n ≤ w := by
  unfold clzNat
  split <;> omega

/-- The highest set bit of a word that is not zero stands below its leading zeros. -/
theorem log2_eq_of_clzNat (hx : x.toNat ≠ 0) : clzNat 64 x.toNat + x.toNat.log2 = 63 := by
  have hlog : x.toNat.log2 < 64 := (Nat.log2_lt hx).2 x.isLt
  rw [clzNat, if_neg hx]
  omega

theorem getLsbD_of_lt_clzNat (hk : k < clzNat 64 x.toNat) : x.getLsbD (63 - k) = false := by
  by_cases hx : x.toNat = 0
  · rw [BitVec.getLsbD, hx, Nat.zero_testBit]
  · have hhigh := log2_eq_of_clzNat hx
    exact Nat.testBit_lt_two_pow (Nat.lt_of_lt_of_le Nat.lt_log2_self (Nat.pow_le_pow_right (by omega) (by omega)))

theorem getLsbD_clzNat (hlt : clzNat 64 x.toNat < 64) : x.getLsbD (63 - clzNat 64 x.toNat) = true := by
  have hx : x.toNat ≠ 0 := fun h => by simp [clzNat, h] at hlt
  have hhigh := log2_eq_of_clzNat hx
  rw [show 63 - clzNat 64 x.toNat = x.toNat.log2 by omega]
  exact Nat.testBit_log2 hx

theorem ctzNat_le (fuel n : Nat) : ctzNat fuel n ≤ fuel := by
  induction fuel generalizing n with
  | zero => exact Nat.le_refl 0
  | succ fuel ih =>
    have := ih (n / 2)
    unfold ctzNat
    split <;> omega

theorem testBit_of_lt_ctzNat {fuel n : Nat} (hk : k < ctzNat fuel n) : n.testBit k = false := by
  induction fuel generalizing n k with
  | zero => exact absurd hk (Nat.not_lt_zero k)
  | succ fuel ih =>
    unfold ctzNat at hk
    split at hk
    · exact absurd hk (Nat.not_lt_zero k)
    · next heven =>
      cases k with
      | zero => simpa [Nat.testBit_zero] using heven
      | succ k => rw [Nat.testBit_succ]; exact ih (by omega)

theorem testBit_ctzNat {fuel n : Nat} (hlt : ctzNat fuel n < fuel) : n.testBit (ctzNat fuel n) = true := by
  induction fuel generalizing n with
  | zero => exact absurd hlt (Nat.not_lt_zero _)
  | succ fuel ih =>
    unfold ctzNat at hlt ⊢
    split at hlt
    · next hodd => simp [hodd]
    · next heven =>
      rw [if_neg heven, Nat.add_comm, Nat.testBit_succ]
      exact ih (by omega)

theorem popcNat_eq_length (fuel n : Nat) : popcNat fuel n = ((List.range fuel).filter fun k => n.testBit k).length := by
  induction fuel generalizing n with
  | zero => rfl
  | succ fuel ih =>
    have htail : ((List.range fuel).filter fun k => (n / 2).testBit k).length
        = (((List.range fuel).map Nat.succ).filter fun k => n.testBit k).length := by
      simp only [List.filter_map, List.length_map, Function.comp_def, Nat.succ_eq_add_one, Nat.testBit_succ]
    rw [popcNat, ih, htail, List.range_succ_eq_map, List.filter_cons, Nat.testBit_zero]
    obtain h | h := Nat.mod_two_eq_zero_or_one n
    · simp [h]
    · simp [h, Nat.add_comm]

end

/-- Settles O9: the operand that can be read and the immediate give the form's value; counts by the highest and lowest set bit. -/
theorem scalarOneSource : Obligations.ScalarOneSource := by
  intro s d a i n u ha x
  refine ⟨scalar1_gives ha (flag64_decide _), rfl, ?lih, ?andi, ?ori, ?xori, rfl, clzNat 64 x.toNat, ctzNat 64 x.toNat, popcNat 64 x.toNat,
    ?clz, ?ctz, ?popc, clzNat_le _ _, ctzNat_le _ _, popcNat_eq_length _ _, fun k => getLsbD_of_lt_clzNat, getLsbD_clzNat,
    fun k => testBit_of_lt_ctzNat, testBit_ctzNat⟩
  all_goals exact scalar1_gives ha rfl

end Sys2Proof.Machine
end

section
/-! PROOF. Shifts by an immediate and bit fields (R91); O10. -/

namespace Sys2Proof.Machine

open Sys2Proof

/-! ## Fields of a word -/

theorem sext64_toNat {w : Nat} (x : BitVec w) : sext64 w x.toNat = x.signExtend 64 := by
  rw [sext64, signed_toNat, BitVec.signExtend]

/-- The sign extension of the low bits of a word. -/
theorem sext64_low (x : Word) (w : Nat) : sext64 w x.toNat = (x.setWidth w).signExtend 64 := by
  rw [← sext64_toNat, BitVec.toNat_setWidth, sext64, sext64, signed, signed, Nat.mod_mod]

theorem word_toNat {w : Nat} (x : BitVec w) : word x.toNat = x.setWidth 64 := BitVec.ofNat_toNat 64 x

theorem field64_eq_toNat (x : Word) (p len : Nat) : field64 x p len = (x.extractLsb' p len).toNat := by
  rw [field64, bits, BitVec.extractLsb'_toNat, Nat.shiftRight_eq_div_pow]

/-- The mask of a field of `len` bits at `p`. -/
theorem getLsbD_fieldMask (len p : Nat) {k : Nat} (hk : k < 64) :
    (word ((2 ^ len - 1) * 2 ^ p)).getLsbD k = (decide (p ≤ k) && decide (k - p < len)) := by
  rw [word, BitVec.getLsbD_ofNat, Nat.testBit_mul_two_pow, Nat.testBit_two_pow_sub_one, decide_eq_true hk, Bool.true_and]

/-- The word `z` with the field of l + 1 bits at `p` taken from the low bits of `x`. -/
def insertField (l p : Nat) (z x : Word) : Word :=
  (z &&& ~~~word ((2 ^ (l + 1) - 1) * 2 ^ p)) ||| ((x <<< p) &&& word ((2 ^ (l + 1) - 1) * 2 ^ p))

theorem getLsbD_insertField (l p : Nat) (z x : Word) {k : Nat} (hk : k < 64) :
    (insertField l p z x).getLsbD k = if p ≤ k ∧ k ≤ p + l then x.getLsbD (k - p) else z.getLsbD k := by
  simp only [insertField, BitVec.getLsbD_or, BitVec.getLsbD_and, BitVec.getLsbD_not, BitVec.getLsbD_shiftLeft, getLsbD_fieldMask _ _ hk, hk,
    decide_true, Bool.true_and]
  by_cases hlow : p ≤ k
  · by_cases hhigh : k ≤ p + l
    · simp [hlow, hhigh, show k - p < l + 1 by omega, Nat.not_lt.2 hlow]
    · simp [hhigh, show ¬ k - p < l + 1 by omega]
  · simp [hlow]

/-! ## The checks of major 0x04 -/

section

variable {s : State} {d a : BitVec 5} {l p : BitVec 6} {v : Word} {f : Word → Word} (hzero : s.me.ctl.xim.getD 0 = 0)

include hzero

theorem noPay_scalar1_gives (ha : s.readsS a.toNat) (i : Instr) (hv : f (s.getS a.toNat) = v) :
    finish s (s.noPay i (s.scalar1 d a f)) = .next (s.setS d.toNat v).advance := by
  rw [noPay_of_zero hzero]
  exact scalar1_gives ha hv

theorem fieldOk_of_fits (hfits : p.toNat + l.toNat < 64) (i : Instr) (r : Res State) : s.fieldOk i l p r = r := by
  rw [State.fieldOk, noPay_of_zero hzero, if_neg (by omega)]

theorem fieldOk_scalar1_gives (ha : s.readsS a.toNat) (hfits : p.toNat + l.toNat < 64) (i : Instr) (hv : f (s.getS a.toNat) = v) :
    finish s (s.fieldOk i l p (s.scalar1 d a f)) = .next (s.setS d.toNat v).advance := by
  rw [fieldOk_of_fits hzero hfits]
  exact scalar1_gives ha hv

/-- R91: a field that passes bit 63. -/
theorem fieldOk_of_passes (hpasses : 64 ≤ p.toNat + l.toNat) (i : Instr) (r : Res State) :
    finish s (s.fieldOk i l p r) = .next (s.takeTrap (illegal9 (encodeNat i))) := by
  rw [State.fieldOk, noPay_of_zero hzero, if_pos (by omega)]
  rfl

/-- BFI keeps the bits of the old sd outside the field. -/
theorem exec_bfi_of_fits (hd : s.readsS d.toNat) (ha : s.readsS a.toNat) (hfits : p.toNat + l.toNat < 64) :
    exec (.bfi d a l p) s = .next (s.setS d.toNat (insertField l.toNat p.toNat (s.getS d.toNat) (s.getS a.toNat))).advance := by
  rw [exec_bfi, execBfi, fieldOk_of_fits hzero hfits, sval_of_reads hd]
  exact scalar1_gives ha rfl

end

/-- Settles O10: past the payload check the shifts and fields are those of the word's bits, and a field that passes bit 63 stops at its check. -/
theorem scalarFields : Obligations.ScalarFields := by
  intro s d a n l p hzero ha x
  refine ⟨noPay_scalar1_gives hzero ha _ rfl, noPay_scalar1_gives hzero ha _ rfl, noPay_scalar1_gives hzero ha _ (sext64_low ..), ?zext,
    fun hfits => ⟨?bfx, ?bfxI, fun hd => ?bfi⟩, fun hpasses => ⟨?_, ?_, ?_⟩⟩
  case zext =>
    refine noPay_scalar1_gives hzero ha _ ?_
    rw [← BitVec.toNat_setWidth, word_toNat]
  case bfx =>
    refine fieldOk_scalar1_gives hzero ha hfits _ ?_
    rw [field64_eq_toNat, word_toNat]
  case bfxI =>
    refine fieldOk_scalar1_gives hzero ha hfits _ ?_
    rw [field64_eq_toNat, sext64_toNat]
  case bfi => exact ⟨_, exec_bfi_of_fits hzero hd ha hfits, fun k hk => getLsbD_insertField _ _ _ _ hk⟩
  all_goals exact fieldOk_of_passes hzero hpasses _ _

end Sys2Proof.Machine
end

section
/-! PROOF. The affine scalar forms on dry operands (R89 to R93, Table 07-1); O11. -/

namespace Sys2Proof.Machine

open Sys2Proof

section

variable {s : State} {d a b : Nat} {v y : Word} {o : Affine} (ha : s.readsS a)

include ha

theorem affineS_gives (hb : s.readsS b) (hv : o.app (s.getS a) (s.getS b) = v) :
    finish s (s.affineS o d a b) = .next (s.setS d v).advance := by
  simp only [State.affineS, ha.1, hb.1, sval_of_reads ha, sval_of_reads hb, hv, finish]

theorem affineI_gives (hv : o.app (s.getS a) y = v) : finish s (s.affineI o d a y) = .next (s.setS d v).advance := by
  simp only [State.affineI, ha.1, sval_of_reads ha, hv, finish]

end

/-- SHLI is a product with 2^n, and a product with a power of two shifts. -/
theorem mul_one_shiftLeft (x : Word) (n : Nat) : x * (1#64 <<< n) = x <<< n :=
  (BitVec.shiftLeft_eq_mul_twoPow x n).symm

/-- Settles O11: with dry, clean operands each affine form is its operation of the two values. -/
theorem scalarAffine : Obligations.ScalarAffine := by
  intro s d a b i n hwetA hwetB hcleanA hcleanB
  have ha : s.readsS a.toNat := ⟨hwetA, hcleanA⟩
  have hb : s.readsS b.toNat := ⟨hwetB, hcleanB⟩
  refine ⟨affineS_gives ha hb rfl, affineS_gives ha hb rfl, affineS_gives ha hb rfl, affineI_gives ha rfl, affineI_gives ha (BitVec.add_zero _),
    fun hzero => ?_⟩
  rw [exec_shli, execShli, noPay_of_zero hzero]
  exact affineI_gives ha (mul_one_shiftLeft ..)

end Sys2Proof.Machine
end

section
/-! PROOF. What a write of a scalar or capability register changes (R19, R62, R87, R89 to R93, R105); O13. -/

namespace Sys2Proof.Machine

open Sys2Proof

/-! ## Capability registers -/

section

variable (s : State) (d : Nat) (k : Cap)

theorem cval_setC_self : (s.setC d k).advance.cval d = .ok k := by
  simp only [State.cval, State.getC, Scribe.getC, State.setC, State.advance_r, State.onR_r, look_put_self, Bool.false_eq_true, if_false]

theorem cval_setC_ne {n : Nat} (hn : n ≠ d) : (s.setC d k).advance.cval n = s.cval n := by
  simp only [State.cval, State.getC, Scribe.getC, State.setC, State.advance_r, State.onR_r, look_put_ne _ _ _ hn]

end

/-! ## Scalars -/

section

variable (s : State) (d : Nat) (v : Word)

theorem readsS_setS_self : (s.setS d v).readsS d := by
  obtain ⟨w, tags, wets, e, hnone, -⟩ := setS_cases s d v
  rw [e]
  exact ⟨hnone, look_put_self false s.me.r.ps (xKey s.me.ctl.depth d) false⟩

theorem scalarFrame_setS : s.scalarFrame (s.setS d v).advance d := by
  obtain ⟨w, tags, wets, e, -, hrec⟩ := setS_cases s d v
  rw [e]
  exact ⟨rfl, fun a => ⟨rfl, rfl, rfl, rfl⟩, rfl,
    fun k hk => ⟨look_put_ne 0 s.me.r.x v hk, look_put_ne false s.me.r.ps false hk, hrec k hk⟩, rfl, rfl, rfl⟩

theorem pos_setS_advance :
    (s.setS d v).advance.me.ctl.pc = s.me.ctl.pc + 32 ∧ (s.setS d v).advance.me.ctl.remain = s.me.ctl.remain - 1 := by
  obtain ⟨w, tags, wets, e, -, -⟩ := setS_cases s d v
  rw [e]
  exact ⟨rfl, rfl⟩

end

/-- Settles O13: `setC` writes two tables at one key, and `setS_cases` names all that `setS` writes. -/
theorem registerFrames : Obligations.RegisterFrames := by
  refine ⟨fun s d k => ?_, fun s d v => ?_⟩
  · exact ⟨cval_setC_self s d k, fun n hn => cval_setC_ne s d k hn, rfl, fun a => ⟨rfl, rfl, rfl, rfl⟩, rfl, rfl, rfl, rfl, rfl, rfl⟩
  · have hget : (s.setS d.toNat v).getS d.toNat = v := getS_setS_self s d.toNat v
    have hval : (s.setS d.toNat v).sval d.toNat = .ok v := by rw [sval_of_reads (readsS_setS_self s d.toNat v), hget]
    exact ⟨hget, hval, scalarFrame_setS s d.toNat v, pos_setS_advance s d.toNat v⟩

end Sys2Proof.Machine
end

section
/-! PROOF. Branches on scalars and on predicates (R94 to R96, R114, R178, Table 05-5); O14. -/

namespace Sys2Proof.Machine

open Sys2Proof

/-! ## Targets (R94) -/

section

variable {s : State} {t : Word}

theorem targetCheck_of_good (h : s.goodTarget t) : targetCheck s.me.ctl.codeCap t = .ok () := by
  obtain ⟨halign, hbase, htop⟩ := h
  rw [targetCheck, if_neg (not_not_intro halign), if_neg (by omega)]

theorem targetCheck_of_misaligned (h : t.toNat % 32 ≠ 0) :
    targetCheck s.me.ctl.codeCap t = trap { code := cALIGN, detail := 2, tinfo := 496, taddr := t.toNat } := if_pos h

theorem targetCheck_of_outside (halign : t.toNat % 32 = 0) (hbad : ¬ s.goodTarget t) :
    targetCheck s.me.ctl.codeCap t = trap { code := cCAP_BOUNDS, detail := 2, tinfo := 496, taddr := t.toNat } := by
  have hout : t.toNat < s.me.ctl.codeCap.base ∨ s.me.ctl.codeCap.top < t.toNat + 32 :=
    Decidable.byContradiction fun hin => hbad ⟨halign, by omega, by omega⟩
  rw [targetCheck, if_neg (not_not_intro halign), if_pos hout]

/-- R94: a transfer taken when `c` holds, with the checks of its target when it is taken. -/
theorem branchTo_branches {c : Prop} {b : Bool} (h : b = true ↔ c) (t : Word) : s.branches c t (finishAt s (s.branchTo b t)) := by
  cases b with
  | false =>
    have hc : ¬ c := fun hc => Bool.false_ne_true (h.2 hc)
    exact ⟨fun _ => rfl, fun hc' => absurd hc' hc, fun hc' => absurd hc' hc, fun hc' => absurd hc' hc⟩
  | true =>
    refine ⟨fun hc => absurd (h.1 rfl) hc, fun _ hgood => ?_, fun _ halign => ?_, fun _ halign hbad => ?_⟩
    · simp only [State.branchTo, if_true, targetCheck_of_good hgood, finishAt]
    · simp only [State.branchTo, if_true, targetCheck_of_misaligned halign, trap, finishAt]
    · simp only [State.branchTo, if_true, targetCheck_of_outside halign hbad, trap, finishAt]

end

/-! ## Conditions on scalars (R95) -/

section

variable {s : State} {a b : BitVec 5} {o : BitVec 12} {x y : Word} {c : Prop}

theorem branch1_branches (hx : s.sval a.toNat = .ok x) {f : Word → Bool} (h : f x = true ↔ c) :
    s.branches c (s.target o) (finishAt s (s.branch1 a o f)) := by
  simp only [State.branch1, hx]
  exact branchTo_branches h _

theorem branch2_branches (hx : s.sval a.toNat = .ok x) (hy : s.sval b.toNat = .ok y) {f : Word → Word → Bool} (h : f x y = true ↔ c) :
    s.branches c (s.target o) (finishAt s (s.branch2 a b o f)) := by
  simp only [State.branch2, hx, hy]
  exact branchTo_branches h _

theorem exec_jr_branches (hx : s.sval a.toNat = .ok x) : s.branches True x (exec (.jr a) s) := by
  rw [exec_jr, execJr, hx]
  exact branchTo_branches (iff_of_true rfl trivial) x

end

/-! ## Conditions on lanes (R96) -/

/-- Words are equal when their lanes are. -/
theorem eq_iff_bitOf {m n : Word} : m = n ↔ ∀ l < 64, bitOf m l = bitOf n l := by
  refine ⟨fun h l _ => h ▸ rfl, fun h => BitVec.eq_of_getLsbD_eq fun l hl => ?_⟩
  rw [← bitOf_eq_getLsbD, ← bitOf_eq_getLsbD]
  exact h l hl

theorem eq_zero_iff_bitOf {m : Word} : m = 0 ↔ ∀ l < 64, ¬ bitOf m l = true := by
  rw [eq_iff_bitOf]
  simp only [bitOf_eq_getLsbD, BitVec.ofNat_eq_ofNat, BitVec.getLsbD_zero, Bool.not_eq_true]

theorem ne_zero_iff_bitOf {m : Word} : m ≠ 0 ↔ ∃ l < 64, bitOf m l = true := by
  simp only [ne_eq, eq_zero_iff_bitOf, Classical.not_forall, Classical.not_not, exists_prop]

section

variable (s : State) (q : BitVec 3)

theorem holds_eq_zero_iff : s.holds q = 0 ↔ ∀ l < 64, bitOf s.live l = true → ¬ bitOf (s.getQ q.toNat) l = true := by
  simp only [eq_zero_iff_bitOf, State.holds, bitOf_and, Bool.and_eq_true, not_and]

theorem holds_ne_zero_iff : s.holds q ≠ 0 ↔ ∃ l < 64, bitOf s.live l = true ∧ bitOf (s.getQ q.toNat) l = true := by
  simp only [ne_zero_iff_bitOf, State.holds, bitOf_and, Bool.and_eq_true]

theorem holds_eq_live_iff : s.holds q = s.live ↔ ∀ l < 64, bitOf s.live l = true → bitOf (s.getQ q.toNat) l = true := by
  simp only [eq_iff_bitOf, State.holds, bitOf_and, Bool.and_eq_left_iff_imp]

variable {s q}

/-- R96: BRU on a predicate that agrees in the live lanes is a branch. -/
theorem exec_bru_of_uniform (o : BitVec 12) (h : s.holds q = s.live ∨ s.holds q = 0) :
    exec (.bru q o) s = finishAt s (s.branchTo (decide (s.holds q ≠ 0)) (s.target o)) := by
  have hagree : ¬ (s.holds q ≠ 0 ∧ s.holds q ≠ s.live) := fun hmixed => h.elim hmixed.2 hmixed.1
  simp only [exec_bru, execBru, if_neg hagree]

/-- R178: BRU on one that differs between live lanes. -/
theorem exec_bru_of_mixed (o : BitVec 12) (hsome : s.holds q ≠ 0) (hall : s.holds q ≠ s.live) :
    exec (.bru q o) s = .next (s.takeTrap { code := cUNIFORM, detail := 1, tinfo := (mismatch s.live (s.holds q)).toNat }) := by
  simp only [exec_bru, execBru, if_pos (And.intro hsome hall), trap, finishAt]

end

/-- Settles O14: each form is a transfer under its condition (R94); a predicate's is told from the lanes in which it holds. -/
theorem branches : Obligations.Branches := by
  constructor
  · intro s q o on yes
    have hsome : s.holds q ≠ 0 ↔ ∃ l < 64, on l ∧ yes l := holds_ne_zero_iff s q
    have hnone : s.holds q = 0 ↔ ∀ l < 64, on l → ¬ yes l := holds_eq_zero_iff s q
    have hall : s.holds q = s.live ↔ ∀ l < 64, on l → yes l := holds_eq_live_iff s q
    refine ⟨branchTo_branches (decide_eq_true_iff.trans hsome) _, branchTo_branches (decide_eq_true_iff.trans hall) _,
      branchTo_branches (decide_eq_true_iff.trans hnone) _, fun huniform => ?_, fun hyes ⟨l, hl, hon, hno⟩ => ?_⟩
    · rw [exec_bru_of_uniform o (huniform.imp hall.2 hnone.2)]
      exact branchTo_branches (decide_eq_true_iff.trans hsome) _
    · exact ⟨_, exec_bru_of_mixed o (hsome.2 hyes) fun h => hno (hall.1 h l hl hon), rfl, rfl⟩
  · intro s a b o x y hx
    refine ⟨branch1_branches hx decide_eq_true_iff, branch1_branches hx decide_eq_true_iff, branchTo_branches (iff_of_true rfl trivial) _,
      exec_jr_branches hx, fun hy => ?_⟩
    exact ⟨branch2_branches hx hy decide_eq_true_iff, branch2_branches hx hy decide_eq_true_iff, branch2_branches hx hy decide_eq_true_iff,
      branch2_branches hx hy (decide_eq_true_iff.trans Int.not_lt.symm), branch2_branches hx hy decide_eq_true_iff,
      branch2_branches hx hy (decide_eq_true_iff.trans Nat.not_lt.symm)⟩

end Sys2Proof.Machine
end

section
/-! PROOF. Reading scalars that are dry, pending, faulted or poisoned (R153, R156, R177); O6. -/

namespace Sys2Proof.Machine

open Sys2Proof

section

variable {s : State} {code : Nat} {r : WetRec}

/-- A use of a scalar that carries a record ends as its record lets it. -/
theorem sval_of_wet {e : Stop} (hwet : s.me.wetS code = some r) (hstop : s.me.needDry r = .error e) : s.sval code = .error e := by
  simp only [State.sval, hwet, hstop]

theorem needDry_of_pending (c : Scribe) (hpending : r.fault = none) : c.needDry r = .error (.park .wetOperand) := by
  simp only [Scribe.needDry, hpending, parkOn]

theorem needDry_of_faulted (c : Scribe) {cause : Nat} (hfault : r.fault = some cause) : c.needDry r = .error (.trap (c.wetFault r cause)) := by
  simp only [Scribe.needDry, hfault, trap]

/-- R156: the report names the underlying cause, whether or not the tag's own record still stands. -/
theorem wetFault_code_detail (c : Scribe) (r : WetRec) (cause : Nat) :
    (c.wetFault r cause).code = cWET_FAULT ∧ (c.wetFault r cause).detail = cause := by
  unfold Scribe.wetFault
  cases find c.wet.tags r.tag with
  | none => exact ⟨rfl, rfl⟩
  | some t => exact ⟨rfl, rfl⟩

theorem sval_of_poisoned (hdry : s.me.wetS code = none) (hpoison : look false s.me.r.ps (xKey s.me.ctl.depth code) = true) :
    s.sval code = .error (.trap (poisonS code)) := by
  simp only [State.sval, hdry, hpoison, if_true, trap]

end

/-- Settles O6: a use goes by the register's record, pending or faulted (R153, R156), and without one by its mark of poison (R177). -/
theorem scalarUse : Obligations.ScalarUse := by
  intro s code
  refine ⟨fun hdry hclean => sval_of_reads ⟨hdry, hclean⟩, fun r hwet hpending => ?_, fun r cause hwet hfault => ?_, sval_of_poisoned⟩
  · exact sval_of_wet hwet (needDry_of_pending s.me hpending)
  · exact ⟨s.me.wetFault r cause, sval_of_wet hwet (needDry_of_faulted s.me hfault), wetFault_code_detail s.me r cause⟩

end Sys2Proof.Machine
end

section
/-! PROOF. Affine scalar forms on one wet operand (R149, R151, R155, Table 07-1); O12. -/

namespace Sys2Proof.Machine

open Sys2Proof

/-! ## The record an affine form leaves (Table 07-1) -/

/-- R151, R155: with the wet operand first, scale and offset of the result resolve to what the form gives on the value of the operand. -/
theorem Affine.wet_left_resolves {w : Nat} (o : Affine) (a x y v : BitVec w) :
    (o.wet true a x y).1 * v + (o.wet true a x y).2 = o.app (a * v + x) y := by
  cases o with
  | add => exact (BitVec.add_assoc ..).symm
  | sub =>
    change a * v + (x - y) = a * v + x - y
    rw [BitVec.sub_eq_add_neg, BitVec.sub_eq_add_neg, BitVec.add_assoc]
  | mul =>
    change a * y * v + x * y = (a * v + x) * y
    rw [BitVec.mul_assoc, BitVec.mul_comm y v, ← BitVec.mul_assoc, BitVec.add_mul]

/-- The same with the wet operand second: a sum or a product leaves the record it leaves with the operands exchanged. -/
theorem Affine.wet_right_resolves {w : Nat} (o : Affine) (a x y v : BitVec w) :
    (o.wet false a x y).1 * v + (o.wet false a x y).2 = o.app y (a * v + x) := by
  cases o with
  | add => exact (Affine.wet_left_resolves .add a x y v).trans (BitVec.add_comm ..)
  | sub =>
    change -a * v + (y - x) = y - (a * v + x)
    rw [BitVec.neg_mul, BitVec.add_comm, ← BitVec.sub_eq_add_neg, BitVec.sub_sub, BitVec.add_comm x]
  | mul => exact (Affine.wet_left_resolves .mul a x y v).trans (BitVec.mul_comm ..)

/-! ## Writing a wet result -/

/-- Putting a record on a scalar word: of all else only the tags in use and WETS may change. -/
theorem putWetS_cases (c : Scribe) (key : Nat) (r : WetRec) (o : Word) :
    ∃ tags wets, c.putWetS key r o = { c with wet := { c.wet with s := set c.wet.s key r, tags := tags }, ctl := { c.ctl with wets := wets },
                                              r := { c.r with x := put 0 c.r.x key o, ps := put false c.r.ps key false } } := by
  unfold Scribe.putWetS
  cases find c.wet.s key with
  | none => exact ⟨c.wet.tags, c.ctl.wets, rfl⟩
  | some q => exact releaseTag_cases _ q.tag

/-- R149: with fewer than 32 records there is room for one more. -/
theorem wetS_of_room {s : State} (hroom : s.me.wet.recCount < 32) (d : Nat) (r : WetRec) (o : Word) :
    s.wetS d r o = .ok { s with me := s.me.putWetS (xKey s.me.ctl.depth d) r o } := by
  have hfree : ¬ ((find s.me.wet.s (xKey s.me.ctl.depth d)).isNone ∧ 32 ≤ s.me.wet.recCount) := fun h => by omega
  simp only [State.wetS, if_neg hfree]

/-- The outcome `o` leaves scalar `d` wet under the tag of `r`, such that it takes the value `v` once that tag resolves to `x` (R155), and
leaves memory and every other scalar alone. -/
def State.staysWetS (s : State) (r : WetRec) (x : Word) (d : Nat) (o : Host.Outcome State Fault Refusal) (v : Word) : Prop :=
  ∃ t, o = .next t ∧ (∃ q, t.me.wetS d = some q ∧ q.tag = r.tag ∧ q.fault = r.fault ∧ q.a * x + t.getS d = v)
    ∧ s.sameElse t ∧ s.sameMemory t ∧ s.sameScalarsBut t (xKey s.me.ctl.depth d)

section

variable {s : State} {r : WetRec} {x v y : Word} {d a b : Nat} (hroom : s.me.wet.recCount < 32)

include hroom

theorem finish_wetS_stays {k o : Word} (hv : k * x + o = v) : s.staysWetS r x d (finish s (s.wetS d { r with a := k } o)) v := by
  obtain ⟨tags, wets, e⟩ := putWetS_cases s.me (xKey s.me.ctl.depth d) { r with a := k } o
  rw [wetS_of_room hroom, e]
  refine ⟨_, rfl, ⟨_, find_set_self .., rfl, rfl, ?_⟩, rfl, fun a => ⟨rfl, rfl, rfl, rfl⟩, fun j hj => ?_⟩
  · rw [← hv]
    exact congrArg (k * x + ·) (look_put_self ..)
  · exact ⟨look_put_ne 0 s.me.r.x o hj, look_put_ne false s.me.r.ps false hj, find_set_ne _ _ hj⟩

/-! ## Forms with one wet operand -/

variable (ha : s.me.wetS a = some r)

include ha

theorem affineS_left_stays (o : Affine) (hb : s.readsS b) :
    s.staysWetS r x d (finish s (s.affineS o d a b)) (o.app (r.a * x + s.getS a) (s.getS b)) := by
  simp only [State.affineS, ha, hb.1, sval_of_reads hb]
  exact finish_wetS_stays hroom (o.wet_left_resolves ..)

theorem affineS_right_stays (o : Affine) (hb : s.readsS b) :
    s.staysWetS r x d (finish s (s.affineS o d b a)) (o.app (s.getS b) (r.a * x + s.getS a)) := by
  simp only [State.affineS, ha, hb.1, sval_of_reads hb]
  exact finish_wetS_stays hroom (o.wet_right_resolves ..)

theorem affineI_stays (o : Affine) (hv : o.app (r.a * x + s.getS a) y = v) : s.staysWetS r x d (finish s (s.affineI o d a y)) v := by
  simp only [State.affineI, ha]
  exact finish_wetS_stays hroom ((o.wet_left_resolves ..).trans hv)

end

/-- Settles O12: whichever operand is wet, scale and offset of the result are those that Table 07-1 gives, and resolve to the form's value. -/
theorem affineStaysWet : Obligations.AffineStaysWet := by
  intro s d a b i n r x hwet hdry hclean hroom hzero v y wetWith
  have hb : s.readsS b.toNat := ⟨hdry, hclean⟩
  refine ⟨affineS_left_stays hroom hwet .add hb, affineS_right_stays hroom hwet .add hb, affineS_left_stays hroom hwet .sub hb,
    affineS_right_stays hroom hwet .sub hb, affineS_left_stays hroom hwet .mul hb, affineS_right_stays hroom hwet .mul hb,
    affineI_stays hroom hwet .add rfl, affineI_stays hroom hwet .add (BitVec.add_zero _), ?shli⟩
  rw [exec_shli, execShli, noPay_of_zero hzero]
  exact affineI_stays hroom hwet .mul (mul_one_shiftLeft ..)

end Sys2Proof.Machine
end

section
/-! PROOF. FNEG of a record of kind int32 that already carries a step (R152, Table 07-2); O37. -/

namespace Sys2Proof.Machine

open Sys2Proof

/-! ## A record that is fresh by its kind, scale and offset, and yet carries a step -/

/-- Lane 0 wet under tag 0, with a negated addition for a step. -/
def negatedSum : WetRec :=
  { tag := 0, kind := .int32, a := 1, step := some { op := .add, neg := true, rm := 0, daz := false, ftz := false, draws := [] }, mask := 1, fault := none }

/-- A scribe whose v1 carries that record; its other lane registers are dry. -/
def negatedSumInV1 : State := { me := { wet := { v := [(1, negatedSum)] }, run := { life := .running } } }

/-- What lane 0 of v3 takes when 1.0 arrives, where an outcome leaves a step in v3 (R155). -/
def oneThroughV3 (o : Host.Outcome State Fault Refusal) : Option (Lane × Flags) :=
  match o with
  | .next t => (match t.me.wetV 3 with
    | some q => q.step.map fun st => resolveStep st (q.a.setWidth 32) (t.getV 3 0) plusOne 0
    | none => none)
  | _ => none

theorem oneThroughV3_of_step {o : Host.Outcome State Fault Refusal} {t : State} {q : WetRec} {st : WetStep} (hnext : o = .next t)
    (hwet : t.me.wetV 3 = some q) (hstep : q.step = some st) :
    oneThroughV3 o = some (resolveStep st (q.a.setWidth 32) (t.getV 3 0) plusOne 0) := by
  simp only [hnext, oneThroughV3, hwet, hstep, Option.map_some]

/-- FNEG turns the sign of the step over that it finds: the sum with 0 is negated no more, and gives 1.0. -/
theorem oneThroughV3_fneg : oneThroughV3 (exec (.fneg 0 3 1) negatedSumInV1) = some (plusOne, 0) := by
  decide +kernel

theorem fpSign_plusOne : (fpSign negatedSumInV1.me.ctl .f32 true plusOne.toNat (look 0 negatedSumInV1.me.r.rng 0)).v = minusOne := by
  decide +kernel

/-- R153, R177: a register without a record or a mark of poison is dry. -/
theorem vdry_of_no_record {s : State} {reg : Nat} {m : Word} (hdry : s.me.wetV reg = none) (hclean : s.me.poisonLanes reg m true = 0) :
    s.vdry reg m = .ok () := by
  simp only [State.vdry, hdry, hclean, if_true]

/-- What O37 asks of v1 as a fresh operand, of v2 as a dry one, and of v3. -/
theorem negatedSumInV1_fresh :
    negatedSumInV1.me.wetV 1 = some negatedSum ∧ negatedSum.mask &&& negatedSumInV1.active 0 ≠ 0
      ∧ negatedSumInV1.me.poisonLanes 1 (negatedSumInV1.active 0) true = 0 ∧ negatedSumInV1.me.wetV 2 = none
      ∧ negatedSumInV1.me.poisonLanes 2 (negatedSumInV1.active 0) true = 0 ∧ (∀ l, l < 64 → bitOf negatedSum.mask l = true → negatedSumInV1.getV 1 l = 0) ∧ negatedSumInV1.me.wetV 3 = none
      ∧ bitOf (negatedSum.mask &&& negatedSumInV1.active 0) 0 = true := by
  decide +kernel

/-- Refutes O37: the statement takes a record that is int32 with a = 1 and o = 0 for fresh, whether or not it carries a step, and FNEG goes by
the step first (Table 07-2): in `negatedSumInV1` it makes 1.0 of 1.0. The model's words leave no such record, as one with a step is of the kind
of a step (R152), but nothing in the statement excludes it; the hypothesis r.step = none would. -/
theorem not_laneStaysWet : ¬ Obligations.LaneStaysWet := by
  intro h
  obtain ⟨hwet, hmask, hclean, hdry, hdryClean, hzero, hfree, hbit⟩ := negatedSumInV1_fresh
  obtain ⟨-, -, hsteps⟩ := h negatedSumInV1 0 3 1 2 2 0 0 negatedSum hwet rfl hmask hclean (vdry_of_no_record hdry hdryClean) (by decide)
  have hfits (q : WetRec) (hq : negatedSumInV1.me.wetV 3 = some q) : q.mask &&& ~~~(negatedSum.mask &&& negatedSumInV1.active 0) = 0 := by
    rw [hfree] at hq
    cases hq
  obtain ⟨-, -, -, -, ⟨t, q, st, hnext, hstepped, -, hlanes, hstep, hresolve, -⟩, -⟩ := hsteps hfits rfl hzero
  obtain ⟨hvalue, -⟩ := hresolve 0 plusOne (by decide) (hlanes ▸ hbit)
  have hone := (oneThroughV3_of_step hnext hstepped hstep).symm.trans oneThroughV3_fneg
  have hresult : (plusOne, (0 : Flags)).1 = minusOne := by
    rw [← Option.some.inj hone]
    exact (congrArg Prod.fst hvalue).trans fpSign_plusOne
  exact absurd hresult (by decide)

end Sys2Proof.Machine
end

section
/-! PROOF. A late fault that writes to host memory (R156, R340, R371); O55. -/

namespace Sys2Proof.Machine

open Sys2Proof

/-! ## A load in flight whose word turns uncorrectable -/

/-- A load of 64 bits of global memory at bit address 0x200, not yet arrived. -/
def struckTag : TagRec :=
  { scalar := true, cap := mkCap 0 0x10000 0xFF 0, space := 0, addr := 0x200, width := 64, signed := false, order := 0, scope := 0, pc := 32, amo := none,
    updated := false, x := 0, lanes := [], seen := [], poisoned := false, fault := none, queued := 0 }

/-- The scribe that waits for it: s0 carries its tag. -/
def struckScribe : Scribe :=
  { at_ := { asid := 1 }
    wet := { s := [(8, { tag := 0, kind := .int64, a := 1, step := none, mask := 0, fault := none })], tags := [(0, struckTag)], next := 1 }
    run := { life := .running } }

/-- The package around it: a TLB holds the page, at byte address 2^40; the word read is uncorrectable; the host has set up a notice ring
of one entry at byte 0 of its memory. -/
def struck : State :=
  { me := struckScribe
    tlb := [(tlbKey 320 1 0, ({ phys := 2 ^ 40, dev := false, x := false, wr := true, rd := true } : Leaf).pack)]
    eccHard := [((8 * 2 ^ 40 + 0x200) / 256, 1)]
    mgmt := { notice := some (0, 1) } }

/-- Byte 0 of host memory after an outcome. -/
def hostByteAfter (o : Host.Outcome State Fault Refusal) : Byte :=
  match o with
  | .next t => readByte t.host 0
  | _ => 0

/-- The scribe, its tag, and an uncorrectable word, which can fault the access (R156). -/
theorem struck_faults :
    struck.tagOf 0 0 = some (struckScribe, struckTag) ∧ struck.lateFault struckScribe struckTag 2 = true ∧ readByte struck.host 0 = 0 := by
  decide +kernel

/-- The record of the uncorrectable word is of kind 2, which notifies the host (R340, R371): the notice's own kind, 2, stands in its first byte. -/
theorem hostByteAfter_struck : hostByteAfter (exec (.wetAccessFault 0 0 2) struck) = 2 := by
  decide +kernel

/-- Refutes O55: a late fault on an uncorrectable word leaves memory alone only while the host has no notice ring. In `struck` it has one, and
the error's record writes a notice there. -/
theorem not_scribeEvents : ¬ Obligations.ScribeEvents := by
  rintro ⟨hwet, -⟩
  obtain ⟨htag, hlate, hbefore⟩ := struck_faults
  obtain ⟨-, -, -, hfault⟩ := hwet struck 0 0 2 struckScribe struckTag htag rfl
  obtain ⟨t, -, hexec, -, hmem, -⟩ := hfault rfl rfl rfl hlate
  obtain ⟨-, -, hhost, -⟩ := hmem 0
  have hafter : readByte t.host 0 = 2 := (congrArg hostByteAfter hexec).symm.trans hostByteAfter_struck
  rw [hhost, hbefore] at hafter
  exact absurd hafter (by decide)

end Sys2Proof.Machine
end

section
/-! PROOF. Lane registers that a handler's entry and return set aside, taking a trap, and the words TRAP and BRK (R168, R172, R378); O24. -/

namespace Sys2Proof.Machine

open Sys2Proof

/-! ## Moving t0-t3 aside and back -/

theorem look_eq_find {α : Type} (d : α) (t : Tbl α) (k : Nat) : look d t k = (find t k).getD d := by
  induction t with
  | nil => rfl
  | cons p t ih =>
    obtain ⟨j, v⟩ := p
    by_cases hj : j = k <;> simp [look, find, hj, ih]

/-- Moving registers leaves every key below them, where they stand and where they go. -/
theorem find_moveRegs_of_below {α : Type} (t : Tbl α) {per f g k : Nat} (hf : k < per * f) (hg : k < per * g) :
    find (moveRegs per f g t) k = find t k := by
  induction t with
  | nil => rfl
  | cons p t ih =>
    obtain ⟨j, v⟩ := p
    rw [moveRegs, List.map_cons, ← moveRegs]
    split
    next hmoved =>
      have hstay : j ≠ k := Nat.ne_of_gt (Nat.lt_of_lt_of_le hf hmoved.1)
      have hgo : j - per * f + per * g ≠ k := by omega
      simp [find, hstay, hgo, ih]
    next => by_cases hj : j = k <;> simp [find, hj, ih]

theorem vKey_lt_of_low {g l r : Nat} (hg : g < 64) (hl : l < 64) (hr : 64 ≤ r) : vKey g l < 64 * r := by
  unfold vKey
  omega

/-! ## Releasing a tag takes no new one -/

theorem find_tags_releaseTag_of_free (c : Scribe) (tag : Nat) {n : Nat} (hfree : find c.wet.tags n = none) :
    find (c.releaseTag tag).wet.tags n = none := by
  unfold Scribe.releaseTag
  split
  · exact hfree
  · split
    · exact hfree
    · split
      · by_cases hn : n = tag
        · rw [hn]; exact find_del_self _ _
        · exact (find_del_ne _ hn).trans hfree
      · exact hfree

theorem find_tags_dropV_of_free (c : Scribe) (reg : Nat) (m : Word) {n : Nat} (hfree : find c.wet.tags n = none) :
    find (c.dropV reg m).wet.tags n = none := by
  unfold Scribe.dropV
  split
  · exact hfree
  · dsimp only
    split
    · exact find_tags_releaseTag_of_free _ _ hfree
    · exact hfree

theorem find_tags_wipeV_of_free (c : Scribe) (reg : Nat) {n : Nat} (hfree : find c.wet.tags n = none) :
    find (c.wipeV reg).wet.tags n = none :=
  find_tags_dropV_of_free c reg (BitVec.allOnes 64) hfree

/-! ## What v0-v63 hold stays -/

/-- From `c` to `c'` the registers v0-v63 keep their words, marks and records; of all else only the other lane registers, the tags in
use and WETS may change, and no tag comes into use. -/
structure Scribe.sameLow (c c' : Scribe) : Prop where
  frame : c' = { c with wet := { c.wet with v := c'.wet.v, tags := c'.wet.tags }, ctl := { c.ctl with wets := c'.ctl.wets },
                        r := { c.r with v := c'.r.v, pv := c'.r.pv } }
  words : ∀ g l, g < 64 → l < 64 → c'.getV g l = c.getV g l
  marks : ∀ g l, g < 64 → l < 64 → look 0 c'.r.pv (vKey g l) = look 0 c.r.pv (vKey g l)
  records : ∀ g, g < 64 → find c'.wet.v g = find c.wet.v g
  free : ∀ n, find c.wet.tags n = none → find c'.wet.tags n = none

namespace Scribe.sameLow

theorem refl (c : Scribe) : c.sameLow c := ⟨rfl, fun _ _ _ _ => rfl, fun _ _ _ _ => rfl, fun _ _ => rfl, fun _ h => h⟩

theorem trans {a b c : Scribe} (hab : a.sameLow b) (hbc : b.sameLow c) : a.sameLow c where
  frame := hbc.frame.trans (by rw [hab.frame])
  words g l hg hl := (hbc.words g l hg hl).trans (hab.words g l hg hl)
  marks g l hg hl := (hbc.marks g l hg hl).trans (hab.marks g l hg hl)
  records g hg := (hbc.records g hg).trans (hab.records g hg)
  free n h := hbc.free n (hab.free n h)

/-- What the control part holds beside WETS stays. -/
theorem ctl {α : Type} {c c' : Scribe} (h : c.sameLow c') (f : Ctl → α) (hf : ∀ k w, f { k with wets := w } = f k) : f c'.ctl = f c.ctl := by
  rw [h.frame]
  exact hf c.ctl c'.ctl.wets

theorem wetS {c c' : Scribe} (h : c.sameLow c') : c'.wet.s = c.wet.s := by
  rw [h.frame]

theorem scalars {c c' : Scribe} (h : c.sameLow c') : c'.r.x = c.r.x := by
  rw [h.frame]

theorem regs {c c' : Scribe} (h : c.sameLow c') : { c'.r with v := c.r.v, pv := c.r.pv } = c.r := by
  rw [h.frame]

end Scribe.sameLow

theorem sameLow_wipeV (c : Scribe) {reg : Nat} (hreg : 64 ≤ reg) : c.sameLow (c.wipeV reg) := by
  obtain ⟨v, pv, wv, tags, wets, e, hrec, hlook⟩ := wipeV_cases c reg
  have hne : ∀ {g}, g < 64 → g ≠ reg := fun hg => Nat.ne_of_lt (Nat.lt_of_lt_of_le hg hreg)
  refine ⟨by rw [e], fun g l hg hl => ?_, fun g l hg hl => ?_, fun g hg => ?_, fun n => find_tags_wipeV_of_free c reg⟩
  · rw [e]; exact (hlook g l hl).1.trans (if_neg (hne hg))
  · rw [e]; exact (hlook g l hl).2.trans (if_neg (hne hg))
  · rw [e]; exact hrec g (hne hg)

theorem sameLow_foldl_wipeV (regs : List Nat) (hregs : ∀ reg ∈ regs, 64 ≤ reg) (c : Scribe) : c.sameLow (regs.foldl Scribe.wipeV c) := by
  induction regs generalizing c with
  | nil => exact .refl c
  | cons reg regs ih =>
    exact (sameLow_wipeV c (hregs reg List.mem_cons_self)).trans (ih (fun k hk => hregs k (List.mem_cons_of_mem reg hk)) (c.wipeV reg))

theorem sameLow_moveTemps (c : Scribe) {f t : Nat} (hf : 64 ≤ f) (ht : 64 ≤ t) : c.sameLow (c.moveTemps f t) where
  frame := rfl
  words g l hg hl := by
    simp only [Scribe.getV, Scribe.moveTemps, look_eq_find, find_moveRegs_of_below _ (vKey_lt_of_low hg hl hf) (vKey_lt_of_low hg hl ht)]
  marks g l hg hl := by
    simp only [Scribe.moveTemps, look_eq_find, find_moveRegs_of_below _ (vKey_lt_of_low hg hl hf) (vKey_lt_of_low hg hl ht)]
  records g hg := find_moveRegs_of_below c.wet.v (by omega) (by omega)
  free n h := h

theorem sameLow_wipeTemps (c : Scribe) : c.sameLow c.wipeTemps := sameLow_foldl_wipeV [64, 65, 66, 67] (by decide) c

theorem sameLow_wipeHeld (c : Scribe) : c.sameLow c.wipeHeld := sameLow_foldl_wipeV [68, 69, 70, 71] (by decide) c

theorem sameLow_holdTemps (c : Scribe) : c.sameLow c.holdTemps :=
  (sameLow_wipeHeld c).trans (sameLow_moveTemps _ (by decide) (by decide))

theorem sameLow_bringTemps (c : Scribe) : c.sameLow c.bringTemps :=
  (sameLow_wipeTemps c).trans (sameLow_moveTemps _ (by decide) (by decide))

/-! ## Taking a trap (R168) -/

/-- Leaving a wait changes the run part, and the barrier of an arrival that is withdrawn. -/
theorem calmMe_cases (s : State) : ∃ bars, s.calmMe = { s with bars := bars, me := { s.me with run := s.me.run.calm } } := by
  unfold State.calmMe
  dsimp only
  split
  · split
    · exact ⟨_, rfl⟩
    · exact ⟨s.bars, rfl⟩
  · exact ⟨s.bars, rfl⟩

/-- A trap that names the next word is one taken after the word (R168). -/
theorem takeTrap_of_next (s : State) {r : Trap} (hnext : r.next = true) : s.takeTrap r = s.advance.takeTrap { r with next := false } := by
  simp [State.takeTrap, hnext]

section

variable {s : State} {r : Trap} (hpoison : r.code ≠ cPOISON) (hwet : r.code ≠ cWET_FAULT) (hout : s.me.ctl.handler = false)
  (hruns : s.me.ctl.entryRuns = true)
include hpoison hwet hout hruns

/-- The handler is entered at the word that issues: t0-t3 of its clause are set aside, then the control and run parts enter. -/
theorem takeTrap_cases_of_here (hhere : r.next = false) :
    ∃ c bars, s.me.sameLow c ∧ s.takeTrap r = { s with bars := bars, me := { c with
      ctl := c.ctl.enter (r.code + r.detail * 256) r.tinfo r.taddr, run := c.run.calm.enter r.replay } } := by
  have hfatal : (decide (r.code = cPOISON) || decide (r.code = cWET_FAULT) && decide (r.detail = 2)) = false := by
    simp [hpoison, hwet]
  simp only [State.takeTrap, hhere, hfatal, hout, hruns, Bool.false_and, Bool.false_eq_true, if_false, if_true]
  by_cases htemps : s.me.ctl.inTemps = true
  · rw [if_pos htemps]
    obtain ⟨bars, e⟩ := calmMe_cases (({ s with me := s.me.holdTemps } : State).onCtl fun c => c.enter (r.code + r.detail * 256) r.tinfo r.taddr)
    exact ⟨s.me.holdTemps, bars, sameLow_holdTemps s.me, by rw [e]; rfl⟩
  · rw [if_neg htemps]
    obtain ⟨bars, e⟩ := calmMe_cases (s.onCtl fun c => c.enter (r.code + r.detail * 256) r.tinfo r.taddr)
    exact ⟨s.me, bars, .refl s.me, by rw [e]; rfl⟩

theorem entered_takeTrap_of_here (hhere : r.next = false) : s.entered (s.takeTrap r) r := by
  obtain ⟨c, bars, hlow, e⟩ := takeTrap_cases_of_here hpoison hwet hout hruns hhere
  rw [State.entered, hhere, e]
  rw [Nat.mul_comm 256]
  exact ⟨BitVec.toNat_ofNat _ _, BitVec.toNat_ofNat _ _, BitVec.toNat_ofNat _ _, hlow.ctl Ctl.wordAt fun _ _ => rfl,
    hlow.ctl Ctl.tvec fun _ _ => rfl, rfl, rfl, rfl, hlow.ctl Ctl.depth fun _ _ => rfl, hlow.ctl Ctl.fpm fun _ _ => rfl,
    hlow.ctl Ctl.part fun _ _ => rfl, hlow.ctl Ctl.tvec fun _ _ => rfl, hlow.regs,
    fun g l hg hl => ⟨hlow.words g l hg hl, hlow.marks g l hg hl⟩, hlow.wetS, hlow.records, fun a => ⟨rfl, rfl, rfl, rfl⟩, rfl, rfl, rfl⟩

/-- R168: a trap that stops no team enters the handler. -/
theorem entered_takeTrap : s.entered (s.takeTrap r) r := by
  cases hnext : r.next with
  | false => exact entered_takeTrap_of_here hpoison hwet hout hruns hnext
  | true =>
    have h : s.advance.entered (s.advance.takeTrap { r with next := false }) { r with next := false } :=
      entered_takeTrap_of_here hpoison hwet hout hruns rfl
    rw [takeTrap_of_next s hnext]
    simp only [State.entered, hnext, if_true]
    exact h

end

/-! ## A stop for the host (R378) -/

theorem traceMe_cases (s : State) (type payload : Nat) : ∃ clusters, s.traceMe type payload = { s with clusters := clusters } := by
  unfold State.traceMe State.trace
  split
  · exact ⟨s.clusters, rfl⟩
  · split
    · exact ⟨_, rfl⟩
    · exact ⟨s.clusters, rfl⟩

theorem notice_cases (s : State) (kind asid value : Nat) : ∃ host mgmt, s.notice kind asid value = { s with host := host, mgmt := mgmt } := by
  unfold State.notice
  dsimp only
  split <;> exact ⟨_, _, rfl⟩

/-- Beside the run part, a stop for the host writes trace records and the host's notice. -/
theorem debugStop_cases (s : State) :
    ∃ clusters host mgmt, s.debugStop = { s.onRun fun r => { r with life := .debugHeld, stopCause := cDEBUG_STOP, stepOne := false } with
      clusters := clusters, host := host, mgmt := mgmt } := by
  unfold State.debugStop
  dsimp only
  generalize s.onRun _ = s1
  obtain ⟨c1, e1⟩ := traceMe_cases s1 0x05 (s1.liveLanes s1.me.at_).toNat
  rw [e1]
  obtain ⟨c2, e2⟩ := traceMe_cases { s1 with clusters := c1 } 0x06 (s1.codeWordNo % 2 ^ 32 * 2 ^ 32 + cDEBUG_STOP)
  rw [e2]
  obtain ⟨host, mgmt, e3⟩ := notice_cases { s1 with clusters := c2 } 5 s1.me.at_.asid.toNat 0
  exact ⟨c2, host, mgmt, e3⟩

/-- Settles O24: neither TRAP nor BRK stops a team, so each enters the handler with the next word's address; under break capture BRK ends its
word and then stops its scribe. -/
theorem trapWords : Obligations.TrapWords := by
  intro s n hout hruns
  have henters : ∀ {code : Nat}, code ≠ cPOISON → code ≠ cWET_FAULT →
      s.entered (s.takeTrap { code := code, tinfo := n.toNat, next := true }) { code := code, tinfo := n.toNat, next := true } :=
    fun hpoison hwet => entered_takeTrap hpoison hwet hout hruns
  refine ⟨⟨_, rfl, henters (by decide) (by decide)⟩, fun hcapture => ⟨_, ?_, henters (by decide) (by decide)⟩, fun hcapture => ?_⟩
  · rw [exec_brk, execBrk, if_neg (Bool.eq_false_iff.1 hcapture)]
    rfl
  · obtain ⟨clusters, host, mgmt, e⟩ := debugStop_cases s.advance
    refine ⟨s.advance.debugStop, by rw [exec_brk, execBrk, if_pos hcapture], ?_⟩
    rw [e]
    exact ⟨rfl, rfl, rfl, rfl, rfl, rfl⟩

end Sys2Proof.Machine
end

section
/-! PROOF. Leaving a handler, and the faulted load that TRET.REPLAY performs again (R103, R104, R155, R160, R170, R171); O25. -/

namespace Sys2Proof.Machine

open Sys2Proof

/-! ## Tables whose keys rise -/

theorem rising_iff_pairwise {α : Type} {t : Tbl α} : rising t = true ↔ t.Pairwise fun p q => p.1 < q.1 := by
  induction t with
  | nil => simp [rising]
  | cons p t ih => rw [rising_cons, List.pairwise_cons, ih]

theorem rising_filter {α : Type} {t : Tbl α} (q : Nat × α → Bool) (h : rising t = true) : rising (t.filter q) = true :=
  rising_iff_pairwise.2 ((rising_iff_pairwise.1 h).filter q)

theorem find_eq_none_iff {α : Type} {t : Tbl α} {k : Nat} : find t k = none ↔ ∀ p ∈ t, p.1 ≠ k := by
  induction t with
  | nil => simp [find]
  | cons p t ih =>
    obtain ⟨j, v⟩ := p
    by_cases hj : j = k <;> simp [find, hj, ih]

/-- In a table whose keys rise, the entry found at a key is the only one there. -/
theorem mem_iff_find {α : Type} {t : Tbl α} {k : Nat} {v : α} (h : rising t = true) : (k, v) ∈ t ↔ find t k = some v := by
  induction t with
  | nil => simp [find]
  | cons p t ih =>
    obtain ⟨j, w⟩ := p
    obtain ⟨habove, hrest⟩ := rising_cons.1 h
    by_cases hj : j = k
    · have hout : (k, v) ∉ t := fun hmem => Nat.ne_of_gt (habove _ hmem) hj.symm
      simp [find, hj, hout, eq_comm]
    · simp [find, hj, ih hrest, Ne.symm hj]

/-- Dropping the entry found at a key leaves none there. -/
theorem find_filter_of_dropped {α : Type} {t : Tbl α} {k : Nat} {v : α} {q : Nat × α → Bool} (h : rising t = true) (hfind : find t k = some v)
    (hdrop : q (k, v) = false) : find (t.filter q) k = none := by
  refine find_eq_none_iff.2 fun p hp hk => ?_
  obtain ⟨hmem, hkeep⟩ := List.mem_filter.1 hp
  obtain ⟨j, w⟩ := p
  subst hk
  rw [Option.some_inj.1 (((mem_iff_find h).1 hmem).symm.trans hfind), hdrop] at hkeep
  exact Bool.false_ne_true hkeep

/-! ## Resolving a tag (R155) -/

/-- One scalar register takes a·X + o. -/
def Regs.takeValue (x : Word) (r : Regs) (p : Nat × WetRec) : Regs := { r with x := put 0 r.x p.1 (p.2.a * x + look 0 r.x p.1) }

theorem resolveS_regs (c : Scribe) (tag : Nat) (x : Word) :
    (c.resolveS tag x).r = (c.wet.s.filter fun p => p.2.tag = tag).foldl (Regs.takeValue x) c.r := rfl

theorem look_foldl_takeValue_of_absent (x : Word) {ps : Tbl WetRec} {k : Nat} (habsent : ∀ p ∈ ps, p.1 ≠ k) (r : Regs) :
    look 0 (ps.foldl (Regs.takeValue x) r).x k = look 0 r.x k := by
  induction ps generalizing r with
  | nil => rfl
  | cons p ps ih =>
    obtain ⟨hp, hps⟩ := List.forall_mem_cons.1 habsent
    exact (ih hps (r.takeValue x p)).trans (look_put_ne _ _ _ hp.symm)

theorem look_foldl_takeValue (x : Word) {ps : Tbl WetRec} {k : Nat} {q : WetRec} (hrise : rising ps = true) (hmem : (k, q) ∈ ps) (r : Regs) :
    look 0 (ps.foldl (Regs.takeValue x) r).x k = q.a * x + look 0 r.x k := by
  induction ps generalizing r with
  | nil => exact absurd hmem List.not_mem_nil
  | cons p ps ih =>
    obtain ⟨habove, hrest⟩ := rising_cons.1 hrise
    rw [List.foldl_cons]
    rcases List.mem_cons.1 hmem with rfl | hmem
    · exact (look_foldl_takeValue_of_absent x (fun p hp => Nat.ne_of_gt (habove p hp)) (r.takeValue x (k, q))).trans (look_put_self ..)
    · exact (ih hrest hmem (r.takeValue x p)).trans (congrArg (q.a * x + ·) (look_put_ne _ _ _ (Nat.ne_of_gt (habove _ hmem))))

/-- R155: a scalar register that carries the tag takes its value and is dry, and the tag is free. -/
theorem resolveS_resolves {c : Scribe} {tag k : Nat} {q : WetRec} (x : Word) (hrise : rising c.wet.s = true) (hfind : find c.wet.s k = some q)
    (htag : q.tag = tag) :
    find (c.resolveS tag x).wet.s k = none ∧ find (c.resolveS tag x).wet.tags tag = none
      ∧ look 0 (c.resolveS tag x).r.x k = q.a * x + look 0 c.r.x k := by
  refine ⟨find_filter_of_dropped hrise hfind (by simp [htag]), find_del_self _ _, ?_⟩
  rw [resolveS_regs]
  exact look_foldl_takeValue x (rising_filter _ hrise) (List.mem_filter.2 ⟨(mem_iff_find hrise).2 hfind, by simp [htag]⟩) c.r

/-! ## Leaving the handler (R170) -/

/-- REMAIN of the clause that a handler interrupts (R170). -/
def State.resumeRemain (s : State) : Nat := bits s.me.ctl.tstatus.toNat 32 4

/-- `t` is past the handler of `s`: at the word that TPC names, and in the clause that TSTATUS names (log 114). -/
def State.wentBack (s t : State) : Prop :=
  t.me.ctl.handler = false ∧ t.me.ctl.pc.toNat = s.me.ctl.tpc.toNat / 32 * 32 ∧ t.me.ctl.remain = s.resumeRemain ∧ t.me.ctl.xim = none
    ∧ (s.resumeRemain ≠ 0 → t.me.ctl.header.toNat = bits s.me.ctl.tstatus.toNat 0 32)

/-- The control part after leaving, with `remain` words of the clause to come. -/
def Ctl.leave (c : Ctl) (remain : Nat) : Ctl :=
  { c with handler := false, pc := word (c.tpc.toNat / 32 * 32), remain := remain, xim := none,
           header := if remain = 0 then c.header else BitVec.ofNat 32 (bits c.tstatus.toNat 0 32) }

/-- R170: the scribe as leaving the handler gives t0-t3 back, or drops what was held of them. -/
def State.tempsBack (s : State) : Scribe :=
  if bits s.me.ctl.tstatus.toNat 36 1 = 1 then if s.resumeRemain ≠ 0 then s.me.bringTemps else s.me.wipeHeld else s.me

theorem sameLow_tempsBack (s : State) : s.me.sameLow s.tempsBack := by
  unfold State.tempsBack
  split
  · split
    · exact sameLow_bringTemps s.me
    · exact sameLow_wipeHeld s.me
  · exact .refl s.me

/-- Beside t0-t3, leaving the handler changes the control and run parts. -/
theorem leave_eq (s : State) :
    s.leave = { s with me := { s.tempsBack with ctl := s.tempsBack.ctl.leave s.resumeRemain, run := s.leave.me.run } } := by
  by_cases hsaved : bits s.me.ctl.tstatus.toNat 36 1 = 1 <;> simp only [State.leave, State.tempsBack, hsaved, if_true, if_false] <;> rfl

theorem leave_wentBack (s : State) : s.wentBack s.leave := by
  have hlow := sameLow_tempsBack s
  have hpc : s.me.ctl.tpc.toNat / 32 * 32 < 2 ^ 64 := Nat.lt_of_le_of_lt (Nat.div_mul_le_self _ _) s.me.ctl.tpc.isLt
  rw [leave_eq]
  refine ⟨rfl, ?_, rfl, rfl, fun hrem => ?_⟩
  · show (word (s.tempsBack.ctl.tpc.toNat / 32 * 32)).toNat = _
    rw [hlow.ctl Ctl.tpc fun _ _ => rfl]
    exact (BitVec.toNat_ofNat _ _).trans (Nat.mod_eq_of_lt hpc)
  · show (if s.resumeRemain = 0 then s.tempsBack.ctl.header else BitVec.ofNat 32 (bits s.tempsBack.ctl.tstatus.toNat 0 32)).toNat = _
    rw [if_neg hrem, hlow.ctl Ctl.tstatus fun _ _ => rfl]
    exact (BitVec.toNat_ofNat _ _).trans (Nat.mod_eq_of_lt (bits_lt _ _ _))

/-- The registers but for the lane registers, the memories and all else of the package are as before; so are the words of v0-v63. -/
def State.sameOutside (s t : State) : Prop :=
  { t.me.r with v := s.me.r.v, pv := s.me.r.pv } = s.me.r ∧ s.sameElse t ∧ s.sameMemory t ∧ ∀ g l, g < 64 → l < 64 → t.getV g l = s.getV g l

theorem leave_sameOutside (s : State) : s.sameOutside s.leave := by
  have hlow := sameLow_tempsBack s
  rw [leave_eq]
  exact ⟨hlow.regs, rfl, fun a => ⟨rfl, rfl, rfl, rfl⟩, hlow.words⟩

theorem sameElse_of_advance {s t : State} (h : s.advance.sameElse t) : s.sameElse t := by
  have hme := congrArg (fun u : State => ({ u with me := s.me } : State)) h
  exact hme

/-- Leaving the handler wets no scalar register, keeps the scalars, and takes no tag. -/
theorem leave_keeps_scalars (s : State) :
    s.leave.me.wet.s = s.me.wet.s ∧ s.leave.me.r.x = s.me.r.x ∧ ∀ n, find s.me.wet.tags n = none → find s.leave.me.wet.tags n = none := by
  have hlow := sameLow_tempsBack s
  rw [leave_eq]
  exact ⟨hlow.wetS, hlow.scalars, hlow.free⟩

/-! ## TRET and TRET.REPLAY (R170, R171) -/

section

variable {s : State}

theorem tretCheck_of_outside (i : Instr) (hout : s.me.ctl.handler = false) : s.tretCheck i = trap (illegal9 (encodeNat i)) := if_pos hout

theorem tretCheck_of_bad_resume (i : Instr) (hin : s.me.ctl.handler = true) (hrem : s.resumeRemain ≠ 0) (hbad : s.resumeOk = false) :
    s.tretCheck i = trap { code := cILLEGAL_CLAUSE, detail := 7, tinfo := encodeNat i } :=
  (if_neg (ne_false_of_eq_true hin)).trans (if_pos ⟨hrem, hbad⟩)

theorem tretCheck_of_good_resume (i : Instr) (hin : s.me.ctl.handler = true) (hgood : s.resumeRemain ≠ 0 → s.resumeOk = true) :
    s.tretCheck i = .ok () := by
  have hresume : ¬ (s.resumeRemain ≠ 0 ∧ s.resumeOk = false) := fun ⟨hrem, hbad⟩ => Bool.false_ne_true (hbad.symm.trans (hgood hrem))
  exact (if_neg (ne_false_of_eq_true hin)).trans (if_neg hresume)

/-- Both words raise what their check raises. -/
theorem tret_traps {i : Instr} (hi : i = .tret ∨ i = .tretReplay) {r : Trap} (hcheck : s.tretCheck i = trap r) : s.traps (exec i s) r := by
  rcases hi with rfl | rfl
  · rw [exec_tret, execTret, hcheck]
    rfl
  · rw [exec_tretReplay, execTretReplay, hcheck]
    rfl

theorem exec_tret_of_ok (hcheck : s.tretCheck .tret = .ok ()) : exec .tret s = .next s.advance.leave := by
  rw [exec_tret, execTret, hcheck]
  rfl

/-- R171: without WET_FAULT there is nothing to perform again. -/
theorem exec_tretReplay_of_other_cause (hcheck : s.tretCheck .tretReplay = .ok ()) (hcause : bits s.me.ctl.tcause.toNat 0 8 ≠ cWET_FAULT) :
    exec .tretReplay s = .next s.advance.leave := by
  rw [exec_tretReplay, execTretReplay, hcheck, if_neg hcause]
  rfl

theorem exec_tretReplay_of_replayed {tag : Nat} {r : TagRec} {u : State} (hcheck : s.tretCheck .tretReplay = .ok ())
    (hcause : bits s.me.ctl.tcause.toNat 0 8 = cWET_FAULT) (hreplay : s.me.run.replayTag = some tag) (htag : find s.me.wet.tags tag = some r)
    (hdone : s.replayTag tag r = .ok u) : exec .tretReplay s = .next u.advance.leave := by
  simp only [exec_tretReplay, execTretReplay, hcheck, if_pos hcause, hreplay, htag, hdone, finishAt]

/-- R160: the value of a load performed again, with `n` the bits it reads now. -/
def TagRec.replayed (r : TagRec) (n : Nat) : Word := if r.kept then r.x else extend r.width r.signed n

/-- R157, R160: a load whose access succeeds resolves its tag, to the value that it has kept or to the one it reads now. -/
theorem replayTag_of_read {tag : Nat} {r : TagRec} {g : Got} (hupdated : r.updated = false) (hload : r.amo = none)
    (hafter : s.afterTags (· < tag) r.space r.addr r.width = .ok s) (hread : s.getFar s.meWho r.space r.addr r.width .load = .ok g)
    (hsame : g.st = s) (hwaits : g.waits = none) (hsound : g.bad = none) :
    s.replayTag tag r = .ok { s with me := s.me.resolveS tag (r.replayed g.n) } := by
  simp [State.replayTag, hload, hupdated, hafter, hread, hwaits, hsound, hsame, TagRec.replayed]

end

/-- Settles O25: both words leave the handler or raise what their check raises; TRET.REPLAY on WET_FAULT first resolves the tag of its load. -/
theorem trapReturn : Obligations.TrapReturn := by
  intro s i hi
  refine ⟨fun hout => tret_traps hi (tretCheck_of_outside i hout),
    fun hin hrem hbad => tret_traps hi (tretCheck_of_bad_resume i hin hrem hbad), fun hin hgood hplain => ?_, ?_⟩
  · have hcheck := tretCheck_of_good_resume i hin hgood
    have hexec : exec i s = .next s.advance.leave := by
      rcases hi with rfl | rfl
      · exact exec_tret_of_ok hcheck
      · exact exec_tretReplay_of_other_cause hcheck (hplain.resolve_left nofun)
    obtain ⟨hregs, helse, hmem, hwords⟩ := leave_sameOutside s.advance
    exact ⟨_, hexec, leave_wentBack s.advance, hregs, sameElse_of_advance helse, hmem, hwords⟩
  · rintro hin hrem hcause rfl tag r g k q hreplay htag hupdated hload hafter hread hsame hwaits hsound hrise hfind hq
    have hcheck := tretCheck_of_good_resume (s := s) .tretReplay hin (absurd hrem)
    have hdone := replayTag_of_read hupdated hload hafter hread hsame hwaits hsound
    obtain ⟨hdry, hfree, hvalue⟩ := resolveS_resolves (r.replayed g.n) hrise hfind hq
    obtain ⟨hwet, hx, htags⟩ :=
      leave_keeps_scalars ({ s with me := s.me.resolveS tag (r.replayed g.n) } : State).advance
    exact ⟨_, exec_tretReplay_of_replayed hcheck hcause hreplay htag hdone, leave_wentBack _, (congrArg (find · k) hwet).trans hdry,
      htags tag hfree, (congrArg (look 0 · k) hx).trans hvalue⟩

end Sys2Proof.Machine
end
